-- ==== Sys2Proof/Word.lean ====
section
/-! DEFINITION. The 48-bit word of the device, bit fields, and the sparse canonical maps that hold every
addressed space of the model (spec 00, R1, R2). -/

namespace Sys2Proof

/-- A word is 48 bits unless a chapter names another width (00, "Numbers, units and bit fields"). -/
abbrev Word := BitVec 48
/-- A byte is 8 bits. -/
abbrev Byte := BitVec 8
/-- An instant of station time in nanoseconds of TAI since the PTP epoch (00, "The time pair"). -/
abbrev Instant := Nat

/-- The field high:low of a number, bit 0 the least significant (R1). -/
def fieldOf (w hi lo : Nat) : Nat := (w >>> lo) % 2 ^ (hi + 1 - lo)

/-- The number w with its field high:low replaced by the low bits of v (R1). -/
def setFieldOf (w hi lo v : Nat) : Nat :=
  w - (fieldOf w hi lo) <<< lo + (v % 2 ^ (hi + 1 - lo)) <<< lo

/-- A word from a number, modulo 2^48. -/
def toWord (n : Nat) : Word := BitVec.ofNat 48 n

/-- A word from an integer, two's complement. -/
def ofIntWord (z : Int) : Word := BitVec.ofInt 48 z

/-- A Bool as the number 0 or 1. -/
def bit01 (b : Bool) : Nat := if b then 1 else 0

/-! A sparse map is a list of (key, value) pairs in one canonical form: keys strictly rising, no entry equal to the
default of its key. `d` gives what an unlisted key reads as. -/

/-- What key k reads as. -/
def Sparse.get {α : Type} (d : Nat → α) : List (Nat × α) → Nat → α
  | [], k => d k
  | (k', v) :: m, k => if k = k' then v else Sparse.get d m k

/-- Put (k, v) in its place, instead of an entry of key k that stands there. -/
def Sparse.insert {α : Type} : List (Nat × α) → Nat → α → List (Nat × α)
  | [], k, v => [(k, v)]
  | (k', v') :: m, k, v =>
    if k < k' then (k, v) :: (k', v') :: m
    else if k = k' then (k, v) :: m
    else (k', v') :: Sparse.insert m k v

/-- Write v at key k; writing the default removes the entry. -/
def Sparse.set {α : Type} [DecidableEq α] (d : Nat → α) (m : List (Nat × α)) (k : Nat) (v : α) : List (Nat × α) :=
  if v = d k then m.filter (fun p => p.1 != k) else Sparse.insert m k v

/-- Every key of the list is above b, keys rise strictly, and no entry is the default of its key. -/
def Sparse.wfAbove {α : Type} [DecidableEq α] (d : Nat → α) (b : Nat) : List (Nat × α) → Bool
  | [] => true
  | (k, v) :: m => decide (b < k) && decide (v ≠ d k) && Sparse.wfAbove d k m

/-- The canonical form: the first key is free, the rest rise from it. -/
def Sparse.wf {α : Type} [DecidableEq α] (d : Nat → α) : List (Nat × α) → Bool
  | [] => true
  | (k, v) :: m => decide (v ≠ d k) && Sparse.wfAbove d k m

/-- The default of every ordinary space: zero. -/
def zeroWord : Nat → Word := fun _ => 0
/-- The default of a map of numbers: zero. -/
def zeroNat : Nat → Nat := fun _ => 0

/-- A sparse space of words reading zero where nothing is listed. -/
abbrev WMem := List (Nat × Word)
def WMem.get (m : WMem) (a : Nat) : Word := Sparse.get zeroWord m a
def WMem.set (m : WMem) (a : Nat) (v : Word) : WMem := Sparse.set zeroWord m a v
def WMem.wf (m : WMem) : Bool := Sparse.wf zeroWord m

/-- A sparse map of numbers reading zero where nothing is listed. -/
abbrev NMem := List (Nat × Nat)
def NMem.get (m : NMem) (a : Nat) : Nat := Sparse.get zeroNat m a
def NMem.set (m : NMem) (a v : Nat) : NMem := Sparse.set zeroNat m a v
def NMem.wf (m : NMem) : Bool := Sparse.wf zeroNat m

/-- A sparse set of bits (edge bits, pixels, flags) read false where nothing is listed is a map to 0 or 1. -/
def NMem.has (m : NMem) (a : Nat) : Bool := NMem.get m a != 0

/-- Element i of a list, or the default. -/
def nth {α : Type} (d : α) (l : List α) (i : Nat) : α := l.getD i d

/-- Replace element i of a list by f of it; a list too short is left as it is. -/
def upd {α : Type} (f : α → α) : List α → Nat → List α
  | [], _ => []
  | x :: l, 0 => f x :: l
  | x :: l, i + 1 => x :: upd f l i

/-- Replace element i of the units of one kind by f of it; a list too short is first filled up with units at reset. -/
def modNth {α : Type} (d : α) (f : α → α) : List α → Nat → List α
  | [], 0 => [f d]
  | [], i + 1 => d :: modNth d f [] i
  | x :: l, 0 => f x :: l
  | x :: l, i + 1 => x :: modNth d f l i

/-- The bytes of a number, most significant first (Onbex, Ethernet and the dictionary service, R2). -/
def beBytes (n : Nat) : Nat → List Byte
  | 0 => []
  | k + 1 => BitVec.ofNat 8 (n >>> (8 * k)) :: beBytes n k

/-- The bytes of a number, least significant first (CANopen SDO and the flash die, R2). -/
def leBytes (n k : Nat) : List Byte := (beBytes n k).reverse

/-- The numbers of a byte string, of the given widths in turn, carried in the other byte order; bytes beyond them stay as they are (R2). -/
def turnBytes : List Nat → List Byte → List Byte
  | [], bs => bs
  | w :: ws, bs => (bs.take w).reverse ++ turnBytes ws (bs.drop w)

/-- The number of a byte string, most significant first. -/
def beNat (bs : List Byte) : Nat := bs.foldl (fun n b => n * 256 + b.toNat) 0
/-- The number of a byte string, least significant first. -/
def leNat (bs : List Byte) : Nat := beNat bs.reverse

/-- One step of a most-significant-first CRC over a bit. -/
def crcBit (width poly : Nat) (c : Nat) (b : Bool) : Nat :=
  let top := (c >>> (width - 1)) % 2 == 1
  let c' := (c <<< 1) % 2 ^ width
  if top != b then c' ^^^ poly else c'

/-- The bits of a byte, most significant first. -/
def byteBits (b : Byte) : List Bool := [b.getLsbD 7, b.getLsbD 6, b.getLsbD 5, b.getLsbD 4, b.getLsbD 3, b.getLsbD 2, b.getLsbD 1, b.getLsbD 0]

/-- CRC-64 of the image hash and the dispatch hash: polynomial 0x42F0_E1EB_A9EA_3693, initial value and final XOR all
ones, bits most significant first, not reflected (06, text after Table 06-3). -/
def crc64 (bs : List Byte) : Nat :=
  ((bs.flatMap byteBits).foldl (crcBit 64 0x42F0E1EBA9EA3693) (2 ^ 64 - 1)) ^^^ (2 ^ 64 - 1)

/-- CRC-32 of IEEE 802.3: polynomial 0x04C11DB7, reflected, initial value and final XOR all ones (named by R175, R348,
R356 and R394 as the polynomial of IEEE 802.3). PRESUMED, log 12: the rest of the IEEE 802.3 convention. -/
def crc32 (bs : List Byte) : Nat :=
  let step := fun (c : Nat) (b : Bool) =>
    let x := (c % 2 == 1) != b
    if x then (c >>> 1) ^^^ 0xEDB88320 else c >>> 1
  ((bs.flatMap (fun b => (byteBits b).reverse)).foldl step (2 ^ 32 - 1)) ^^^ (2 ^ 32 - 1)

end Sys2Proof
end

