-- ==== Sys2Proof/Types.lean ====
section
/-! DEFINITION. The plain data that commands carry and that the state holds: time pairs, quality codes, engine operands,
input items, frames of the networks and of the Onbex link, dictionary accesses, start-up findings. -/

namespace Sys2Proof

/-- A time pair (R5): word 0 the TAI seconds, word 1 NS 47:18, LI 17:16, ACC 15:8, SYN 7, HLD 6, PTM 5, CMP 4. -/
structure TimePair where
  w0 : Word
  w1 : Word
  deriving DecidableEq, Repr, Inhabited

/-- Nanoseconds field of a time pair (R5). -/
def TimePair.ns (p : TimePair) : Nat := fieldOf p.w1.toNat 47 18
/-- The instant a time pair names, by word 0 and NS alone (R6). -/
def TimePair.instant (p : TimePair) : Instant := p.w0.toNat * 1000000000 + p.ns
/-- A time pair is legal when NS does not exceed 999 999 999 (R7). -/
def TimePair.legal (p : TimePair) : Bool := decide (p.ns ≤ 999999999)
/-- The time pair of an instant with the given low 18 bits (LI, ACC, flags). -/
def TimePair.of (t : Instant) (low : Nat) : TimePair :=
  ⟨toWord (t / 1000000000), toWord ((t % 1000000000) * 2 ^ 18 + low % 2 ^ 18)⟩

/-- Rank of a quality code (Table 00-6); a reserved code has the rank of Invalid (R10). -/
def qRank (q : Nat) : Nat :=
  match q with
  | 0 => 7 | 1 => 3 | 2 => 1 | 3 => 6 | 4 => 5 | 5 => 2 | 6 => 4 | _ => 1
/-- A code as it is taken on arrival: 7 to 15 become Invalid (R10). -/
def qIn (q : Nat) : Nat := if q ≤ 6 then q else 2
/-- The lower-ranked of two codes (R9). -/
def qMin (a b : Nat) : Nat := if qRank b < qRank a then b else a
/-- The lowest-ranked code among several (R9); Good for none. -/
def qMins (l : List Nat) : Nat := l.foldl qMin 0

/-! ### Engine operations -/

/-- A register number of an operand field. -/
abbrev RegNo := BitVec 6

/-- What every guarded operation carries besides its operands: the work that issues it, its guard (PG, PI of Table 03-6)
and whether it is the last operation commanded for the bundle (log 4: the operations of one bundle are commanded in the
order C, M, A, B; the bundle issues with its last). -/
structure Op where
  eng  : Fin 32
  pg   : BitVec 4
  pi   : Bool
  last : Bool
  deriving DecidableEq, Repr, Inhabited

/-- The second source of an operation that has a form R and a form I (Table 03-7). -/
inductive Src where
  | reg (b : RegNo)
  | imm (i : BitVec 8)
  deriving DecidableEq, Repr, Inhabited

/-- A form X bit operand: an I/O bit or a D-space bit (R97). -/
inductive BitOpnd where
  | io (word : BitVec 14) (bit : BitVec 6)
  | dsp (word : BitVec 14) (bit : BitVec 6)
  deriving DecidableEq, Repr, Inhabited

/-- The slots of a bundle (Table 03-5). -/
inductive Slot where
  | b | a | m | c
  deriving DecidableEq, Repr, Inhabited

/-- A branch or call target: absolute (form T) or in a register (Table 04-17). -/
inductive Target where
  | bundle (t : BitVec 14)
  | reg (a : RegNo)
  deriving DecidableEq, Repr, Inhabited

/-- The count of a hardware loop: the auxiliary field or a register (Table 04-17). -/
inductive LoopCount where
  | count (c : BitVec 6)
  | reg (a : RegNo)
  deriving DecidableEq, Repr, Inhabited

/-! ### Units of the chip -/

/-- Silicon by its natural assignment: 0-31 the engines, 32 + r the relief of region r (R167). -/
abbrev Silicon := Fin 36

/-- The two isolated dies that are fenced as functions (Table 01-7). -/
inductive Die where
  | field | sense
  deriving DecidableEq, Repr, Inhabited

/-- A bank that a block fault can strike: the I-bank, the D-bank or the undo buffer of a position (Table 01-6). -/
inductive BankKind where
  | instr | data | undo
  deriving DecidableEq, Repr, Inhabited

/-- The fence behind a stop in state 6 (R69): of a region, of a bank of a position, or of a silicon. -/
inductive StopFence where
  | region
  | bank (pos : Nat) (k : BankKind)
  | silicon (sil : Nat)
  deriving DecidableEq, Repr, Inhabited

/-- A hardware fault as self-diagnosis finds it (Table 01-6). `src` is SRC of Table 05-10. -/
inductive HwFault where
  | engine (sil : Silicon) (src : Fin 5)
  | iBank (pos : Fin 32)
  | dBank (pos : Fin 32)
  | undoBuffer (pos : Fin 32)
  | regionMemory (r : Fin 4)
  | port (bit : Fin 16)
  | mss
  | baseDie
  deriving DecidableEq, Repr, Inhabited

/-- The clock domains of Table 15-3. -/
inductive Clock where
  | eclk | fclk | mclk | nclk | cclk | kclk | oclk | fdclk | sdclk | pclk | lfclk | ref25
  deriving DecidableEq, Repr, Inhabited

/-- The function a fence falls on (Table 01-7) as far as a fence of it ends at musters (R35): a die or port by its bit
in Table 01-12. -/
abbrev PortBit := Fin 16

/-- A memory word that scrubbing reads (R15). -/
inductive ScrubAt where
  | iBank (pos : Fin 32) (bundle : BitVec 14)
  | dBank (pos : Fin 32) (addr : BitVec 15)
  | region (r : Fin 4) (addr : BitVec 20)
  deriving DecidableEq, Repr, Inhabited

/-- What the ECC says of a word read (R15, Table 01-6). -/
inductive Ecc where
  | clean | corrected (w : Nat) | uncorrectable
  deriving DecidableEq, Repr, Inhabited

/-! ### Input items (Table 02-1) -/

/-- The source of an input item, as the image's placement names it. `gooseNums` are the state and sequence numbers of a
subscription's latest dataset; `frozen` is no source of an image: the active sends it for the words at an address whose frozen
value its items alone do not give (log 100). -/
inductive ItemSrc where
  | diLevel
  | diRecord (d : Fin 48)
  | diCount (d : Fin 48)
  | diFreq (d : Fin 48)
  | ai (a : Fin 8)
  | supply
  | doStatus (n : Fin 24)
  | aoStatus (o : Fin 4)
  | grid (ch : Nat)
  | computed (set : Nat) (q : Nat)
  | goose (sub : Nat) (member : Nat)
  | gooseNums (sub : Nat)
  | can (port : Fin 4) (obj : Nat)
  | remote (module : Nat)
  | eventWord (set : Nat)
  | capturePage
  | frozen (addr : Nat)
  deriving DecidableEq, Repr, Inhabited

/-- How an item enters the image (Table 02-1): the latest value, or every one in order. -/
def ItemSrc.isSamples : ItemSrc → Bool
  | .grid _ => true
  | _ => false

/-- An input item with its membership stamp (R45), the words it brings and its quality. `late` is the LATE flag of ITEM
frames (R49, Table 06-2). -/
structure Item where
  src   : ItemSrc
  stamp : Instant
  vals  : List Word
  qc    : Nat
  late  : Bool
  deriving DecidableEq, Repr, Inhabited

/-! ### Dictionary accesses (11) -/

/-- The datagram that a message of the dictionary service comes in: UDP port, MAGIC, VER and length
(R325). -/
structure Datagram where
  port  : Nat := 41720
  magic : Nat := 0x5358
  ver   : Nat := 1
  size  : Nat := 1436
  deriving DecidableEq, Repr, Inhabited

/-- A write access of one message or of one completed SDO transfer: `sid` none is the SDO path. `len` is the number of
value bytes the message carries; `mac` the first 16 bytes of the MAC as a number (Table 11-5). -/
structure Acc where
  t   : Instant
  sid : Option Nat
  ctr : Nat
  csn : Nat
  len : Nat
  mac : Nat
  udp : Datagram := {}
  deriving DecidableEq, Repr, Inhabited

/-- What a run-time read of the flash die finds: single-bit errors, and the records, by SEQ, with an uncorrectable group (R345). -/
structure FlashReads where
  single  : Nat := 0
  flagged : List Nat := []
  deriving DecidableEq, Repr, Inhabited

/-- A client message other than a write (READ, CLOSE, KEEPALIVE). -/
structure Msg where
  t   : Instant
  sid : Option Nat
  ctr : Nat
  mac : Nat
  ecc : FlashReads := {}
  udp : Datagram := {}
  deriving DecidableEq, Repr, Inhabited

/-- A CANopen SDO frame of the client (R310, R336). -/
inductive SdoFrame where
  | initDownload (ix sub : Nat) (expedited : Bool) (size : Nat) (data : List Byte)
  | segDownload (toggle last : Bool) (data : List Byte)
  | initUpload (ix sub : Nat)
  | segUpload (toggle : Bool)
  | abort
  | invalid
  deriving DecidableEq, Repr, Inhabited

/-! ### Onbex frames (06) -/

/-- A received Onbex frame (Table 06-1): arrival, header, payload, CRC-32. The command that brings it says what it carries. -/
structure Rx where
  t       : Instant
  head    : BitVec 128
  payload : List Byte
  crc     : BitVec 32
  deriving DecidableEq, Repr, Inhabited

/-- Fields of the header. -/
def Rx.typ (rx : Rx) : Nat := (rx.head.extractLsb' 120 8).toNat
def Rx.rtx (rx : Rx) : Bool := rx.head.getLsbD 112
def Rx.len (rx : Rx) : Nat := (rx.head.extractLsb' 96 16).toNat
def Rx.lsn (rx : Rx) : Nat := (rx.head.extractLsb' 64 32).toNat
def Rx.aux (rx : Rx) : Nat := (rx.head.extractLsb' 0 64).toNat
/-- The CRC-32 over header and payload is right (R175). -/
def Rx.crcOk (rx : Rx) : Bool := crc32 (beBytes rx.head.toNat 16 ++ rx.payload) == rx.crc.toNat

/-- Payload of CAPS (Table 06-2). -/
structure Caps where
  stepping : Nat
  firmware : Nat
  protocol : Nat
  appHash  : List Nat
  measHash : Nat
  weights  : List Nat
  deriving DecidableEq, Repr, Inhabited

/-- A queued edit or class command with its membership stamp, session number, originator and command sequence number
(R46, R47, R194). -/
inductive QKind where
  | edit (ix : Nat) (value : List Byte)
  | classCmd (act : Nat)
  deriving DecidableEq, Repr, Inhabited

structure Queued where
  kind    : QKind
  cls     : Nat
  region  : Nat
  stamp   : Instant
  session : Nat
  path    : Option Nat
  org     : Nat
  csn     : Nat
  deriving DecidableEq, Repr, Inhabited

/-- A command as CMD frames carry it (R180, R323): a queued class command, or a write that the MSS applies, with the instant of its
acceptance; a value too long for the payload of one frame (R175) goes ahead of its write in frames of its own. -/
inductive FwdCmd where
  | queued (q : Queued)
  | more (org csn : Nat) (data : List Byte)
  | write (stamp : Instant) (ix sub : Nat) (data : List Byte) (org csn : Nat)
  deriving DecidableEq, Repr, Inhabited

/-- One entry of a SEAL frame (Table 06-3). -/
structure SealEntry where
  cls  : Fin 16
  ned  : Nat
  ncm  : Nat
  lsn  : Nat
  m    : TimePair
  cy   : Nat
  hash : Nat
  deriving DecidableEq, Repr, Inhabited

/-- Where a STATE page belongs (R179): the spaces the manual lists. -/
inductive PageSpace where
  | dBank (pos : Fin 32)
  | region (r : Fin 4)
  | ioImage (cls : Fin 16)
  | ioQuality (cls : Fin 16)
  | eventFlags (cls : Fin 16)
  | ledger (pos : Fin 32)
  | network
  | executed
  | accumulators
  deriving DecidableEq, Repr, Inhabited

/-! ### Ethernet, PTP and CAN frames (10) -/

/-- One of the frames of a remote module's record (R51): the module, the place of the frame among those of the record, how many
there are, its words and the quality they deliver. -/
structure RecPart where
  module : Nat
  part   : Nat
  parts  : Nat
  words  : List Word
  qc     : Nat
  deriving DecidableEq, Repr, Inhabited

/-- What an Ethernet frame carries, as far as the device distinguishes it. -/
inductive EthKind where
  | goose
  | sv
  | ptpEvent
  | pdelayReq
  | ptpOther
  | lldp (tlvs : List Byte)
  | supervision (node : Nat)
  | dictionary
  | arp (ip : Nat)
  | icmpEcho (ip src : Nat)
  | remote (r : RecPart)
  | notInDevice
  | other
  deriving DecidableEq, Repr, Inhabited

/-- A received Ethernet frame: FCS, addresses, redundancy tag (sequence number and LAN identifier of the PRP trailer or
HSR tag), VLAN priority, content. -/
structure EthFrame where
  fcsOk : Bool
  src   : Nat
  dst   : Nat
  tag   : Option (Nat × Nat)
  kind  : EthKind
  deriving DecidableEq, Repr, Inhabited

/-- A GOOSE frame as the hardware filter meets it (R292). -/
structure GooseRx where
  dst     : Nat
  appId   : Nat
  cbRef   : List Byte
  stNum   : Nat
  sqNum   : Nat
  tal     : Nat
  test    : Bool
  ndsCom  : Bool
  confRev : Nat
  sim     : Bool
  vals    : List Word
  quals   : List Nat
  deriving DecidableEq, Repr, Inhabited

/-- An Announce message as grandmaster selection uses it (R298). -/
structure Announce where
  identity    : Nat
  domain      : Nat
  priority1   : Nat
  clockClass  : Nat
  accuracy    : Nat
  variance    : Nat
  priority2   : Nat
  steps       : Nat
  utcOffset   : Int
  utcValid    : Bool
  leap59      : Bool
  leap61      : Bool
  deriving DecidableEq, Repr, Inhabited

/-- A CAN frame (R303, R305); `record` where the image assigns it to a remote module's record (R51). -/
structure CanFrame where
  ident    : Nat
  extended : Bool
  remote   : Bool
  fd       : Bool
  data     : List Byte
  record   : Option RecPart
  deriving DecidableEq, Repr, Inhabited

/-- Validity of a stream value (R234); the stream's fourth code is reserved there. -/
inductive Validity where
  | good | questionable | invalid | reserved
  deriving DecidableEq, Repr, Inhabited

/-- Quality of a stream value as the frame carries it (R234): validity, test, substituted source. -/
structure SvQual where
  validity : Validity
  test     : Bool
  subst    : Bool
  deriving DecidableEq, Repr, Inhabited

/-- One ASDU of a subscribed sampled-value frame (R231-R234): sample count, smpSynch, and for the 4 currents and 4
voltages the value (1 mA or 10 mV units) and its quality. -/
structure Asdu where
  smpCnt   : Nat
  smpSynch : Nat
  vals     : List Int
  quals    : List SvQual
  deriving DecidableEq, Repr, Inhabited

/-- A sampled-value frame as the frame filter meets it (R231). -/
structure SvRx where
  dst   : Nat
  appId : Nat
  svId  : List Byte
  asdus : List Asdu
  deriving DecidableEq, Repr, Inhabited

/-- Aggregation intervals of R240. -/
inductive Interval where
  | cycles10 | cycles150 | min10 | hour2 | sec10
  deriving DecidableEq, Repr, Inhabited

/-! ### The flash die (12) -/

/-- Areas whose sectors are erased in the background: the halves of the parameter store and the event recorder (Table 12-1). -/
inductive FlashArea where
  | storeA | storeB | recorder | identA | identB
  deriving DecidableEq, Repr, Inhabited

/-- The program operation under way in the flash die: of the oldest queued event record, or the three bits of the slot that it voids; of the
oldest queued parameter-store record, or a header group of the sector it opens; of a capture that is complete; or of the background work,
whose first `n` pieces are done. -/
inductive FlashWrite where
  | event | void | record | header | capture | work (n : Nat)
  deriving DecidableEq, Repr, Inhabited

/-- Where a record write is interrupted: its step (R349; of an event record 0 is the record and 1 the mark, R356) and how many bytes of that
step were programmed before. -/
structure FlashCut where
  step : Fin 4
  done : Nat
  deriving DecidableEq, Repr, Inhabited

/-- A loss of VIN: its instant, what it cuts of the flash write under way, and of the accumulator record of which set (R349, R351); the
sector erase that runs, and whether PD11 stays in range for the rest of it (R353). -/
structure VinCut where
  t     : Instant
  cut   : Option (FlashWrite × FlashCut)
  save  : Option (Fin 8 × FlashCut)
  erase : Option (FlashArea × Fin 128 × Bool) := none
  deriving DecidableEq, Repr, Inhabited

/-- A trip of a supply monitor: its instant, and what it cuts of the flash write under way and of the erase that runs where the supply is
the flash die's (R351, R353, R402). -/
structure TripCut where
  t     : Instant
  cut   : Option (FlashWrite × FlashCut)
  erase : Option (FlashArea × Fin 128 × Bool) := none
  deriving DecidableEq, Repr, Inhabited

/-- A loss of the Onbex link: its instant, and the lanes that remain trained (Table 06-12). -/
structure LaneLoss where
  t     : Instant
  lanes : BitVec 4
  deriving DecidableEq, Repr, Inhabited

/-- A check of a frame memory of the panel (R394): its instant, and what has come to stand in the memory other than what was loaded, by byte. -/
structure BufferCheck where
  t     : Instant
  upset : List (Nat × Nat) := []
  deriving DecidableEq, Repr, Inhabited

/-- A match of the calibration channel: its instant, and the gain, offset and delay found (R229). -/
structure CalMatch where
  t      : Instant
  gain   : BitVec 32
  offset : Int
  delay  : Int
  deriving DecidableEq, Repr, Inhabited

/-- The instants of a CAN frame: at which it is valid or complete, and its start of frame (R305, R306). -/
structure FrameAt where
  t   : Instant
  sof : Instant
  deriving DecidableEq, Repr, Inhabited

/-- What the flash die's reads find at start-up (R345, R352, R353): single-bit errors; copies of parameter-store records, and of key and
revocation records (`idents`), by RSN and copy (false A, true B) with an uncorrectable group or a mark that passes only at the normal
margin; event records, by SEQ, with a flagged group; sectors that fail the blank check at the tightened margin; and, where the supply fails
in the scan, how many copies were written again before and where the one under way is cut. -/
structure FlashFinds where
  single : Nat := 0
  copies : List (Nat × Bool) := []
  idents : List (Nat × Bool) := []
  events : List Nat := []
  weak   : List (FlashArea × Fin 128) := []
  cut    : Option (Nat × FlashCut) := none
  deriving DecidableEq, Repr, Inhabited

/-- What start-up finds (Tables 15-5 and 15-6): straps, a core domain monitor out of range, the firmware bank that verifies, self-test
results, dies, the round trip of the Onbex link in ns where its training succeeds, the nanoseconds from power-up to READY, what the flash die's
reads find, and what step 7 measures: VIN, VF1, VF2 and VBAK in volts, and the outputs with an open load (Table 15-5). -/
structure StartUp where
  sideB        : Bool
  testMode     : Bool
  monitorTrip  : Bool
  selfTestFail : List Silicon
  regionFail   : List (Fin 4)
  fieldFound   : Bool
  senseFound   : Bool
  onbex        : Option Nat
  fwBank       : Option (Fin 2)
  ready        : Nat
  flash        : FlashFinds := {}
  vin          : BitVec 32 := 0x41400000
  vf1          : BitVec 32 := 0x41C00000
  vf2          : BitVec 32 := 0x41C00000
  vbak         : BitVec 32 := 0x40400000
  opens        : List (Fin 24) := []
  deriving DecidableEq, Repr, Inhabited

end Sys2Proof
end

