-- ==== Sys2Proof/Syntax.lean ====
section
/-! DEFINITION. The commands of the block: one constructor per row of spec/opcode_table.json, in the table's order.
Engine operations carry an `Op`; dictionary writes an `Acc`; other steps the instant at which they come about. -/

namespace Sys2Proof

inductive Instr where
  -- power, start-up, faults and fences
  | powerUp (t : Instant) (f : StartUp)
  | startUpRetry (t : Instant) (f : StartUp)
  | vinLoss (x : VinCut)
  | vinReturn (t : Instant) (f : StartUp)
  | vbakLowInCamp (t : Instant)
  | clockFault (t : Instant) (k : Clock) (port : PortBit)
  | supplyMonitorTrip (x : TripCut) (pd : Fin 16)
  | sensorRefresh (t : Instant) (vin vf1 vf2 power core base field : BitVec 32)
  | vbakMeasurement (t : Instant) (v : BitVec 32)
  | scrub (t : Instant) (at_ : ScrubAt) (e : Ecc)
  | hardwareFault (t : Instant) (f : HwFault)
  | reliefAttach (t : Instant) (r : Fin 4)
  | selfTestComplete (t : Instant) (sil : Silicon) (pass : Bool)
  | idleSelfTest (t : Instant) (sil : Silicon) (pass : Bool)
  | selfTestRequest (a : Acc) (v : Nat)
  | plannedSwapPrepare (t : Instant) (r : Fin 4)
  | programFaultHoldExpiry (t : Instant) (cls : Fin 16)
  | fenceRelease (a : Acc) (v : Nat)
  | fenceEnd (t : Instant) (p : PortBit)
  | fabricWeightWrite (a : Acc) (port : Fin 13) (v : Nat)
  | dieLinkLoss (t : Instant) (d : Die)
  | dieLinkRegained (t : Instant) (d : Die)
  -- cycles
  | tickBoundary (t : Instant)
  | muster (t : Instant)
  | itemArrival (t : Instant) (k : Nat)
  | cycleSeal (t : Instant) (cls : Fin 16)
  | dispatch (t : Instant) (cls : Fin 16)
  | scheduledWriteApply (t : Instant)
  | stop (a : Acc) (v : Nat)
  | startOrRestart (a : Acc) (v : Nat)
  | overrunWarningClear (a : Acc) (v : Nat)
  -- slot B
  | nop (e : Fin 32) (last : Bool)
  | illegalOpcode (e : Fin 32) (last : Bool) (slot : Slot) (w : BitVec 32)
  | ldBa (o : Op) (b : BitOpnd)
  | ldnBa (o : Op) (b : BitOpnd)
  | andBa (o : Op) (b : BitOpnd)
  | andnBa (o : Op) (b : BitOpnd)
  | orBa (o : Op) (b : BitOpnd)
  | ornBa (o : Op) (b : BitOpnd)
  | xorBa (o : Op) (b : BitOpnd)
  | outBit (o : Op) (b : BitOpnd)
  | outnBit (o : Op) (b : BitOpnd)
  | setBit (o : Op) (b : BitOpnd)
  | rstBit (o : Op) (b : BitOpnd)
  | push (o : Op)
  | popa (o : Op)
  | popo (o : Op)
  | notba (o : Op)
  | red (o : Op) (w : BitVec 14) (b : BitVec 6)
  | fed (o : Op) (w : BitVec 14) (b : BitVec 6)
  | ba2p (o : Op) (d : RegNo)
  | p2ba (o : Op) (a : RegNo)
  | andp (o : Op) (a : RegNo)
  | orp (o : Op) (a : RegNo)
  | ton (o : Op) (a b : RegNo) (u : BitVec 2)
  | tof (o : Op) (a b : RegNo) (u : BitVec 2)
  | tp (o : Op) (a b : RegNo) (u : BitVec 2)
  | ctu (o : Op) (a b : RegNo)
  | ctd (o : Op) (a b : RegNo)
  | cld (o : Op) (a b : RegNo)
  -- slot A, integer
  | add (o : Op) (d a : RegNo) (b : Src)
  | sub (o : Op) (d a : RegNo) (b : Src)
  | and (o : Op) (d a : RegNo) (b : Src)
  | or (o : Op) (d a : RegNo) (b : Src)
  | xor (o : Op) (d a : RegNo) (b : Src)
  | andn (o : Op) (d a b : RegNo)
  | adds (o : Op) (d a b : RegNo) (m : BitVec 2)
  | subs (o : Op) (d a b : RegNo) (m : BitVec 2)
  | min (o : Op) (d a : RegNo) (b : Src) (m : BitVec 2)
  | max (o : Op) (d a : RegNo) (b : Src) (m : BitVec 2)
  | sel (o : Op) (d a b : RegNo)
  | abs (o : Op) (d a : RegNo)
  | not (o : Op) (d a : RegNo)
  | cnt (o : Op) (d a : RegNo)
  | clz (o : Op) (d a : RegNo)
  | shl (o : Op) (d a : RegNo) (b : Src)
  | shr (o : Op) (d a : RegNo) (b : Src)
  | sar (o : Op) (d a : RegNo) (b : Src)
  | rol (o : Op) (d a : RegNo) (b : Src)
  | ror (o : Op) (d a : RegNo) (b : Src)
  | ext (o : Op) (d a : RegNo) (b : Src) (m : BitVec 2)
  | ins (o : Op) (d a : RegNo) (b : Src)
  | mfs (o : Op) (t : Instant) (d sr : RegNo)
  | mov (o : Op) (d : RegNo) (imm : BitVec 8)
  | cmpEq (o : Op) (d a : RegNo) (b : Src)
  | cmpNe (o : Op) (d a : RegNo) (b : Src)
  | cmpLt (o : Op) (d a : RegNo) (b : Src)
  | cmpLe (o : Op) (d a : RegNo) (b : Src)
  | cmpLtu (o : Op) (d a : RegNo) (b : Src)
  | cmpLeu (o : Op) (d a b : RegNo)
  | cmpGt (o : Op) (d a : RegNo) (i : BitVec 8)
  | cmpGe (o : Op) (d a : RegNo) (i : BitVec 8)
  | cmpGtu (o : Op) (d a : RegNo) (i : BitVec 8)
  | cmpF (o : Op) (d a b : RegNo) (m : BitVec 2)
  | cmpD (o : Op) (d a b : RegNo) (m : BitVec 2)
  | mul (o : Op) (d a : RegNo) (b : Src)
  | mulh (o : Op) (d a b : RegNo)
  | mulhU (o : Op) (d a b : RegNo)
  | div (o : Op) (d a b : RegNo)
  | divU (o : Op) (d a b : RegNo)
  | rem (o : Op) (d a b : RegNo)
  | remU (o : Op) (d a b : RegNo)
  -- slot A, real
  | fadd (o : Op) (d a b : RegNo)
  | fsub (o : Op) (d a b : RegNo)
  | fmul (o : Op) (d a b : RegNo)
  | fdiv (o : Op) (d a b : RegNo)
  | fmin (o : Op) (d a b : RegNo)
  | fmax (o : Op) (d a b : RegNo)
  | fabs (o : Op) (d a : RegNo)
  | fneg (o : Op) (d a : RegNo)
  | cvtFi (o : Op) (d a : RegNo) (m : BitVec 2)
  | cvtIf (o : Op) (d a : RegNo) (m : BitVec 2)
  | dadd (o : Op) (d a b : RegNo)
  | dsub (o : Op) (d a b : RegNo)
  | dmul (o : Op) (d a b : RegNo)
  | ddiv (o : Op) (d a b : RegNo)
  | dmin (o : Op) (d a b : RegNo)
  | dmax (o : Op) (d a b : RegNo)
  | dabs (o : Op) (d a : RegNo)
  | dneg (o : Op) (d a : RegNo)
  | cvtDi (o : Op) (d a : RegNo) (m : BitVec 2)
  | cvtId (o : Op) (d a : RegNo) (m : BitVec 2)
  | cvtSd (o : Op) (d a : RegNo)
  | cvtDs (o : Op) (d a : RegNo)
  -- slot A, profile pages
  | tadd (o : Op) (d a b : RegNo)
  | tsub (o : Op) (d a b : RegNo)
  | tcmpLt (o : Op) (d a b : RegNo)
  | tcmpLe (o : Op) (d a b : RegNo)
  | tcmpEq (o : Op) (d a b : RegNo)
  | badd (o : Op) (d a b : RegNo)
  | bsub (o : Op) (d a b : RegNo)
  | bcy (o : Op) (d a b : RegNo)
  | bbw (o : Op) (d a b : RegNo)
  | bdaj (o : Op) (d a : RegNo)
  | b2d (o : Op) (d a : RegNo)
  | d2b (o : Op) (d a : RegNo)
  | bshl (o : Op) (d a : RegNo) (b : Src)
  | bshr (o : Op) (d a : RegNo) (b : Src)
  -- slot M
  | ldD (o : Op) (d a : RegNo) (b : Src)
  | stD (o : Op) (s a : RegNo) (b : Src)
  | ldG (o : Op) (d a : RegNo) (b : Src)
  | stG (o : Op) (s a : RegNo) (b : Src)
  | ldi (o : Op) (d a : RegNo) (b : Src)
  | inW (o : Op) (d a : RegNo) (b : Src)
  | outW (o : Op) (s a : RegNo) (b : Src)
  | inB (o : Op) (d a : RegNo)
  | outB (o : Op) (s a : RegNo)
  | inX (o : Op) (d a : RegNo) (i : BitVec 8)
  | mbput (o : Op) (s a : RegNo) (b : Src)
  | mbget (o : Op) (d a : RegNo) (b : Src)
  | mbhdr (o : Op) (d a : RegNo) (i : BitVec 8)
  | sow (o : Op) (a b : RegNo)
  -- slot C
  | br (o : Op) (t : Target)
  | call (o : Op) (t : Target)
  | ret (o : Op)
  | loop (o : Op) (t : BitVec 14) (c : LoopCount)
  | eoc (o : Op) (t : Instant)
  | rcl (o : Op)
  | cnf (o : Op)
  | imm (e : Fin 32) (last : Bool) (sx : Bool) (x : BitVec 28)
  | wfe (o : Op) (e : RegNo)
  | sev (o : Op) (t : Instant) (e : RegNo) (mask : BitVec 8)
  | clev (o : Op) (e : RegNo)
  | wtu (o : Op) (t : Instant) (a : RegNo) (i : BitVec 8)
  | dmv (o : Op) (d a b : RegNo)
  | eventArrival (t : Instant) (k : Nat)
  | wtuWaitEnd (t : Instant) (e : Fin 32)
  | milestone (t : Instant) (e : Fin 32)
  -- the pair
  | heartbeatTransmit (t : Instant)
  | heartbeat (rx : Rx) (state : Nat) (sideB : Bool) (sent began : TimePair)
  | caps (rx : Rx) (p : Caps)
  | nak (rx : Rx) (first : Nat)
  | item (rx : Rx) (items : List (Fin 16 × Item))
  | edit (rx : Rx) (q : Queued)
  | cmd (rx : Rx) (f : FwdCmd)
  | seal (rx : Rx) (es : List SealEntry)
  | accum (rx : Rx) (accs : List (List Int))
  | accumTransmit (t : Instant)
  | hash (rx : Rx) (h : Nat) (d : TimePair)
  | state (rx : Rx) (sp : PageSpace) (page : Nat) (words : List Word)
  | stateEnd (rx : Rx) (cls : Option (Fin 16))
  | abdicate (rx : Rx) (cause : Nat)
  | role (rx : Rx) (grant : Option Instant)
  | fenceFrame (rx : Rx) (cause : Nat)
  | batonStopped (t : Instant)
  | batonToggling (t : Instant)
  | heartbeatLoss (t : Instant)
  | onbexLinkLoss (x : LaneLoss)
  | onbexLinkUp (t : Instant) (roundTrip : Nat)
  | joiningTimeout (t : Instant)
  | shadowStart (t : Instant) (cls : Fin 16)
  | sealFaultDeadline (t : Instant) (cls : Fin 16)
  | hashDeadline (t : Instant)
  | inputDiscrepancy (t : Instant) (src : ItemSrc)
  | revertHoldOffExpiry (t : Instant)
  | handoverTick (t : Instant)
  | resynchronise (a : Acc) (v : Nat)
  | plannedSwap (a : Acc) (v : Nat)
  | leaveFenced (a : Acc) (v : Nat)
  | fenceThisChip (a : Acc) (v : Nat)
  -- edits and updates
  | editWrite (a : Acc) (ix : Nat) (data : List Byte)
  | editApply (t : Instant) (r : Fin 4) (m : Instant)
  | header (a : Acc) (tgt : Fin 6) (bytes : List Byte)
  | body (a : Acc) (tgt : Fin 6) (offset : Nat) (bytes : List Byte)
  | imageCheckComplete (t : Instant) (tgt : Fin 6)
  | transferTimeout (t : Instant) (tgt : Fin 6)
  | abortTransfer (a : Acc) (v : Nat)
  | activate (a : Acc) (v : Nat)
  | cancelActivation (a : Acc) (v : Nat)
  | confirm (a : Acc) (v : Nat)
  | fallBack (a : Acc) (v : Nat)
  | activationTick (t : Instant) (tgt : Fin 4)
  | regionResume (t : Instant) (tgt : Fin 4)
  | trialPeriodExpiry (t : Instant) (tgt : Fin 6)
  | fallbackTick (t : Instant) (tgt : Fin 6)
  | mssFirmwareActivation (t : Instant)
  | mssFirmwareBack (t : Instant) (ok : Bool)
  | measurementConfigActivation (t : Instant)
  | keySlotRevocation (a : Acc) (v : Nat)
  -- measurement
  | senseSample (t : Instant) (ch : Fin 17) (stamp : Instant) (v : Int)
  | gridRelease (t : Instant) (g : Instant)
  | svFrame (t : Instant) (p : Fin 4) (f : SvRx)
  | svPublicationFrame (t : Instant) (set : Fin 2) (count : Nat)
  | calibrationRequest (a : Acc) (v : Nat)
  | calibrationRotation (t : Instant)
  | calibrationMatch (x : CalMatch)
  | calibrationSwitchOver (t : Instant)
  | calibrationReturn (t : Instant) (coef : BitVec 32 × Int)
  | senseTemperatureRead (t : Instant) (temp : BitVec 32)
  | windowEnd (t : Instant) (s : Fin 8)
  | intervalEnd (t : Instant) (s : Fin 8) (k : Interval)
  | synchrophasorReport (t : Instant) (s : Fin 8)
  | accumulatorSave (t : Instant)
  | accumulatorReset (a : Acc) (s : Fin 8) (v : Nat)
  | captureTrigger (a : Acc) (v : Nat)
  | captureLock (a : Acc) (v : Nat)
  | captureUnlock (a : Acc) (v : Nat)
  | captureComplete (t : Instant)
  | captureDataRead (m : Msg) (offset want : Nat)
  | capturePageFetch (t : Instant) (cls : Fin 16)
  | campWindowEnd (t : Instant) (ch : Fin 8) (samples : List Int)
  | campRecordTransfer (t : Instant)
  -- field die
  | fieldSupplyChange (t : Instant) (supply2 : Bool) (missing : Bool) (set : Bool)
  | fieldDieReset (t : Instant)
  | fieldDieResetEnd (t : Instant)
  | fieldDieRediscovered (t : Instant)
  | diEdge (t : Instant) (d : Fin 48) (level : Bool)
  | diAccept (t : Instant) (d : Fin 48)
  | changeRecordRead (m : Msg) (d : Fin 48)
  | fieldTickLatch (t : Instant)
  | counterReset (a : Acc) (d : Fin 48) (v : Nat)
  | frequencyMeasurementEnd (t : Instant) (d : Fin 48)
  | frequencyTimeout (t : Instant) (d : Fin 48)
  | pulseEnd (t : Instant) (n : Fin 24)
  | doCurrentLimit (t : Instant) (n : Fin 24)
  | doThermalShutdown (t : Instant) (n : Fin 24)
  | doThermalRecovery (t : Instant) (n : Fin 24)
  | doOverload (t : Instant) (n : Fin 24)
  | doGroupCurrent (t : Instant) (upper : Bool)
  | doOpenLoad (t : Instant) (n : Fin 24)
  | doReadbackMismatch (t : Instant) (n : Fin 24)
  | doDiagnosticClear (t : Instant) (n : Fin 24) (bit : Fin 12)
  | latchReset (a : Acc) (n : Fin 24) (v : Nat)
  | aiConversion (t : Instant) (ch : Fin 8) (raw : Int) (supplyLimit : Bool)
  | zeroTrim (a : Acc) (ch : Fin 8)
  | spanTrim (a : Acc) (ch : Fin 8)
  | clearTrims (a : Acc) (ch : Fin 8)
  | trimComplete (t : Instant) (ch : Fin 8)
  | aoComplianceLimit (t : Instant) (o : Fin 4) (delivered : Nat)
  | aoShortfallPersist (t : Instant) (o : Fin 4)
  | aoRefreshTimeout (t : Instant) (o : Fin 4)
  | fieldRefresh (t : Instant)
  | failAction (t : Instant)
  | settingTakesEffect (t : Instant)
  | fieldConfigWrite (a : Acc) (ix sub v : Nat)
  -- networks and time
  | ethernetLinkChange (t : Instant) (p : Fin 4) (up : Bool) (speed : Fin 3) (full : Bool) (master : Bool) (abilities : Nat)
  | ethernetFrameReceived (t : Instant) (p : Fin 4) (f : EthFrame)
  | prpSupervisionTransmit (t : Instant)
  | prpPathLoss (t : Instant) (p : Fin 4)
  | lldpTransmit (t : Instant) (p : Fin 4)
  | gooseRepetition (t : Instant) (ds : Fin 64)
  | gooseFrame (t : Instant) (p : Fin 4) (f : GooseRx)
  | gooseTalExpiry (t : Instant) (sub : Fin 256)
  | ptpSync (t : Instant) (offset : Int) (pathDelay : Nat) (master : Instant)
  | ptpAnnounce (t : Instant) (bus : Bool) (a : Announce)
  | announceTimeout (t : Instant)
  | holdoverExpiry (t : Instant)
  | stepRequest (a : Acc) (v : Nat)
  | utcOffsetChange (t : Instant)
  | leapSecondCommit (t : Instant)
  | canFrameReceived (x : FrameAt) (c : Fin 4) (f : CanFrame) (counter : Nat)
  | canFrameTransmitted (x : FrameAt) (c : Fin 4) (obj : Nat) (counter : Nat) (edge : Nat)
  | canReferenceMessage (t : Instant) (c : Fin 4)
  | canCounterLatch (t : Instant) (counter : Nat)
  | canBusOff (t : Instant) (c : Fin 4)
  | canBusOffRecovery (t : Instant) (c : Fin 4)
  | canRecoveryCommand (a : Acc) (c : Fin 4) (v : Nat)
  | cableTestRequest (a : Acc) (p : Fin 4) (v : Nat)
  | cableTestComplete (t : Instant) (p : Fin 4) (kind : Fin 5) (dist : Nat) (length : Nat)
  | sdoRequest (t : Instant) (f : SdoFrame)
  | sdoTimeout (t : Instant)
  -- the object dictionary
  | hello (t : Instant) (kid nc : Nat)
  | openSession (t : Instant) (sid ctr kid mac : Nat)
  | lockoutExpiry (t : Instant) (kid : Nat)
  | read (m : Msg) (ix sub offset want : Nat)
  | write (a : Acc) (ix sub offset : Nat) (last : Bool) (data : List Byte)
  | closeSession (m : Msg)
  | keepalive (m : Msg)
  | sessionTimeout (t : Instant) (sid : Nat)
  | helloStateExpiry (t : Instant) (sid : Nat)
  | segmentTimeout (t : Instant) (sid : Nat)
  | restart (a : Acc) (v : Nat) (f : StartUp)
  | keySlotWrite (a : Acc) (slot role kid secret : Nat)
  | closeAllSessions (a : Acc) (v : Nat)
  -- parameter store and recorder
  | parameterRecordWrite (t : Instant)
  | sectorEraseComplete (t : Instant) (area : FlashArea) (sector : Fin 128)
  | eventRecordWrite (t : Instant)
  | recordsRead (m : Msg) (offset : Nat)
  | recorderClear (a : Acc) (v : Nat)
  -- calendar and watchdog
  | calRead (reg : Fin 12)
  | readShadowTimeout
  | calWrite (reg : Fin 7) (v : BitVec 16)
  | calCommit
  | calDiscard
  | calWdayWrite (v : BitVec 16)
  | calShift (v : BitVec 16)
  | calShiftComplete
  | calStatClear (v : BitVec 16)
  | calendarWrap
  | secondMark (t : Instant)
  | checkIn (t : Instant) (m : Fin 32) (merged : Bool)
  | watchdogConfigure (m : Fin 32) (enrol : Bool) (p o c : Nat)
  | configurationLock
  | armingDeadline (t : Instant) (m : Fin 32)
  | windowClose (t : Instant) (m : Fin 32)
  | evidenceRelease (a : Acc) (v : Nat)
  -- front panel
  | frameRows (a : Acc) (first : Nat) (rows : List Byte)
  | waveformTableWrite (a : Acc) (band : Fin 8) (data : List Byte)
  | partialUpdate (a : Acc) (v : Nat)
  | fullUpdate (a : Acc) (v : Nat)
  | panelAbort (a : Acc) (v : Nat)
  | repaint (a : Acc) (v : Nat)
  | reEnable (a : Acc) (v : Nat)
  | railsInRange (t : Instant)
  | updateStart (x : BufferCheck)
  | updateEnd (t : Instant)
  | balancingEnd (t : Instant)
  | panelTemperatureRead (t : Instant) (temp : BitVec 32)
  | currentBufferCheck (x : BufferCheck)
  | idlePowerOff (t : Instant)
  | railFault (t : Instant)
  | keyAccept (t : Instant) (key : Fin 8) (pressed : Bool)
  | trimActionTimeout (t : Instant)
  -- rows added at the table's end
  | lfclkCount (t : Instant)
  | pd0PowerLoss (t : Instant)
  | pd0PowerUp (t : Instant)
  | vfSourceChange (t : Instant) (supply2 : Bool) (above16 : Bool)
  | aoComplianceClear (t : Instant) (o : Fin 4) (delivered : Nat)
  | aoShortfallEnd (t : Instant) (o : Fin 4)
  | driveFrame (t : Instant)
  | railsDischarged (t : Instant)
  | ptpTransmit (t : Instant) (bus : Bool)
  deriving DecidableEq, Repr

end Sys2Proof
end

