-- ==== Sys2Proof/Decode.lean ====
section
/-! DEFINITION. Decoding. No row of the command table gives bits, so no word spells a command. The operations of the
engines, which are commands of their own here, have encodings in the manual (R85-R99 and 04): they are decoded and encoded
below, slot by slot and profile by profile. -/

namespace Sys2Proof

/-- The command that a word spells by the table's bits: none, as no row gives bits. -/
def decodeTableWord (_nbits _w : Nat) : Option Instr := none

/-! ### Fields of an operation (Tables 03-6 and 03-7) -/

def fPg (w : BitVec 32) : BitVec 4 := w.extractLsb' 28 4
def fPi (w : BitVec 32) : Bool := w.getLsbD 27
def fOpc (w : BitVec 32) : BitVec 7 := w.extractLsb' 20 7
/-- Destination field. -/
def fd (w : BitVec 32) : RegNo := w.extractLsb' 14 6
/-- Source A or base. -/
def fa (w : BitVec 32) : RegNo := w.extractLsb' 8 6
/-- Source B. -/
def fb (w : BitVec 32) : RegNo := w.extractLsb' 2 6
/-- Modifier. -/
def fm (w : BitVec 32) : BitVec 2 := w.extractLsb' 0 2
/-- IMM8. -/
def fi (w : BitVec 32) : BitVec 8 := w.extractLsb' 0 8
/-- Word address of form X, target of form T. -/
def xw (w : BitVec 32) : BitVec 14 := w.extractLsb' 6 14
/-- Bit index of form X, auxiliary field of form T. -/
def xb (w : BitVec 32) : BitVec 6 := w.extractLsb' 0 6

/-- The 32 bits of a slot of a bundle (Table 03-5). -/
def slotBits (w : Nat) : Slot → BitVec 32
  | .b => BitVec.ofNat 32 w
  | .a => BitVec.ofNat 32 (w >>> 32)
  | .m => BitVec.ofNat 32 (w >>> 64)
  | .c => BitVec.ofNat 32 (w >>> 96)

/-- The guard of an operation, with the engine that issues it and its place in the bundle. -/
def opOf (e : Fin 32) (last : Bool) (w : BitVec 32) : Op := ⟨e, fPg w, fPi w, last⟩

/-- Form R. -/
def mkR (o : Op) (opc : BitVec 7) (d a b : RegNo) (m : BitVec 2) : BitVec 32 :=
  o.pg ++ BitVec.ofBool o.pi ++ opc ++ d ++ a ++ b ++ m
/-- Form I. -/
def mkI (o : Op) (opc : BitVec 7) (d a : RegNo) (i : BitVec 8) : BitVec 32 :=
  o.pg ++ BitVec.ofBool o.pi ++ opc ++ d ++ a ++ i
/-- Forms X and T. -/
def mkX (o : Op) (opc : BitVec 7) (t : BitVec 14) (k : BitVec 6) : BitVec 32 :=
  o.pg ++ BitVec.ofBool o.pi ++ opc ++ t ++ k

/-! ### Opcodes -/

/-- Slot B (Tables 04-1 to 04-3). -/
def decB (e : Fin 32) (last : Bool) (w : BitVec 32) : Option Instr :=
  match (fOpc w).toNat with
  | 0x00 => some (.nop e last)
  | 0x01 => some (.ldBa (opOf e last w) (.io (xw w) (xb w)))
  | 0x11 => some (.ldBa (opOf e last w) (.dsp (xw w) (xb w)))
  | 0x02 => some (.ldnBa (opOf e last w) (.io (xw w) (xb w)))
  | 0x12 => some (.ldnBa (opOf e last w) (.dsp (xw w) (xb w)))
  | 0x03 => some (.andBa (opOf e last w) (.io (xw w) (xb w)))
  | 0x13 => some (.andBa (opOf e last w) (.dsp (xw w) (xb w)))
  | 0x04 => some (.andnBa (opOf e last w) (.io (xw w) (xb w)))
  | 0x14 => some (.andnBa (opOf e last w) (.dsp (xw w) (xb w)))
  | 0x05 => some (.orBa (opOf e last w) (.io (xw w) (xb w)))
  | 0x15 => some (.orBa (opOf e last w) (.dsp (xw w) (xb w)))
  | 0x06 => some (.ornBa (opOf e last w) (.io (xw w) (xb w)))
  | 0x16 => some (.ornBa (opOf e last w) (.dsp (xw w) (xb w)))
  | 0x07 => some (.xorBa (opOf e last w) (.io (xw w) (xb w)))
  | 0x17 => some (.xorBa (opOf e last w) (.dsp (xw w) (xb w)))
  | 0x08 => some (.outBit (opOf e last w) (.io (xw w) (xb w)))
  | 0x18 => some (.outBit (opOf e last w) (.dsp (xw w) (xb w)))
  | 0x09 => some (.outnBit (opOf e last w) (.io (xw w) (xb w)))
  | 0x19 => some (.outnBit (opOf e last w) (.dsp (xw w) (xb w)))
  | 0x0A => some (.setBit (opOf e last w) (.io (xw w) (xb w)))
  | 0x1A => some (.setBit (opOf e last w) (.dsp (xw w) (xb w)))
  | 0x0B => some (.rstBit (opOf e last w) (.io (xw w) (xb w)))
  | 0x1B => some (.rstBit (opOf e last w) (.dsp (xw w) (xb w)))
  | 0x20 => some (.push (opOf e last w))
  | 0x21 => some (.popa (opOf e last w))
  | 0x22 => some (.popo (opOf e last w))
  | 0x23 => some (.notba (opOf e last w))
  | 0x24 => some (.red (opOf e last w) (xw w) (xb w))
  | 0x25 => some (.fed (opOf e last w) (xw w) (xb w))
  | 0x26 => some (.ba2p (opOf e last w) (fd w))
  | 0x27 => some (.p2ba (opOf e last w) (fa w))
  | 0x28 => some (.andp (opOf e last w) (fa w))
  | 0x29 => some (.orp (opOf e last w) (fa w))
  | 0x30 => some (.ton (opOf e last w) (fa w) (fb w) (fm w))
  | 0x31 => some (.tof (opOf e last w) (fa w) (fb w) (fm w))
  | 0x32 => some (.tp (opOf e last w) (fa w) (fb w) (fm w))
  | 0x34 => some (.ctu (opOf e last w) (fa w) (fb w))
  | 0x35 => some (.ctd (opOf e last w) (fa w) (fb w))
  | 0x36 => some (.cld (opOf e last w) (fa w) (fb w))
  | _ => none

/-- Slot A without its profile page (Tables 04-6 to 04-11). -/
def decA (e : Fin 32) (last : Bool) (t : Instant) (w : BitVec 32) : Option Instr :=
  match (fOpc w).toNat with
  | 0x00 => some (.nop e last)
  | 0x01 => some (.add (opOf e last w) (fd w) (fa w) (.reg (fb w)))
  | 0x21 => some (.add (opOf e last w) (fd w) (fa w) (.imm (fi w)))
  | 0x02 => some (.sub (opOf e last w) (fd w) (fa w) (.reg (fb w)))
  | 0x22 => some (.sub (opOf e last w) (fd w) (fa w) (.imm (fi w)))
  | 0x03 => some (.and (opOf e last w) (fd w) (fa w) (.reg (fb w)))
  | 0x23 => some (.and (opOf e last w) (fd w) (fa w) (.imm (fi w)))
  | 0x04 => some (.or (opOf e last w) (fd w) (fa w) (.reg (fb w)))
  | 0x24 => some (.or (opOf e last w) (fd w) (fa w) (.imm (fi w)))
  | 0x05 => some (.xor (opOf e last w) (fd w) (fa w) (.reg (fb w)))
  | 0x25 => some (.xor (opOf e last w) (fd w) (fa w) (.imm (fi w)))
  | 0x06 => some (.andn (opOf e last w) (fd w) (fa w) (fb w))
  | 0x07 => some (.adds (opOf e last w) (fd w) (fa w) (fb w) (fm w))
  | 0x08 => some (.subs (opOf e last w) (fd w) (fa w) (fb w) (fm w))
  | 0x09 => some (.min (opOf e last w) (fd w) (fa w) (.reg (fb w)) (fm w))
  | 0x2D => some (.min (opOf e last w) (fd w) (fa w) (.imm (fi w)) 0)
  | 0x0A => some (.max (opOf e last w) (fd w) (fa w) (.reg (fb w)) (fm w))
  | 0x2E => some (.max (opOf e last w) (fd w) (fa w) (.imm (fi w)) 0)
  | 0x0B => some (.sel (opOf e last w) (fd w) (fa w) (fb w))
  | 0x0C => some (.abs (opOf e last w) (fd w) (fa w))
  | 0x0D => some (.not (opOf e last w) (fd w) (fa w))
  | 0x0E => some (.cnt (opOf e last w) (fd w) (fa w))
  | 0x0F => some (.clz (opOf e last w) (fd w) (fa w))
  | 0x10 => some (.shl (opOf e last w) (fd w) (fa w) (.reg (fb w)))
  | 0x26 => some (.shl (opOf e last w) (fd w) (fa w) (.imm (fi w)))
  | 0x11 => some (.shr (opOf e last w) (fd w) (fa w) (.reg (fb w)))
  | 0x27 => some (.shr (opOf e last w) (fd w) (fa w) (.imm (fi w)))
  | 0x12 => some (.sar (opOf e last w) (fd w) (fa w) (.reg (fb w)))
  | 0x28 => some (.sar (opOf e last w) (fd w) (fa w) (.imm (fi w)))
  | 0x13 => some (.rol (opOf e last w) (fd w) (fa w) (.reg (fb w)))
  | 0x29 => some (.rol (opOf e last w) (fd w) (fa w) (.imm (fi w)))
  | 0x14 => some (.ror (opOf e last w) (fd w) (fa w) (.reg (fb w)))
  | 0x2A => some (.ror (opOf e last w) (fd w) (fa w) (.imm (fi w)))
  | 0x15 => some (.ext (opOf e last w) (fd w) (fa w) (.reg (fb w)) (fm w))
  | 0x2B => some (.ext (opOf e last w) (fd w) (fa w) (.imm (fi w)) 0)
  | 0x16 => some (.ins (opOf e last w) (fd w) (fa w) (.reg (fb w)))
  | 0x2C => some (.ins (opOf e last w) (fd w) (fa w) (.imm (fi w)))
  | 0x1F => some (.mfs (opOf e last w) t (fd w) (fa w))
  | 0x20 => some (.mov (opOf e last w) (fd w) (fi w))
  | 0x30 => some (.cmpEq (opOf e last w) (fd w) (fa w) (.reg (fb w)))
  | 0x38 => some (.cmpEq (opOf e last w) (fd w) (fa w) (.imm (fi w)))
  | 0x31 => some (.cmpNe (opOf e last w) (fd w) (fa w) (.reg (fb w)))
  | 0x39 => some (.cmpNe (opOf e last w) (fd w) (fa w) (.imm (fi w)))
  | 0x32 => some (.cmpLt (opOf e last w) (fd w) (fa w) (.reg (fb w)))
  | 0x3A => some (.cmpLt (opOf e last w) (fd w) (fa w) (.imm (fi w)))
  | 0x33 => some (.cmpLe (opOf e last w) (fd w) (fa w) (.reg (fb w)))
  | 0x3B => some (.cmpLe (opOf e last w) (fd w) (fa w) (.imm (fi w)))
  | 0x34 => some (.cmpLtu (opOf e last w) (fd w) (fa w) (.reg (fb w)))
  | 0x3E => some (.cmpLtu (opOf e last w) (fd w) (fa w) (.imm (fi w)))
  | 0x35 => some (.cmpLeu (opOf e last w) (fd w) (fa w) (fb w))
  | 0x36 => some (.cmpF (opOf e last w) (fd w) (fa w) (fb w) (fm w))
  | 0x37 => some (.cmpD (opOf e last w) (fd w) (fa w) (fb w) (fm w))
  | 0x3C => some (.cmpGt (opOf e last w) (fd w) (fa w) (fi w))
  | 0x3D => some (.cmpGe (opOf e last w) (fd w) (fa w) (fi w))
  | 0x3F => some (.cmpGtu (opOf e last w) (fd w) (fa w) (fi w))
  | 0x40 => some (.mul (opOf e last w) (fd w) (fa w) (.reg (fb w)))
  | 0x43 => some (.mul (opOf e last w) (fd w) (fa w) (.imm (fi w)))
  | 0x41 => some (.mulh (opOf e last w) (fd w) (fa w) (fb w))
  | 0x42 => some (.mulhU (opOf e last w) (fd w) (fa w) (fb w))
  | 0x44 => some (.div (opOf e last w) (fd w) (fa w) (fb w))
  | 0x45 => some (.divU (opOf e last w) (fd w) (fa w) (fb w))
  | 0x46 => some (.rem (opOf e last w) (fd w) (fa w) (fb w))
  | 0x47 => some (.remU (opOf e last w) (fd w) (fa w) (fb w))
  | 0x50 => some (.fadd (opOf e last w) (fd w) (fa w) (fb w))
  | 0x51 => some (.fsub (opOf e last w) (fd w) (fa w) (fb w))
  | 0x52 => some (.fmul (opOf e last w) (fd w) (fa w) (fb w))
  | 0x53 => some (.fdiv (opOf e last w) (fd w) (fa w) (fb w))
  | 0x54 => some (.fmin (opOf e last w) (fd w) (fa w) (fb w))
  | 0x55 => some (.fmax (opOf e last w) (fd w) (fa w) (fb w))
  | 0x56 => some (.fabs (opOf e last w) (fd w) (fa w))
  | 0x57 => some (.fneg (opOf e last w) (fd w) (fa w))
  | 0x58 => some (.cvtFi (opOf e last w) (fd w) (fa w) (fm w))
  | 0x59 => some (.cvtIf (opOf e last w) (fd w) (fa w) (fm w))
  | 0x60 => some (.dadd (opOf e last w) (fd w) (fa w) (fb w))
  | 0x61 => some (.dsub (opOf e last w) (fd w) (fa w) (fb w))
  | 0x62 => some (.dmul (opOf e last w) (fd w) (fa w) (fb w))
  | 0x63 => some (.ddiv (opOf e last w) (fd w) (fa w) (fb w))
  | 0x64 => some (.dmin (opOf e last w) (fd w) (fa w) (fb w))
  | 0x65 => some (.dmax (opOf e last w) (fd w) (fa w) (fb w))
  | 0x66 => some (.dabs (opOf e last w) (fd w) (fa w))
  | 0x67 => some (.dneg (opOf e last w) (fd w) (fa w))
  | 0x68 => some (.cvtDi (opOf e last w) (fd w) (fa w) (fm w))
  | 0x69 => some (.cvtId (opOf e last w) (fd w) (fa w) (fm w))
  | 0x6A => some (.cvtSd (opOf e last w) (fd w) (fa w))
  | 0x6B => some (.cvtDs (opOf e last w) (fd w) (fa w))
  | _ => none

/-- Slot A, profile E (Table 04-12). -/
def decAE (e : Fin 32) (last : Bool) (w : BitVec 32) : Option Instr :=
  match (fOpc w).toNat with
  | 0x70 => some (.tadd (opOf e last w) (fd w) (fa w) (fb w))
  | 0x71 => some (.tsub (opOf e last w) (fd w) (fa w) (fb w))
  | 0x72 => some (.tcmpLt (opOf e last w) (fd w) (fa w) (fb w))
  | 0x73 => some (.tcmpLe (opOf e last w) (fd w) (fa w) (fb w))
  | 0x74 => some (.tcmpEq (opOf e last w) (fd w) (fa w) (fb w))
  | _ => none

/-- Slot A, profile D (Table 04-13). -/
def decAD (e : Fin 32) (last : Bool) (w : BitVec 32) : Option Instr :=
  match (fOpc w).toNat with
  | 0x70 => some (.badd (opOf e last w) (fd w) (fa w) (fb w))
  | 0x71 => some (.bsub (opOf e last w) (fd w) (fa w) (fb w))
  | 0x72 => some (.bcy (opOf e last w) (fd w) (fa w) (fb w))
  | 0x73 => some (.bbw (opOf e last w) (fd w) (fa w) (fb w))
  | 0x74 => some (.bdaj (opOf e last w) (fd w) (fa w))
  | 0x75 => some (.b2d (opOf e last w) (fd w) (fa w))
  | 0x76 => some (.d2b (opOf e last w) (fd w) (fa w))
  | 0x77 => some (.bshl (opOf e last w) (fd w) (fa w) (.reg (fb w)))
  | 0x79 => some (.bshl (opOf e last w) (fd w) (fa w) (.imm (fi w)))
  | 0x78 => some (.bshr (opOf e last w) (fd w) (fa w) (.reg (fb w)))
  | 0x7A => some (.bshr (opOf e last w) (fd w) (fa w) (.imm (fi w)))
  | _ => none

/-- Slot M (Table 04-14). -/
def decM (e : Fin 32) (last : Bool) (w : BitVec 32) : Option Instr :=
  match (fOpc w).toNat with
  | 0x00 => some (.nop e last)
  | 0x03 => some (.ldD (opOf e last w) (fd w) (fa w) (.reg (fb w)))
  | 0x01 => some (.ldD (opOf e last w) (fd w) (fa w) (.imm (fi w)))
  | 0x04 => some (.stD (opOf e last w) (fd w) (fa w) (.reg (fb w)))
  | 0x02 => some (.stD (opOf e last w) (fd w) (fa w) (.imm (fi w)))
  | 0x13 => some (.ldG (opOf e last w) (fd w) (fa w) (.reg (fb w)))
  | 0x11 => some (.ldG (opOf e last w) (fd w) (fa w) (.imm (fi w)))
  | 0x14 => some (.stG (opOf e last w) (fd w) (fa w) (.reg (fb w)))
  | 0x12 => some (.stG (opOf e last w) (fd w) (fa w) (.imm (fi w)))
  | 0x23 => some (.ldi (opOf e last w) (fd w) (fa w) (.reg (fb w)))
  | 0x21 => some (.ldi (opOf e last w) (fd w) (fa w) (.imm (fi w)))
  | 0x33 => some (.inW (opOf e last w) (fd w) (fa w) (.reg (fb w)))
  | 0x31 => some (.inW (opOf e last w) (fd w) (fa w) (.imm (fi w)))
  | 0x34 => some (.outW (opOf e last w) (fd w) (fa w) (.reg (fb w)))
  | 0x32 => some (.outW (opOf e last w) (fd w) (fa w) (.imm (fi w)))
  | 0x35 => some (.inB (opOf e last w) (fd w) (fa w))
  | 0x36 => some (.outB (opOf e last w) (fd w) (fa w))
  | 0x37 => some (.inX (opOf e last w) (fd w) (fa w) (fi w))
  | 0x43 => some (.mbput (opOf e last w) (fd w) (fa w) (.reg (fb w)))
  | 0x41 => some (.mbput (opOf e last w) (fd w) (fa w) (.imm (fi w)))
  | 0x44 => some (.mbget (opOf e last w) (fd w) (fa w) (.reg (fb w)))
  | 0x42 => some (.mbget (opOf e last w) (fd w) (fa w) (.imm (fi w)))
  | 0x45 => some (.mbhdr (opOf e last w) (fd w) (fa w) (fi w))
  | 0x51 => some (.sow (opOf e last w) (fa w) (fb w))
  | _ => none

/-- Slot C without its profile page (Table 04-17). -/
def decC (e : Fin 32) (last : Bool) (t : Instant) (w : BitVec 32) : Option Instr :=
  match (fOpc w).toNat with
  | 0x00 => some (.nop e last)
  | 0x01 => some (.br (opOf e last w) (.bundle (xw w)))
  | 0x04 => some (.br (opOf e last w) (.reg (fa w)))
  | 0x02 => some (.call (opOf e last w) (.bundle (xw w)))
  | 0x05 => some (.call (opOf e last w) (.reg (fa w)))
  | 0x03 => some (.ret (opOf e last w))
  | 0x11 => some (.loop (opOf e last w) (xw w) (.count (xb w)))
  | 0x12 => some (.loop (opOf e last w) (xw w) (.reg (xb w)))
  | 0x20 => some (.eoc (opOf e last w) t)
  | 0x21 => some (.rcl (opOf e last w))
  | 0x22 => some (.cnf (opOf e last w))
  | _ => none

/-- Slot C, profile E (Table 04-18). -/
def decCE (e : Fin 32) (last : Bool) (t : Instant) (w : BitVec 32) : Option Instr :=
  match (fOpc w).toNat with
  | 0x70 => some (.wfe (opOf e last w) (fd w))
  | 0x71 => some (.sev (opOf e last w) t (fd w) (fi w))
  | 0x72 => some (.clev (opOf e last w) (fd w))
  | 0x73 => some (.wtu (opOf e last w) t (fa w) (fi w))
  | _ => none

/-- Slot C, profile D (R141). -/
def decCD (e : Fin 32) (last : Bool) (w : BitVec 32) : Option Instr :=
  match (fOpc w).toNat with
  | 0x70 => some (.dmv (opOf e last w) (fd w) (fa w) (fb w))
  | _ => none

/-! ### Illegal operands (R87) -/

/-- A field that names a pair: even, from 2 to 62 (R77). -/
def pairField (n : RegNo) : Bool := n.toNat % 2 == 0 && n.toNat != 0

/-- Operands that make an assigned opcode illegal: a bit index from 48, a special register from 6, an odd or zero pair. -/
def operandsLegal : Instr → Bool
  | .ldBa _ b | .ldnBa _ b | .andBa _ b | .andnBa _ b | .orBa _ b | .ornBa _ b | .xorBa _ b | .outBit _ b
  | .outnBit _ b | .setBit _ b | .rstBit _ b =>
    match b with
    | .io _ k => decide (k.toNat < 48)
    | .dsp _ k => decide (k.toNat < 48)
  | .red _ _ k | .fed _ _ k => decide (k.toNat < 48)
  | .mfs _ _ _ sr => decide (sr.toNat < 6)
  | .cmpD _ _ a b _ | .tsub _ _ a b | .tcmpLt _ _ a b | .tcmpLe _ _ a b | .tcmpEq _ _ a b => pairField a && pairField b
  | .dadd _ d a b | .dsub _ d a b | .dmul _ d a b | .ddiv _ d a b | .dmin _ d a b | .dmax _ d a b =>
    pairField d && pairField a && pairField b
  | .dabs _ d a | .dneg _ d a | .tadd _ d a _ => pairField d && pairField a
  | .cvtDi _ d _ _ | .cvtSd _ d _ => pairField d
  | .cvtId _ _ a _ | .cvtDs _ _ a => pairField a
  | .sow _ a _ => pairField a
  | _ => true

/-- The opcode of a word in its slot, whatever its operands: `d` is profile D, `t` the instant of issue. Slot C holds `imm`
at 0x60 to 0x6F (R89, R90). -/
def decodeOpcode (e : Fin 32) (last d : Bool) (t : Instant) (sl : Slot) (w : BitVec 32) : Option Instr :=
  let page := (fOpc w).toNat / 16
  match sl with
  | .b => decB e last w
  | .m => decM e last w
  | .a => if page = 7 then (if d then decAD e last w else decAE e last w) else decA e last t w
  | .c =>
    if page = 6 then some (.imm e last (fPi w) (w.extractLsb' 28 4 ++ w.extractLsb' 20 4 ++ w.extractLsb' 0 20))
    else if page = 7 then (if d then decCD e last w else decCE e last t w) else decC e last t w

/-- The operation that 32 bits of a slot stand for; none for an illegal opcode (R87, R99). -/
def decodeOp (e : Fin 32) (last d : Bool) (t : Instant) (sl : Slot) (w : BitVec 32) : Option Instr :=
  match decodeOpcode e last d t sl w with
  | some i => if operandsLegal i then some i else none
  | none => none

/-! ### Encoder -/

/-- The slot and word of an operation, reserved fields zero; none for a command that is no engine operation. -/
def encodeOp : Instr → Option (Slot × BitVec 32)
  | .ldBa o (.io w b) => some (.b, mkX o 0x01 w b)
  | .ldBa o (.dsp w b) => some (.b, mkX o 0x11 w b)
  | .ldnBa o (.io w b) => some (.b, mkX o 0x02 w b)
  | .ldnBa o (.dsp w b) => some (.b, mkX o 0x12 w b)
  | .andBa o (.io w b) => some (.b, mkX o 0x03 w b)
  | .andBa o (.dsp w b) => some (.b, mkX o 0x13 w b)
  | .andnBa o (.io w b) => some (.b, mkX o 0x04 w b)
  | .andnBa o (.dsp w b) => some (.b, mkX o 0x14 w b)
  | .orBa o (.io w b) => some (.b, mkX o 0x05 w b)
  | .orBa o (.dsp w b) => some (.b, mkX o 0x15 w b)
  | .ornBa o (.io w b) => some (.b, mkX o 0x06 w b)
  | .ornBa o (.dsp w b) => some (.b, mkX o 0x16 w b)
  | .xorBa o (.io w b) => some (.b, mkX o 0x07 w b)
  | .xorBa o (.dsp w b) => some (.b, mkX o 0x17 w b)
  | .outBit o (.io w b) => some (.b, mkX o 0x08 w b)
  | .outBit o (.dsp w b) => some (.b, mkX o 0x18 w b)
  | .outnBit o (.io w b) => some (.b, mkX o 0x09 w b)
  | .outnBit o (.dsp w b) => some (.b, mkX o 0x19 w b)
  | .setBit o (.io w b) => some (.b, mkX o 0x0A w b)
  | .setBit o (.dsp w b) => some (.b, mkX o 0x1A w b)
  | .rstBit o (.io w b) => some (.b, mkX o 0x0B w b)
  | .rstBit o (.dsp w b) => some (.b, mkX o 0x1B w b)
  | .push o => some (.b, mkR o 0x20 0 0 0 0)
  | .popa o => some (.b, mkR o 0x21 0 0 0 0)
  | .popo o => some (.b, mkR o 0x22 0 0 0 0)
  | .notba o => some (.b, mkR o 0x23 0 0 0 0)
  | .red o w b => some (.b, mkX o 0x24 w b)
  | .fed o w b => some (.b, mkX o 0x25 w b)
  | .ba2p o d => some (.b, mkR o 0x26 d 0 0 0)
  | .p2ba o a => some (.b, mkR o 0x27 0 a 0 0)
  | .andp o a => some (.b, mkR o 0x28 0 a 0 0)
  | .orp o a => some (.b, mkR o 0x29 0 a 0 0)
  | .ton o a b m => some (.b, mkR o 0x30 0 a b m)
  | .tof o a b m => some (.b, mkR o 0x31 0 a b m)
  | .tp o a b m => some (.b, mkR o 0x32 0 a b m)
  | .ctu o a b => some (.b, mkR o 0x34 0 a b 0)
  | .ctd o a b => some (.b, mkR o 0x35 0 a b 0)
  | .cld o a b => some (.b, mkR o 0x36 0 a b 0)
  | .add o d a (.reg b) => some (.a, mkR o 0x01 d a b 0)
  | .add o d a (.imm i) => some (.a, mkI o 0x21 d a i)
  | .sub o d a (.reg b) => some (.a, mkR o 0x02 d a b 0)
  | .sub o d a (.imm i) => some (.a, mkI o 0x22 d a i)
  | .and o d a (.reg b) => some (.a, mkR o 0x03 d a b 0)
  | .and o d a (.imm i) => some (.a, mkI o 0x23 d a i)
  | .or o d a (.reg b) => some (.a, mkR o 0x04 d a b 0)
  | .or o d a (.imm i) => some (.a, mkI o 0x24 d a i)
  | .xor o d a (.reg b) => some (.a, mkR o 0x05 d a b 0)
  | .xor o d a (.imm i) => some (.a, mkI o 0x25 d a i)
  | .andn o d a b => some (.a, mkR o 0x06 d a b 0)
  | .adds o d a b m => some (.a, mkR o 0x07 d a b m)
  | .subs o d a b m => some (.a, mkR o 0x08 d a b m)
  | .min o d a (.reg b) m => some (.a, mkR o 0x09 d a b m)
  | .min o d a (.imm i) _ => some (.a, mkI o 0x2D d a i)
  | .max o d a (.reg b) m => some (.a, mkR o 0x0A d a b m)
  | .max o d a (.imm i) _ => some (.a, mkI o 0x2E d a i)
  | .sel o d a b => some (.a, mkR o 0x0B d a b 0)
  | .abs o d a => some (.a, mkR o 0x0C d a 0 0)
  | .not o d a => some (.a, mkR o 0x0D d a 0 0)
  | .cnt o d a => some (.a, mkR o 0x0E d a 0 0)
  | .clz o d a => some (.a, mkR o 0x0F d a 0 0)
  | .shl o d a (.reg b) => some (.a, mkR o 0x10 d a b 0)
  | .shl o d a (.imm i) => some (.a, mkI o 0x26 d a i)
  | .shr o d a (.reg b) => some (.a, mkR o 0x11 d a b 0)
  | .shr o d a (.imm i) => some (.a, mkI o 0x27 d a i)
  | .sar o d a (.reg b) => some (.a, mkR o 0x12 d a b 0)
  | .sar o d a (.imm i) => some (.a, mkI o 0x28 d a i)
  | .rol o d a (.reg b) => some (.a, mkR o 0x13 d a b 0)
  | .rol o d a (.imm i) => some (.a, mkI o 0x29 d a i)
  | .ror o d a (.reg b) => some (.a, mkR o 0x14 d a b 0)
  | .ror o d a (.imm i) => some (.a, mkI o 0x2A d a i)
  | .ext o d a (.reg b) m => some (.a, mkR o 0x15 d a b m)
  | .ext o d a (.imm i) _ => some (.a, mkI o 0x2B d a i)
  | .ins o d a (.reg b) => some (.a, mkR o 0x16 d a b 0)
  | .ins o d a (.imm i) => some (.a, mkI o 0x2C d a i)
  | .mfs o _ d a => some (.a, mkR o 0x1F d a 0 0)
  | .mov o d i => some (.a, mkI o 0x20 d 0 i)
  | .cmpEq o d a (.reg b) => some (.a, mkR o 0x30 d a b 0)
  | .cmpEq o d a (.imm i) => some (.a, mkI o 0x38 d a i)
  | .cmpNe o d a (.reg b) => some (.a, mkR o 0x31 d a b 0)
  | .cmpNe o d a (.imm i) => some (.a, mkI o 0x39 d a i)
  | .cmpLt o d a (.reg b) => some (.a, mkR o 0x32 d a b 0)
  | .cmpLt o d a (.imm i) => some (.a, mkI o 0x3A d a i)
  | .cmpLe o d a (.reg b) => some (.a, mkR o 0x33 d a b 0)
  | .cmpLe o d a (.imm i) => some (.a, mkI o 0x3B d a i)
  | .cmpLtu o d a (.reg b) => some (.a, mkR o 0x34 d a b 0)
  | .cmpLtu o d a (.imm i) => some (.a, mkI o 0x3E d a i)
  | .cmpLeu o d a b => some (.a, mkR o 0x35 d a b 0)
  | .cmpF o d a b m => some (.a, mkR o 0x36 d a b m)
  | .cmpD o d a b m => some (.a, mkR o 0x37 d a b m)
  | .cmpGt o d a i => some (.a, mkI o 0x3C d a i)
  | .cmpGe o d a i => some (.a, mkI o 0x3D d a i)
  | .cmpGtu o d a i => some (.a, mkI o 0x3F d a i)
  | .mul o d a (.reg b) => some (.a, mkR o 0x40 d a b 0)
  | .mul o d a (.imm i) => some (.a, mkI o 0x43 d a i)
  | .mulh o d a b => some (.a, mkR o 0x41 d a b 0)
  | .mulhU o d a b => some (.a, mkR o 0x42 d a b 0)
  | .div o d a b => some (.a, mkR o 0x44 d a b 0)
  | .divU o d a b => some (.a, mkR o 0x45 d a b 0)
  | .rem o d a b => some (.a, mkR o 0x46 d a b 0)
  | .remU o d a b => some (.a, mkR o 0x47 d a b 0)
  | .fadd o d a b => some (.a, mkR o 0x50 d a b 0)
  | .fsub o d a b => some (.a, mkR o 0x51 d a b 0)
  | .fmul o d a b => some (.a, mkR o 0x52 d a b 0)
  | .fdiv o d a b => some (.a, mkR o 0x53 d a b 0)
  | .fmin o d a b => some (.a, mkR o 0x54 d a b 0)
  | .fmax o d a b => some (.a, mkR o 0x55 d a b 0)
  | .fabs o d a => some (.a, mkR o 0x56 d a 0 0)
  | .fneg o d a => some (.a, mkR o 0x57 d a 0 0)
  | .cvtFi o d a m => some (.a, mkR o 0x58 d a 0 m)
  | .cvtIf o d a m => some (.a, mkR o 0x59 d a 0 m)
  | .dadd o d a b => some (.a, mkR o 0x60 d a b 0)
  | .dsub o d a b => some (.a, mkR o 0x61 d a b 0)
  | .dmul o d a b => some (.a, mkR o 0x62 d a b 0)
  | .ddiv o d a b => some (.a, mkR o 0x63 d a b 0)
  | .dmin o d a b => some (.a, mkR o 0x64 d a b 0)
  | .dmax o d a b => some (.a, mkR o 0x65 d a b 0)
  | .dabs o d a => some (.a, mkR o 0x66 d a 0 0)
  | .dneg o d a => some (.a, mkR o 0x67 d a 0 0)
  | .cvtDi o d a m => some (.a, mkR o 0x68 d a 0 m)
  | .cvtId o d a m => some (.a, mkR o 0x69 d a 0 m)
  | .cvtSd o d a => some (.a, mkR o 0x6A d a 0 0)
  | .cvtDs o d a => some (.a, mkR o 0x6B d a 0 0)
  | .tadd o d a b => some (.a, mkR o 0x70 d a b 0)
  | .tsub o d a b => some (.a, mkR o 0x71 d a b 0)
  | .tcmpLt o d a b => some (.a, mkR o 0x72 d a b 0)
  | .tcmpLe o d a b => some (.a, mkR o 0x73 d a b 0)
  | .tcmpEq o d a b => some (.a, mkR o 0x74 d a b 0)
  | .badd o d a b => some (.a, mkR o 0x70 d a b 0)
  | .bsub o d a b => some (.a, mkR o 0x71 d a b 0)
  | .bcy o d a b => some (.a, mkR o 0x72 d a b 0)
  | .bbw o d a b => some (.a, mkR o 0x73 d a b 0)
  | .bdaj o d a => some (.a, mkR o 0x74 d a 0 0)
  | .b2d o d a => some (.a, mkR o 0x75 d a 0 0)
  | .d2b o d a => some (.a, mkR o 0x76 d a 0 0)
  | .bshl o d a (.reg b) => some (.a, mkR o 0x77 d a b 0)
  | .bshl o d a (.imm i) => some (.a, mkI o 0x79 d a i)
  | .bshr o d a (.reg b) => some (.a, mkR o 0x78 d a b 0)
  | .bshr o d a (.imm i) => some (.a, mkI o 0x7A d a i)
  | .ldD o d a (.reg b) => some (.m, mkR o 0x03 d a b 0)
  | .ldD o d a (.imm i) => some (.m, mkI o 0x01 d a i)
  | .stD o d a (.reg b) => some (.m, mkR o 0x04 d a b 0)
  | .stD o d a (.imm i) => some (.m, mkI o 0x02 d a i)
  | .ldG o d a (.reg b) => some (.m, mkR o 0x13 d a b 0)
  | .ldG o d a (.imm i) => some (.m, mkI o 0x11 d a i)
  | .stG o d a (.reg b) => some (.m, mkR o 0x14 d a b 0)
  | .stG o d a (.imm i) => some (.m, mkI o 0x12 d a i)
  | .ldi o d a (.reg b) => some (.m, mkR o 0x23 d a b 0)
  | .ldi o d a (.imm i) => some (.m, mkI o 0x21 d a i)
  | .inW o d a (.reg b) => some (.m, mkR o 0x33 d a b 0)
  | .inW o d a (.imm i) => some (.m, mkI o 0x31 d a i)
  | .outW o d a (.reg b) => some (.m, mkR o 0x34 d a b 0)
  | .outW o d a (.imm i) => some (.m, mkI o 0x32 d a i)
  | .inB o d a => some (.m, mkR o 0x35 d a 0 0)
  | .outB o d a => some (.m, mkR o 0x36 d a 0 0)
  | .inX o d a i => some (.m, mkI o 0x37 d a i)
  | .mbput o d a (.reg b) => some (.m, mkR o 0x43 d a b 0)
  | .mbput o d a (.imm i) => some (.m, mkI o 0x41 d a i)
  | .mbget o d a (.reg b) => some (.m, mkR o 0x44 d a b 0)
  | .mbget o d a (.imm i) => some (.m, mkI o 0x42 d a i)
  | .mbhdr o d a i => some (.m, mkI o 0x45 d a i)
  | .sow o a b => some (.m, mkR o 0x51 0 a b 0)
  | .br o (.bundle t) => some (.c, mkX o 0x01 t 0)
  | .br o (.reg a) => some (.c, mkR o 0x04 0 a 0 0)
  | .call o (.bundle t) => some (.c, mkX o 0x02 t 0)
  | .call o (.reg a) => some (.c, mkR o 0x05 0 a 0 0)
  | .ret o => some (.c, mkR o 0x03 0 0 0 0)
  | .loop o t (.count k) => some (.c, mkX o 0x11 t k)
  | .loop o t (.reg a) => some (.c, mkX o 0x12 t a)
  | .eoc o _ => some (.c, mkR o 0x20 0 0 0 0)
  | .rcl o => some (.c, mkR o 0x21 0 0 0 0)
  | .cnf o => some (.c, mkR o 0x22 0 0 0 0)
  | .wfe o d => some (.c, mkI o 0x70 d 0 0)
  | .sev o _ d i => some (.c, mkI o 0x71 d 0 i)
  | .clev o d => some (.c, mkI o 0x72 d 0 0)
  | .wtu o _ a i => some (.c, mkI o 0x73 0 a i)
  | .dmv o d a b => some (.c, mkR o 0x70 d a b 0)
  | .imm _ _ sx x => some (.c, x.extractLsb' 24 4 ++ BitVec.ofBool sx ++ (0b110 : BitVec 3) ++ x.extractLsb' 20 4 ++ x.extractLsb' 0 20)
  | _ => none

/-- Whether an operation belongs to profile D or E alone: some true for D, some false for E, none for both. -/
def profileOnly : Instr → Option Bool
  | .tadd .. | .tsub .. | .tcmpLt .. | .tcmpLe .. | .tcmpEq .. | .wfe .. | .sev .. | .clev .. | .wtu .. => some false
  | .badd .. | .bsub .. | .bcy .. | .bbw .. | .bdaj .. | .b2d .. | .d2b .. | .bshl .. | .bshr .. | .dmv .. => some true
  | _ => none

/-- The engine, place in the bundle and instant that an operation carries beside its word. -/
def carried : Instr → Instant
  | .mfs _ t _ _ => t
  | .eoc _ t => t
  | .sev _ t _ _ => t
  | .wtu _ t _ _ => t
  | _ => 0

end Sys2Proof
end

