-- ==== Sys2Proof/Data/Engine.lean ====
section
/-! DEFINITION. State of one engine work: the architectural state of Table 03-1, results in flight, the bundle being
issued, the ledger and the undo buffer (03, 05). -/

namespace Sys2Proof

/-- A destination of a result (R107). -/
inductive Dest where
  | g (n : Nat) | p (n : Nat) | ba
  deriving DecidableEq, Repr, Inhabited

/-- A result in flight: the issued-bundle index at which it is first visible (R101). -/
structure Flight where
  due  : Nat
  dest : Dest
  val  : Word
  deriving DecidableEq, Repr, Inhabited

/-- One hardware-loop level: first and last bundle of the body, remaining count (R134). -/
structure LoopLvl where
  start : Nat
  stop  : Nat
  count : Nat
  deriving DecidableEq, Repr, Inhabited

/-- Architectural state of an engine (Table 03-1), special registers apart, with the running control-flow signature
(R143). `g` reads zero where nothing is listed; the newest entry of a stack is first; the inner loop is first. -/
structure Arch where
  g     : WMem
  p     : BitVec 16
  ba    : Bool
  rung  : List Bool
  ret   : List Nat
  loops : List LoopLvl
  pc    : Nat
  sig   : Nat
  deriving DecidableEq, Repr, Inhabited

/-- The state of R76: everything zero or empty, PC at the entry point. -/
def Arch.entry (pc : Nat) : Arch := ⟨[], 0, false, [], [], [], pc, 0⟩

/-- A ledger slot (Table 05-2). -/
structure LedgerSlot where
  arch : Arch
  isb  : Nat
  swn  : Nat
  ent  : Bool
  msn  : Nat
  deriving DecidableEq, Repr, Inhabited

/-- An undo entry (Tables 05-3 and 05-4). -/
inductive Undo where
  | dword (a : Nat) (old : Word)
  | gword (a : Nat) (old : Word)
  | ioword (a : Nat) (old : Word)
  | sent (e mask : Nat)
  | consumed (e : Nat)
  | cleared (e : Nat) (old : Bool)
  | mark (off : Nat)
  deriving DecidableEq, Repr, Inhabited

/-- Program faults of Table 03-15. -/
inductive ProgFault where
  | illegalOpcode | writeCollision | divideByZero | ownership
  deriving DecidableEq, Repr, Inhabited

/-- A scheduled output write (R132): instant T truncated to 25 ns, kind (true = AO), channel, value, class, order of
recording and the muster of its cycle. -/
structure Sched where
  t    : Instant
  ao   : Bool
  ch   : Nat
  val  : Nat
  cls  : Nat
  work : Nat
  m    : Instant
  deriving DecidableEq, Repr, Inhabited

/-- What one operation of the open bundle will do when the bundle issues. -/
inductive Eff where
  | res (d : Dest) (dist : Nat) (v : Word)
  | dmem (a : Nat) (v : Word)
  | gmem (a : Nat) (v : Word)
  | io (a : Nat) (v : Word)
  | mbMark (off : Nat)
  | sched (s : Sched)
  | push
  | pop
  | rcl
  | cnf
  | sev (t : Instant) (e mask : Nat)
  | clev (e : Nat)
  deriving DecidableEq, Repr, Inhabited

/-- The control operation of the open bundle. -/
inductive Ctl where
  | branch (dst : Option Nat)
  | callTo (dst : Option Nat)
  | retTo (taken : Bool)
  | loopTo (stop count : Nat)
  | endCycle (t : Instant)
  | waitEvent (e : Nat)
  | waitTk (tk now : Int)
  deriving DecidableEq, Repr, Inhabited

/-- The bundle whose operations are being commanded (log 4); `used` are the slots that hold one, the latest first. -/
structure OpenBundle where
  effs  : List Eff
  ctl   : Option Ctl
  imm   : Option (Bool × BitVec 28)
  fault : Option ProgFault
  used  : List Slot
  deriving DecidableEq, Repr, Inhabited

/-- Whether and why a work issues (R102, R54, R28); `mismatch` once a signature check has failed, until its engine has abdicated (R144). -/
inductive Run where
  | idle
  | issuing
  | waitEvent (e : Nat)
  | waitTk (tk : Int)
  | done
  | faulted (f : ProgFault)
  | mismatch
  | teamHeld
  | abdicated
  deriving DecidableEq, Repr, Inhabited

/-- A work: the task-class membership, stacks, ledger and undo buffer of an engine position (05, opening). `saved` is the
run state that a team hold interrupts; `ended` the bundle that issued last in this cycle, since its snapshot. `bundleAtFault` is the number of bundles issued at the fault (Δ, R159). -/
structure Work where
  arch     : Arch
  flights  : List Flight
  issued   : Nat
  sinceMs  : Nat
  delay    : Nat
  target   : Option Nat
  bundle   : OpenBundle
  run      : Run
  saved    : Run
  flags    : NMem
  undo     : List Undo
  slot0    : LedgerSlot
  slot1    : LedgerSlot
  sup      : List (Nat × Nat)
  prf      : Nat
  eidCls   : Nat
  eidMix   : Nat
  faultAt  : Instant
  atFault  : Nat
  lastGst  : Option Nat
  ended    : Option Nat
  deriving DecidableEq, Repr, Inhabited

/-- An event sent by sev that has not arrived (R138): target work, event, arrival instant. -/
structure EventInFlight where
  target : Nat
  event  : Nat
  at_    : Instant
  deriving DecidableEq, Repr, Inhabited

end Sys2Proof
end

