-- ==== Sys2Proof/Data/Image.lean ====
section
/-! DEFINITION. What an image says once it has been read: classes, placements, code and initial data, edit and migration
tables, publications (02, 03, 07, 10), and the measurement configuration (08). The byte format of an image body is the
toolchain's; the reading of it is a free function of Config (log 7). -/

namespace Sys2Proof

/-- Where the image places an input item (R96): first I/O word, source, number of words. -/
structure Place where
  addr  : Nat
  src   : ItemSrc
  words : Nat
  deriving DecidableEq, Repr, Inhabited

/-- Words of a placement: that of grid samples holds the 128 that one muster can bring (R225). -/
def placeLen (p : Place) : Nat := if p.src.isSamples then 128 else p.words

/-- A mailbox (R131): first word and length in words. -/
structure Mailbox where
  base  : Nat
  words : Nat
  deriving DecidableEq, Repr, Inhabited

/-- A remote module of a class (R51, R52): its record words, age stamp words, maximum age in ms. -/
structure RemoteMod where
  module : Nat
  addr   : Nat
  words  : Nat
  ageAddr : Nat
  maxAge : Nat
  deriving DecidableEq, Repr, Inhabited

/-- A task class as its image gives it (R39, R41, R43, R55, R62, R63, R93). -/
structure ClsCfg where
  num     : Nat
  members : Nat
  period  : Nat
  phase   : Nat
  offset  : Nat
  overrun : Nat
  auto    : Bool
  foc     : Bool
  det     : Bool
  profD   : Bool
  dzt     : Nat
  entries : List Nat
  part    : List (Nat × Nat)
  retained : List (Nat × Nat)
  rollCall : Option (Nat × Nat × Nat)
  owned   : List Nat
  initial : WMem
  inputs  : List Place
  doOut   : List (Nat × Nat × Nat)
  aoOut   : List (Nat × Nat)
  boxes   : List Mailbox
  remote  : List RemoteMod
  motion  : Option (Nat × Nat)
  trigger : Option (Nat × Nat)
  pageReq : Option (Nat × Nat)
  deriving DecidableEq, Repr, Inhabited

/-- Target of an edit entry (R198); `pos` is an engine number. -/
inductive EditTarget where
  | dWord (pos a : Nat)
  | gWord (a : Nat)
  | imm8 (pos bundle : Nat) (slotM : Bool)
  | immX (pos bundle : Nat)
  deriving DecidableEq, Repr, Inhabited

/-- An edit entry of a region (R198, R199): k of its index, class, type code, range as the type's numbers. -/
structure EditEntry where
  k      : Nat
  cls    : Nat
  typ    : Nat
  min    : Nat
  max    : Nat
  target : EditTarget
  deriving DecidableEq, Repr, Inhabited

/-- An export (R198). -/
structure ExportEntry where
  k    : Nat
  cls  : Nat
  typ  : Nat
  addr : Nat
  deriving DecidableEq, Repr, Inhabited

/-- A migration entry (R216). -/
structure MigEntry where
  src : Nat
  cnt : Nat
  dst : Nat
  deriving DecidableEq, Repr, Inhabited

/-- A GOOSE dataset published (R290): number, owner, buses, member words, test bit place. -/
structure GooseCfg where
  num     : Nat
  cls     : Nat
  station : Bool
  process : Bool
  members : List Nat
  testBit : Option (Nat × Nat)
  deriving DecidableEq, Repr, Inhabited

/-- A GOOSE subscription (R292, R293): number, what the filter matches on, configuration revision, simulation, members. -/
structure GooseSub where
  num     : Nat
  dst     : Nat
  appId   : Nat
  cbRef   : List Byte
  confRev : Nat
  sim     : Bool
  members : Nat
  initial : List Word
  deriving DecidableEq, Repr, Inhabited

/-- A CAN receive or transmit object (R305): port, number, identifier with its format, and mask; for a transmit object its owner and the
I/O words it carries. -/
structure CanObj where
  port  : Nat
  num   : Nat
  ext   : Bool
  ident : Nat
  mask  : Nat
  cls   : Nat
  words : List Nat
  deriving DecidableEq, Repr, Inhabited

/-- An application image of one region. Engine positions of `code` and `dInit` are engine numbers. `checks` are the check
points of a position with their expected signatures (R143), `points` its milestone points (R146). A migration table is its words (R216). -/
structure AppImage where
  interval : Nat
  classes  : List ClsCfg
  code     : List (Nat × NMem)
  dInit    : List (Nat × WMem)
  mInit    : WMem
  edits    : List EditEntry
  exports  : List ExportEntry
  migFwd   : List Word
  migRev   : List Word
  goose    : List GooseCfg
  subs     : List GooseSub
  canRx    : List CanObj
  canTx    : List CanObj
  checks   : List (Nat × List (Nat × Nat))
  points   : List (Nat × List Nat)
  deriving DecidableEq, Repr, Inhabited

/-- A local channel of the measurement configuration (Table 08-13). -/
structure ChanCfg where
  range   : Nat
  sensor  : Nat
  scale   : BitVec 32
  phase   : Int
  stage1  : Nat
  stage2  : Nat
  deriving DecidableEq, Repr, Inhabited

/-- A subscribed stream (Table 08-14), with what the frame filter matches on (R231). -/
structure StreamCfg where
  num   : Nat
  dst   : Nat
  appId : Nat
  svId  : List Byte
  rate  : Nat
  asdus : Nat
  shift : Nat
  local_ : Bool
  deriving DecidableEq, Repr, Inhabited

/-- A computed set (Table 08-15, 0x2700+s.09). -/
structure SetCfg where
  source  : Nat
  wiring  : Nat
  ratedU  : BitVec 32
  ratedI  : BitVec 32
  seq     : Nat
  revThr  : BitVec 32
  revDelay : Nat
  neutThr : BitVec 32
  phasor  : Nat
  modes   : Nat
  deriving DecidableEq, Repr, Inhabited

/-- A measurement configuration image (08). -/
structure MeasImage where
  inUse    : Nat
  nominal  : Nat
  chans    : List ChanCfg
  streams  : List StreamCfg
  sets     : List SetCfg
  rotate   : Bool
  pubs     : List (Nat × Nat)
  capChans : List Nat
  pre      : Nat
  post     : Nat
  decimate : Bool
  evTrig   : Nat
  deriving DecidableEq, Repr, Inhabited

end Sys2Proof
end

