-- ==== Sys2Proof/Data/Chip.lean ====
section
/-! DEFINITION. State of every other unit of the chip: classes, regions, the pair, updates, measurement, field die,
networks and time, dictionary sessions, parameter store, recorder, calendar, watchdog, panel, power. Registers of the
object dictionary stand in one register file (`Chip.regs`); what stands here is the state behind them. -/

namespace Sys2Proof

/-! ### Task classes (02) -/

/-- The cycle a class executes (R53, R54): its muster and time pair, dispatch instant, members done, instant of the last
eoc, sealed, working values, mailbox marks, roll-call and confirmation marks, scheduled writes recorded. -/
structure Cycle where
  m      : Instant
  mPair  : TimePair
  d      : Instant
  cy     : Nat
  done   : Nat
  eocAt  : Option Instant
  sealed : Bool
  work   : List (Nat × Word)
  marks  : List Nat
  rcl    : Bool
  cnf    : Bool
  sched  : List Sched
  deriving DecidableEq, Repr, Inhabited

/-- A program fault held for the check of R28: faulting work, fault, CY, PC, and its detection. -/
structure HeldFault where
  work  : Nat
  fault : ProgFault
  cy    : Nat
  pc    : Nat
  t     : Instant
  deriving DecidableEq, Repr, Inhabited

/-- What a class had published before its latest dispatch (R57): a muster that lies before that dispatch still reads it. -/
structure PrevPub where
  before : Instant
  pub    : WMem
  undisp : List Nat
  stopAt : Option Instant
  kept   : List (Nat × Instant)
  boxFr  : List Nat
  boxCy  : Nat
  boxOld : List (Nat × Nat)
  deriving DecidableEq, Repr, Inhabited

/-- Run-time state of a task class. Its state code, CY and counters are registers of index 0x2210 + n. `cycle` is the cycle
that has been released and not dispatched; `skipAt` the release that an overrun skips; `safeAt` the dispatch instant at which
the owned outputs go to their safe state; `notBefore` the earliest muster of the first release after a start; `stopAt` the stop
instant of R32 while it counts. `img` is the frozen image; `imgQ` holds at key a the quality of image word a, and at key
2^20 + a the quality that the item placed at a brought. `items` have reached the region port and wait for a muster. `pub` is the
value each owned word was last dispatched with, `undisp` the owned words that have no such value yet (R57, R215), `kept`
those taken over at an activation from a class that had stopped, with its stop instant (R215); `boxFr` and `boxCy` are mailbox marks and CY of that dispatch, `boxOld` the CY of
the mailboxes, by base, whose values an old class dispatched (R131, R215); `hdrs` the
mailbox headers frozen at the muster; `prev` what stood before the latest dispatch; `stopBy` the fences that stopped the class in state
6 (R69); `own`, `ownQ` and `ownM` the image that a standby forms from its own items beside the one it executes from, with its muster
(R184). -/
structure Cls where
  cfg      : Option ClsCfg
  cycle    : Option Cycle
  skipAt : Option Instant
  safeAt   : Option Instant
  notBefore : Instant
  everDisp : Bool
  undisp   : List Nat
  stopAt   : Option Instant
  kept     : List (Nat × Instant)
  img      : WMem
  imgQ     : NMem
  items    : List Item
  lastM    : Option Instant
  pub      : WMem
  boxFr    : List Nat
  boxCy    : Nat
  boxOld   : List (Nat × Nat)
  hdrs     : WMem
  held     : Option HeldFault
  prev     : Option PrevPub
  stopBy   : List StopFence
  own      : WMem
  ownQ     : NMem
  ownM     : Option Instant
  deriving DecidableEq, Repr, Inhabited

/-! ### Regions (05, 07) -/

/-- A test of a fenced silicon that waits or runs (R165, R168): how it returns on a pass. -/
inductive TestKind where
  | asRelief | ownPosition | inPlace | reliefPass
  deriving DecidableEq, Repr, Inhabited

/-- Relief work of a region: the work it attaches to, whether memory was rolled back (R156) or the entry milestone is used
(R161, R162), the fault's detail (Table 05-10). -/
structure Attach where
  work   : Nat
  silFailed : Nat
  src    : Nat
  undone : Nat
  entry  : Bool
  faultAt : Instant
  deriving DecidableEq, Repr, Inhabited

/-- A word that lost its class at an activation (R215): its last dispatched value, whether it had one, the stop instant its quality counts from, the
instant from which it is Held, and its mailbox: base, class, FR and CY. -/
structure Orphan where
  addr   : Nat
  val    : Word
  undisp : Bool
  stop   : Option Instant
  held   : Instant
  box    : Option (Nat × Nat × Bool × Nat)
  deriving DecidableEq, Repr, Inhabited

/-- Run-time state of a region: its image, queued edits and commands (R48), silicon tests, attachment, planned swap, pause
of an activation, words that lost their owner at one (R215). A test carries whether a write of 0x2300.30 asked for it; `banks` are the
fenced banks by position and kind. The work map and relief state are registers. -/
structure Region where
  image   : Option AppImage
  gmem    : WMem
  queue   : List Queued
  editAt  : NMem
  attach  : Option Attach
  tests   : List (Nat × TestKind × Bool)
  banks   : List (Nat × BankKind)
  swap    : Option (Nat × Bool)
  paused  : Bool
  orphans : List Orphan
  taken   : List Queued
  takenAt : Instant
  deriving DecidableEq, Repr, Inhabited

/-! ### The pair (06) -/

/-- A seal received for a muster of a class (R180, R182). -/
structure SealRx where
  e       : SealEntry
  arrived : Instant
  ok      : Bool
  deriving DecidableEq, Repr, Inhabited

/-- The Onbex frames the device sends (Table 06-2). -/
inductive OnbexOut where
  | heartbeat (state : Nat) (sideB : Bool) (sent began : TimePair)
  | caps (p : Caps)
  | nak (first : Nat)
  | item (cls : Nat) (i : Item)
  | edit (q : Queued)
  | cmd (f : FwdCmd)
  | seal (es : List SealEntry)
  | accum (accs : List (List Int))
  | hash (h : Nat) (d : TimePair)
  | state (sp : PageSpace) (page : Nat) (words : List Word)
  | stateEnd (cls : Option Nat)
  | abdicate (cause : Nat)
  | roleRequest
  | roleGrant (th : Instant)
  | fence (cause : Nat)
  deriving DecidableEq, Repr, Inhabited

/-- One originator's executed-command set (R195): identity, highest executed number, executed numbers with their results
(0 success, or the abort code), muster instant of the latest execution. -/
structure Originator where
  id      : Nat
  highest : Nat
  window  : List (Nat × Nat)
  latest  : Instant
  deriving DecidableEq, Repr, Inhabited

/-- State of pair operation. Codes and counters are registers of index 0x2400. `missing` are the link sequence numbers asked for
again, `resent` those last sent again; `hbSent` the last HEARTBEAT with its LSN; `cmdParts` what CMD frames have brought of values too
long for one frame, by originator and number; `heldFrames` the dispatches whose GOOSE frames wait for
their hash, by the time pair of D and class; `sealNow` the entries of the SEAL frame of the muster being taken; `lost` that a frame was
lost for good in hot shadow (R177); `synced` the classes whose copy has ended, on the chip that copies and on the chip that is copied to; `heldRel` releases a
standby holds; `discr` for a source (`discrKey`) 0, 1 once reported, or 2 and the instant since which its values differ. -/
structure Pair where
  inForce   : Bool
  sideB     : Bool
  began     : Instant
  baton     : Bool
  released  : Bool
  listenOnly : Bool
  lsnOut    : Nat
  lsnIn     : Option Nat
  missing   : List Nat
  resent    : List Nat
  hbSent    : Option (Instant × Nat × OnbexOut)
  store     : List (Nat × OnbexOut)
  capsSeen  : Option Caps
  capsEqual : Bool
  synced    : List Nat
  sharedSynced : Bool
  abandoned : Nat
  lastHb    : Option Instant
  partnerBegan : Instant
  partnerSideB : Bool
  seals     : List SealRx
  heldRel   : List (Nat × Instant)
  ownHash   : List (Instant × Nat)
  partnerHash : List (Instant × Nat)
  heldFrames : List (TimePair × Nat)
  grant     : Option Instant
  grantCause : Nat
  asked     : Bool
  fencedBy  : Nat
  joinedAt  : Instant
  readySince : Option Instant
  origs     : List Originator
  cmdParts  : List (Nat × Nat × List Byte)
  fwdItems  : List (Nat × Item)
  pages     : List (PageSpace × Nat)
  copying   : Bool
  discr     : NMem
  sealNow   : List SealEntry
  lost      : Bool
  deriving DecidableEq, Repr, Inhabited

/-! ### Updates (07) -/

/-- Fields of an accepted header (Table 07-3). -/
structure Header where
  magic : Nat
  typ   : Nat
  hver  : Nat
  part  : Nat
  step  : Nat
  rmask : Nat
  key   : Nat
  ver   : Nat
  arc   : Nat
  len   : Nat
  hash  : Nat
  migN  : Nat
  migR  : Nat
  deriving DecidableEq, Repr, Inhabited

/-- An update target (R206). State, banks and versions are registers of index 0x2510 + t. `wasRunning`, `isFallback` and the lost outputs
are those of the activation whose pause runs (R214, R215); `swapDue` that the MSS of a standby, once back, asks for the planned swap, and on an
active that this swap has been asked for (R221). -/
structure Target' where
  head     : Option Header
  body     : List Byte
  lastBody : Instant
  app      : Option AppImage
  prevApp  : Option AppImage
  meas     : Option MeasImage
  prevMeas : Option MeasImage
  ta       : Option Instant
  arcNew   : Nat
  trialEnd : Option Instant
  fallAt   : Option Instant
  resumeAt : Option Instant
  wasRunning : Nat
  isFallback : Bool
  lostDo   : List Nat
  lostAo   : List Nat
  hash     : Nat
  otherHash : Nat
  swapDue  : Bool
  deriving DecidableEq, Repr, Inhabited

/-! ### Measurement (08) -/

/-- Local channel: recent 64 kHz samples (stamp, value), Questionable after a discarded calibration, CHG due, whether the grid takes the
calibration channel's samples, latest grid word, gain and offset by temperature band (R230), latest grid words by instant. -/
structure Chan where
  recent  : List (Instant × Int)
  calBad  : Bool
  chg     : Bool
  fromCal : Bool
  word    : Word
  coefs   : List (BitVec 32 × Int)
  past    : List (Instant × Word)
  deriving DecidableEq, Repr, Inhabited

/-- Stream: samples received (sample number, values, quality codes; the sample instant is the number over the rate), run of missing grid
instants, whether the stream is aligned, latest words, sample numbers skipped that may still come (R235), the highest sample number seen. -/
structure Stream where
  samples : List (Instant × List Int × List Nat)
  missing : Nat
  aligned : Bool
  words   : List Word
  gaps    : List Nat
  newest  : Nat
  deriving DecidableEq, Repr, Inhabited

/-- One event of Table 08-9 in its delay: windows or nanoseconds so far, active. -/
structure EvRun where
  run    : Nat
  active : Bool
  deriving DecidableEq, Repr, Inhabited

/-- An aggregation interval: windows since its last end, their grid samples, the last end, by quantity the lowest-ranked quality and the
sum over the windows (of squares for the magnitudes), the cycles counted, and whether it holds a dip, swell or interruption (R240). -/
structure Agg where
  count : Nat
  dur   : Nat
  last  : Instant
  qcs   : List Nat
  sums  : List Rat
  cyc   : Rat
  flag  : Bool
  deriving DecidableEq, Repr, Inhabited

/-- A computed set: start grid instant and length of the current window, samples gathered (by grid instant the 4 voltages and 4
currents with their qualities), length of the window before, frequency estimate in Hz with its quality and hold start, angles of the
positive-sequence voltage and current at the start of the window before (units of 2^-48 turn), what the latest estimate came from (0 voltage,
1 current, 2 held), results by quantity, time pairs of the last window end and
reporting instant, aggregation intervals, accumulators and fractions, accumulators to reset, whether results carry Questionable until a
full window, events, values and qualities of the latest second of grid instants. -/
structure MSet where
  n0      : Option Instant
  len     : Nat
  samples : List (List (Int × Nat))
  prevLen : Nat
  freq    : Rat
  freqQ   : Nat
  heldAt  : Instant
  angU    : Option Int
  angI    : Option Int
  results : WMem
  endPair : TimePair
  phPair  : TimePair
  aggs    : List Agg
  acc     : List Int
  frac    : List Nat
  resets  : Nat
  fresh   : Bool
  seqRun  : EvRun
  neutRun : EvRun
  revRun  : EvRun
  freqBy  : Nat
  hist    : List (Instant × List (Int × Nat))
  deriving DecidableEq, Repr, Inhabited

/-- A waveform capture: number, lock, trigger's grid instant and source, channels, lengths in ms, decimated, retriggers, samples (R247,
R248). -/
structure Capture where
  num     : Nat
  locked  : Bool
  trigger : Instant
  pair    : TimePair
  source  : Nat
  chans   : List Nat
  pre     : Nat
  post    : Nat
  dec     : Bool
  retrig  : List TimePair
  samples : List Word
  endsAt  : Instant
  sectors : List Nat
  deriving DecidableEq, Repr, Inhabited

/-- A camp record (Table 08-10), its calendar reading as one number. -/
structure CampRec where
  dt   : Nat
  sub  : Nat
  ch   : Nat
  stg2 : Bool
  drop : Bool
  rms  : Nat
  dur  : Nat
  seq  : Nat
  deriving DecidableEq, Repr, Inhabited

/-- A stage of a camp channel: picked up, windows since, highest RMS. -/
structure CampStage where
  up   : Bool
  wins : Nat
  peak : Nat
  deriving DecidableEq, Repr, Inhabited

/-- The calibration running: channel, step 0-3 (Table 08-4), its start, and the gain, offset and delay with which the calibration channel
matches the channel. -/
structure CalRun where
  ch    : Nat
  step  : Nat
  start : Instant
  gain  : BitVec 32
  offset : Int
  delay : Int
  deriving DecidableEq, Repr, Inhabited

/-- The measurement engine: configuration in force, newest grid instant, 16 channels and the calibration channel, streams, computed
sets, calibration running and queued, next channel of the rotation, temperature band in use by local set, whether the sense link is
lost and since when, source sets off the grid and those of them that have had a good sample since (R249), pre-trigger buffer, capture running and
captures stored, capture named, next capture number, last save, camp path, its stages (2 × camp channel + stage) and the calendar relation
last recorded before its entry (R253), the configuration before the one in force and the second boundary between them. -/
structure Meas where
  image   : Option MeasImage
  lastG   : Option Instant
  chans   : List Chan
  streams : List Stream
  sets    : List MSet
  cal     : Option CalRun
  calQueue : List Nat
  nextRot : Nat
  setBand : List Nat
  senseLost : Bool
  lostAt  : Instant
  lost    : List Nat
  good    : List Nat
  preBuf  : List (Nat × Word)
  capture : Option Capture
  stored  : List Capture
  named   : Nat
  nextNum : Nat
  savedAt : Instant
  campOn  : Bool
  campSeq : Nat
  campStages : List CampStage
  campRel : Option (Instant × Nat)
  oldImage : Option MeasImage
  newFrom : Instant
  deriving DecidableEq, Repr, Inhabited

/-! ### Field die (09) -/

/-- Digital input. `lats` are the two latest latches of counter, frequency and its quality at a tick boundary (R264, R265). -/
structure Di where
  level  : Bool
  raw    : Bool
  run    : Option Instant
  stp    : Option Instant
  acc    : Option Instant
  changes : Nat
  crossed : Nat
  readCnt : Nat
  count  : Nat
  resetDue : Option Instant
  fT0    : Option Instant
  fN     : Nat
  lastRise : Option Instant
  freqVal : BitVec 32
  freqQ  : Nat
  valid  : Bool
  fValid : Bool
  lats   : List (Instant × Nat × BitVec 32 × Nat)
  deriving DecidableEq, Repr, Inhabited

/-- Output: level commanded, level the die applies, level last dispatched, end of a running pulse, state to take at the
pulse's end, thermal shutdowns within 1 s, switched off by temperature, instant of the last switching command, and whether the
pin differs from what the switch drives (R270, R271). -/
structure DoCh where
  cmd     : Bool
  applied : Bool
  lastDisp : Option Bool
  pulse   : Option Instant
  pendSafe : Option Bool
  shut    : List Instant
  thermal : Bool
  switched : Instant
  pinOff  : Bool
  deriving DecidableEq, Repr, Inhabited

/-- Loop input: trim operation in progress (action, tick boundary, raw conversions, originator, CSN), failure events
active with the conversions since without the failure, first fresh value seen, last value and quality, the two latest conversions. -/
structure AiCh where
  trim    : Option (Nat × Instant × List Int × Nat × Nat)
  fails   : List (Nat × Nat)
  valid   : Bool
  word    : Word
  qc      : Nat
  convs   : List (Instant × Word × Nat)
  deriving DecidableEq, Repr, Inhabited

/-- Loop output: word last dispatched (current, quality), current the die commands, current delivered and when it last
changed, compliance flag and its last change, alarm level sourced, shortfall event active, readback of the last conversion, and the current
that the device commands with whether it is the alarm level: a standby holds it armed and sources 0 mA (Table 06-6). -/
structure AoCh where
  lastDisp : Option (Nat × Nat)
  applied : Nat
  delivered : Nat
  changedAt : Instant
  cpl     : Bool
  cplAt   : Instant
  alarm   : Bool
  short   : Bool
  readback : Nat
  armed   : Nat × Bool
  deriving DecidableEq, Repr, Inhabited

/-- The field die and the core's side of its link: channels, reset, link, RST of the supply word, freshness of the supply
word, rediscovery, last refresh, fail action in force, scheduled writes held, DI change
events queued (channel, level, stamp), settings accepted and not yet in force, outputs owed a delivery (R260), ends of the
masks of R258, notifications that wait for the link (2 where a second merged into one), the latest notification of each kind that the core took
with its merge flag (R279), and the status bits as they stand in the die (Table 09-7 at key n of DO n; FLA, ALM and CPL at key 24 + o
of AO o), of which the core holds the word latched at a tick boundary. -/
structure Field where
  di      : List Di
  dos     : List DoCh
  ai      : List AiCh
  ao      : List AoCh
  inReset : Bool
  linkUp  : Bool
  resetAt : Option Instant
  supplyValid : Bool
  statusValid : Bool
  discAt  : Instant
  lastRefresh : Instant
  failing : Bool
  sched   : List Sched
  events  : List (Nat × Bool × TimePair)
  pendSet : List (Nat × Nat × Nat × Instant)
  deliver : Nat
  mask1   : Instant
  mask2   : Instant
  notes   : NMem
  taken   : List (Nat × Instant × Bool)
  live    : NMem
  deriving DecidableEq, Repr, Inhabited

/-! ### Networks and time (10) -/

/-- The T field of a GOOSE frame (R290): nanoseconds of UTC, and its time quality. -/
structure GooseTime where
  utc       : Nat
  leapKnown : Bool
  failure   : Bool
  notSynch  : Bool
  accuracy  : Nat
  deriving DecidableEq, Repr, Inhabited

/-- Frames the device sends on Ethernet and CAN. `tag` is the VLAN tag of 0x2900.0B; `src` is the source address; `seq` the number in the redundancy
tag, none on a bus without redundancy (R286, R288); a sampled value stands with its quality. A forwarded PTP event carries the
correction that the transparent clock adds (R287); an echo reply its next hop by mask and gateway; a CAN frame its values, a reference message
the counter at its start of frame too (R306). -/
inductive NetOut where
  | goose (src tag ds stNum sqNum tal : Nat) (time : GooseTime) (test ndsCom : Bool) (vals : List Word) (bus : Bool) (seq : Option Nat)
  | sv (src tag : Nat) (seq : Option Nat) (set count synch : Nat) (vals : List (List (Int × SvQual)))
  | supervision (bus : Bool) (seq : Option Nat)
  | lldp (port : Nat) (seq : Option Nat)
  | sync (bus twoStep : Bool) (seq : Option Nat)
  | followUp (bus : Bool) (seq : Option Nat)
  | announce (bus : Bool) (clockClass profile : Nat) (seq : Option Nat)
  | pdelayReq (bus : Bool) (seq : Option Nat)
  | pdelayResp (port dst : Nat) (seq : Option Nat)
  | arpReply (dst : Nat) (seq : Option Nat)
  | echoReply (dst hop : Nat) (seq : Option Nat)
  | dictionary (bytes : List Byte) (seq : Option Nat)
  | forward (port : Nat) (correction : Option Nat) (f : EthFrame)
  | can (port obj : Nat) (vals : List Word)
  | canRef (port ident : Nat) (brs : Bool) (payload : List Byte) (counter : Nat)
  deriving DecidableEq, Repr, Inhabited

/-- A frame as it leaves an Ethernet port: the instant at which it was queued, its queue, and the stamp of its transmission (R285, R289). -/
structure TxFrame where
  at_   : Instant
  queue : Nat
  stamp : Instant
  frame : NetOut
  deriving DecidableEq, Repr, Inhabited

/-- Ethernet port: frames seen of late (source, sequence, stamp), nodes known by their supervision frames, last supervision frame, last LLDP
frame sent, neighbour, cable test running, stamp of the last frame received with a valid FCS, and the frames transmitted, in the order in which
they leave (R285, R289, R291). -/
structure EthPort where
  seen    : List (Nat × Nat × Instant)
  nodes   : List Nat
  lastSup : Instant
  lldpAt  : Option Instant
  neighbour : List Byte
  testing : Bool
  rxStamp : Instant
  out     : List TxFrame
  deriving DecidableEq, Repr, Inhabited

/-- A published dataset: configuration, state and sequence numbers, dispatched values and test flag, next repetition, present interval, the
time pair of the dispatch that changed it (R290). -/
structure GooseTx where
  cfg     : Option GooseCfg
  stNum   : Nat
  sqNum   : Nat
  vals    : List Word
  test    : Bool
  nextAt  : Option Instant
  interval : Nat
  tPair   : TimePair
  deriving DecidableEq, Repr, Inhabited

structure GooseSt where
  cfg     : Option GooseSub
  stNum   : Nat
  sqNum   : Nat
  any     : Bool
  expiry  : Option Instant
  state   : Nat
  vals    : List Word
  quals   : List Nat
  deriving DecidableEq, Repr, Inhabited

structure CanRxSt where
  obj     : CanObj
  frame   : Option CanFrame
  stamp   : Instant
  counter : Nat
  taken   : Bool
  held    : Bool
  deriving DecidableEq, Repr, Inhabited

structure CanTxSt where
  obj     : CanObj
  vals    : List Word
  queued  : Bool
  queuedAt : Instant
  doneAt  : Instant
  counter : Nat
  deriving DecidableEq, Repr, Inhabited

/-- The own frame under way on a CAN bus: the transmit object by its place, none for the reference message; its values; and an instant by which
it had started. -/
structure CanWire where
  obj     : Option Nat
  vals    : List Word
  since   : Instant
  deriving DecidableEq, Repr, Inhabited

/-- CAN port: objects, last 16 distances, a reference message that waits for the bus, bus-off and waiting for the recovery command, the own frame
under way, and since when the port is off or fenced (R309). -/
structure CanPort where
  rx      : List CanRxSt
  tx      : List CanTxSt
  dists   : List Nat
  refDue  : Bool
  busOff  : Bool
  waiting : Bool
  wire    : Option CanWire
  cut     : Option Instant
  deriving DecidableEq, Repr, Inhabited

/-- The timebase (R295-R302): Sync messages in a row within and beyond ±1 µs, LI, ACC, grandmaster and its last Announce, entry into holdover, step
requested, first lock seen, announced change of the UTC offset, candidates of the time-source bus, Announces of the other bus's instance with their
instants, rate of slew in force in 10⁻⁹, and the port of the time-source bus that is slave (Table 10-5). -/
structure TimeBase where
  goodSync : Nat
  badSync  : Nat
  li       : Nat
  acc      : Nat
  gm       : Option Announce
  lastAnn  : Option Instant
  holdAt   : Instant
  stepReq  : Bool
  firstLock : Bool
  pendUtc  : Option (Instant × Int)
  ann      : List Announce
  bestSeen : Nat
  other    : List (Announce × Instant)
  slew     : Int
  slave    : Option Nat
  deriving DecidableEq, Repr, Inhabited

/-- A record of a remote module of which frames are still to come: the frames so far (R51). -/
structure RecAsm where
  module : Nat
  parts  : List RecPart
  deriving DecidableEq, Repr, Inhabited

/-- Networks and time: ports, GOOSE, CAN; sequence numbers of the own and the pair publication address per bus (R288); what
start-up put in force of 0x2900.02, .03, .06 to .0A (`ip`: address, mask, gateway) and the media (R284, R315: the ports replaced, and for each port 0 for copper or the number of the SerDes port that replaced it); records of remote modules under way (R51); the latest value known of the CAN counter (R306). -/
structure Net where
  eth     : List EthPort
  tx      : List GooseTx
  subs    : List GooseSt
  can     : List CanPort
  seqOwnS : Nat
  seqOwnP : Nat
  seqPairS : Nat
  seqPairP : Nat
  stAlone : Bool
  prOff   : Bool
  pubS    : Nat
  pubP    : Nat
  replaced : Nat
  serdes  : List Nat
  supAt   : Option Instant
  canLatch : TimePair × Nat
  canCount : Nat
  ip      : Nat × Nat × Nat
  tb      : TimeBase
  recs    : List RecAsm
  sent    : List NetOut
  deriving DecidableEq, Repr, Inhabited

/-! ### Dictionary (11) -/

/-- A key slot (R332): identity, role 0-3, secret; empty when identity is 0. -/
structure KeySlot where
  kid    : Nat
  role   : Nat
  secret : Nat
  deriving DecidableEq, Repr, Inhabited

/-- An open session (R326-R328, R331). `segs` are the segmented writes in progress: index, subindex, CSN, bytes, last arrival. -/
structure Session where
  sid   : Nat
  num   : Nat
  kid   : Nat
  role  : Nat
  key   : Nat
  ctrIn : Nat
  last  : Instant
  segs  : List (Nat × Nat × Nat × List Byte × Instant)
  deriving DecidableEq, Repr, Inhabited

/-- A HELLO that awaits its OPEN (R326). -/
structure HelloSt where
  sid : Nat
  kid : Nat
  key : Nat
  at_ : Instant
  deriving DecidableEq, Repr, Inhabited

/-- An SDO transfer in progress (R336). -/
structure SdoSt where
  upload : Bool
  ix     : Nat
  sub    : Nat
  toggle : Bool
  bytes  : List Byte
  last   : Instant
  deriving DecidableEq, Repr, Inhabited

/-- The content of an answer of the dictionary; `ok 0 []` is the empty response of a write or a segment, `noValue` that of a read of a value
of length 0 (Table 11-6). -/
inductive AnsBody where
  | challenge (nd : Nat)
  | opened (role timeout : Nat)
  | ok (total : Nat) (bytes : List Byte)
  | noValue
  | abort (code : Nat)
  deriving DecidableEq, Repr, Inhabited

/-- An answer: where it goes (none = SDO), CSN and RCTR of the request answered, content. -/
structure Answer where
  sid  : Option Nat
  csn  : Nat
  rctr : Nat
  body : AnsBody
  deriving DecidableEq, Repr, Inhabited

/-- State of the dictionary. `fails` are failed openings by key identity and instant, `lockouts` identities with the end of their
lockout (R334); `ended` are the identifiers of sessions that have ended (R328), `used` all those drawn (R326); `waiting` the requests that
await the muster of a queued write: originator, CSN, session, CTR (R320, R330); `outbox` the bytes of answers that have not left yet (R330);
`lately` the writes accepted in the latest microsecond: microsecond, session number, index, subindex, value (R322). -/
structure Dict where
  keys     : List KeySlot
  sessions : List Session
  hellos   : List HelloSt
  fails    : List (Nat × Instant)
  lockouts : List (Nat × Instant)
  nextNum  : Nat
  sdo      : Option SdoSt
  sdoCsn   : Nat
  sdoPos   : Nat
  answers  : List Answer
  outbox   : List (List Byte)
  lately   : List (Nat × Nat × Nat × Nat × List Byte)
  ended    : List Nat
  used     : List Nat
  waiting  : List (Nat × Nat × Option Nat × Nat)
  profiles : List Byte
  codeMap  : List Byte
  readyAt  : Option Instant
  mssUp    : Bool
  deriving DecidableEq, Repr, Inhabited

/-! ### Flash (12) -/

/-- A parameter-store record (Table 12-4) with the standing of its two copies, the sectors, within their halves, that hold them, and their
offsets in the record space. -/
structure PRec where
  knd  : Nat
  ix   : Nat
  sub  : Nat
  rsn  : Nat
  pay  : List Byte
  a    : Bool
  b    : Bool
  sa   : Nat
  sb   : Nat
  oa   : Nat
  ob   : Nat
  deriving DecidableEq, Repr, Inhabited

/-- A sector of one half of the parameter store (R347): erase count, state (0 erased, 1 open, 2 full, 3 erasing), used
bytes. -/
structure Sector where
  erases : Nat
  st     : Nat
  used   : Nat
  deriving DecidableEq, Repr, Inhabited

/-- A store of records in two halves (R346-R355): the index of its records, the newest RSN, the writes queued in the flash controller, and
those of the device itself that wait for a place in its queue (log 143); the sectors; whether wear was recorded. -/
structure Store where
  recs   : List PRec
  rsn    : Nat
  queue  : List (Nat × Nat × Nat × List Byte × Instant)
  held   : List (Nat × Nat × Nat × List Byte × Instant)
  halfA  : List Sector
  halfB  : List Sector
  worn   : Bool
  deriving DecidableEq, Repr, Inhabited

/-- A piece of background work of the flash controller (R352, R354): copy a record, by RSN, of a half into its open sector; write a copy B
again; copy a live event record, by SEQ; or program header group 2 of a sector and begin its erase. -/
inductive FlashWork where
  | copy (area : FlashArea) (rsn : Nat)
  | repair (ident : Bool) (rsn : Nat)
  | slot (seq : Nat)
  | retire (area : FlashArea) (sector : Nat)
  deriving DecidableEq, Repr, Inhabited

/-- What a program operation left: its address (Table 12-1), the bytes as they read, and the ECC flag of each of its groups. -/
structure Prog where
  addr  : Nat
  bytes : List Byte
  flags : List Bool
  deriving DecidableEq, Repr, Inhabited

/-- The flash die (R343, R345): the program operations since their sectors were erased; the sectors, by number, that an interrupted erase
left indeterminate, with the draw of what they read (R353); and the controller's background work, in order. -/
structure FlashDie where
  progs : List Prog
  wild  : List (Nat × Nat)
  work  : List FlashWork
  deriving DecidableEq, Repr, Inhabited

/-- An event record (Table 12-6). -/
structure EvRec where
  tim  : TimePair
  code : Nat
  sev  : Nat
  fin  : Bool
  src  : Nat
  unit : Nat
  seq  : Nat
  snv  : List Word
  prf  : Nat
  org  : Nat
  csn  : Nat
  dtl  : List Byte
  deriving DecidableEq, Repr, Inhabited

/-- The event recorder (R356-R360): live and queued records, newest SEQ written; its sectors, whose `used` counts slots, the sector and slot
of each live record by SEQ, and the void maps: sector, slot and which of its three bits read 0 (R359). -/
structure Recorder where
  live   : List EvRec
  queue  : List EvRec
  last   : Nat
  sectors : List Sector
  place  : List (Nat × Nat × Nat)
  voids  : List (Nat × Nat × Nat)
  deriving DecidableEq, Repr, Inhabited

/-! ### Calendar and watchdog (13) -/

/-- Calendar counters in binary (registers read them in BCD): sub-second, second, minute, hour, day, month, year, weekday. -/
structure CalVal where
  sub  : Nat
  sec  : Nat
  min  : Nat
  hour : Nat
  day  : Nat
  mon  : Nat
  year : Nat
  deriving DecidableEq, Repr, Inhabited

/-- The calendar (R365-R375). `shadow` holds the raw write-shadow values, sub-second first; `frozen` the eight read shadows
with their age in counts; `shift` whether it retards, counts still to skip or insert, and counts until the next one;
`offAtMark` the exact offset behind CAL_MARK; `relation` station time and calendar counts at the last mark; `leapDue` that an
announced leap second awaits its commit; `rdata` the value the last register read returned; `shiftReg` CAL_SHIFT as written. -/
structure Calendar where
  now     : CalVal
  wday    : Nat
  exp     : Bool
  vld     : Bool
  err     : Bool
  ovf     : Bool
  shadow  : Option (List Nat)
  frozen  : Option (List Nat)
  frozenAge : Nat
  commit  : Option CalVal
  pendWday : Option Nat
  shift   : Option (Bool × Nat × Nat)
  shiftReg : Nat
  mark    : Int
  offAtMark : Int
  relation : Option (Instant × Nat)
  leapDue : Bool
  rdata   : Nat
  deriving DecidableEq, Repr, Inhabited

/-- A member of the roll call (R376-R381): p, o, c in µs; enrolment count; arming count; next period to close; whether the
window of that period has counted a check-in; failed at count; last check-in; and its toggle synchroniser (R406): a check-in on its way, the
merge flag that travels with it, and the pending bit. -/
structure Member where
  on_    : Bool
  p      : Nat
  o      : Nat
  c      : Nat
  e      : Nat
  armed  : Option Nat
  k      : Nat
  got    : Bool
  failAt : Option Nat
  lastIn : TimePair
  signal : Bool
  mergeFlag : Bool
  pend   : Bool
  deriving DecidableEq, Repr, Inhabited

/-- Evidence (Table 13-5). -/
structure Evidence where
  tim : TimePair
  cnt : Nat
  fmk : Nat
  mbr : Nat
  knd : Nat
  mpc : Nat
  epc : List Nat
  lci : List TimePair
  deriving DecidableEq, Repr, Inhabited

structure Watchdog where
  count   : Nat
  lockAt  : Nat
  members : List Member
  ev0     : Option Evidence
  ev1     : Option Evidence
  lastFw  : Option Nat
  deriving DecidableEq, Repr, Inhabited

/-! ### Front panel (14) -/

inductive PanelKind where
  | partialUpd | fullUpd | repaintUpd | balance
  deriving DecidableEq, Repr, Inhabited

/-- The sequence running: kind, latched waveform table (F and 20 × F codes), frame number done. -/
structure PanelRun where
  kind  : PanelKind
  frames : Nat
  codes : List Nat
  k     : Nat
  deriving DecidableEq, Repr, Inhabited

structure Panel where
  copy    : NMem
  cur     : NMem
  tgt     : NMem
  curCrc  : Nat
  tgtCrc  : Nat
  unknown : Bool
  counters : List (Nat × Int)
  tables  : List (List Byte)
  run     : Option PanelRun
  pending : Option PanelKind
  balDue  : Bool
  idleAt  : Instant
  trimCh  : Nat
  trimAct : Option (Nat × Instant)
  trimView : Option (Nat × Word × Word × Word)
  deriving DecidableEq, Repr, Inhabited

/-! ### Power (15) -/

/-- The phase the chip is in (15). -/
inductive Phase where
  | off | stopped | recovery | ready | camp | pd0Alone | factoryTest
  deriving DecidableEq, Repr, Inhabited

/-- Domains that are on (bit d: PDd), supplies present (VIN qualified, VF1 and VF2 at or above 16 V), source of PD0 (0 base regulators, 1
field supplies, 2 VBAK, 3 none), source of the camp path (0 off, 1 field supplies, 2 VBAK; R254), whether READY has been raised since PD0 was powered, instants kept in PD0 of the last VIN loss and of
the VBAK cut-off (R413, R416), the instant at which a domain monitor stopped start-up, a restart that a write asked for, the READY_N ball, whether the core is above
115 °C, the cause the next start-up reports, fences released and not yet ended (bits of Table 01-12), the dies and ports whose link is lost
and those fenced for their supply or for another cause that no link shows (bits of Table 01-12), and the fabric weights in force (0x2100.1D). -/
structure Power where
  phase    : Phase
  domains  : BitVec 16
  vin      : Bool
  vf1      : Bool
  vf2      : Bool
  pd0Src   : Nat
  campSrc  : Nat
  readySeen : Bool
  lossAt   : Option Instant
  stopAt   : Option Instant
  restartDue : Bool
  vbakAt   : Option Instant
  readyN   : Bool
  overTemp : Bool
  restartCause : Nat
  fencesDue : Nat
  linkLost : Nat
  supplyOut : Nat
  weights  : List Nat
  deriving DecidableEq, Repr, Inhabited

end Sys2Proof
end

