-- ==== Sys2Proof/Config.lean ====
section
/-! DEFINITION. What the specification leaves open or to a published standard: free functions and free values without a
body (log 6, log 7, log 8). Nothing can be proved of their values. -/

namespace Sys2Proof.Config

/-! ### Cryptography (R207, R326, R327): functions of other standards -/

/-- SHA-256 of a byte string, as a number. -/
opaque sha256 : List Byte → Nat
/-- Whether an image-signing key slot holds a public key (R207). -/
opaque keyProvisioned (slot : Nat) : Bool
/-- Whether a signature verifies under image-signing key slot j over the hash. -/
opaque sigVerifies (slot hash signature : Nat) : Bool
/-- First 16 bytes of HMAC-SHA-256 under a key. -/
opaque hmac16 (key : Nat) (msg : List Byte) : Nat
/-- HMAC-SHA-256 under a key, all 32 bytes. -/
opaque hmac32 (key : Nat) (msg : List Byte) : Nat

/-! ### Free values, by the counter of draws -/

/-- A random session identifier (R326). -/
opaque randomSid : Nat → Nat
/-- 16 random bytes (R326). -/
opaque randomNonce : Nat → Nat
/-- A free word where the specification states no value. -/
opaque freeWord : Nat → Word
/-- A free 32-bit value. -/
opaque free32 : Nat → BitVec 32

/-- Whether a quotient that is no whole number is rounded up (log 8): numerator, denominator. -/
opaque roundUp : Int → Nat → Bool
/-- A current reading of a conversion whose millisecond saw a change (R276, log 8). -/
opaque freeReading : Nat → Nat

/-- ACC after more than one hour in holdover, by the seconds spent in it (Table 10-6 gives no bound). -/
opaque holdoverAcc : Nat → Nat
/-- The servo's frequency correction in 10⁻⁹ before it is limited (R297), by draws. -/
opaque servoRate : Nat → Int
/-- How long after its queueing the n-th frame sent leaves a port (R72 fixes no such instant), in ns. -/
opaque departAfter (n port : Nat) : Nat
/-- The servo's error estimate in ns (Table 10-4), by draws. -/
opaque servoError : Nat → Nat

/-! ### Measurement (08): what nothing fixes (log 8) -/

/-- An aggregate of angle q over interval kind k, by draw: the standard that R240 names gives it. -/
opaque aggregate (draw k q : Nat) : BitVec 32
/-- What the filters of class P or M make of the samples of a channel about instant r at a reporting rate: the phasor, in RMS and with its
instantaneous phase at r; and the frequency, or with `rocof` its rate of change, of three voltages. The standard that R241 names gives the
filters. -/
opaque phasorAt (classM : Bool) (rate : Nat) (r : Instant) (x : List (Instant × Rat)) : Rat × Rat
opaque phasorFreq (classM rocof : Bool) (rate : Nat) (r : Instant) (u : List (List (Instant × Rat))) : Rat
/-- Thresholds in per cent of rated voltage of a dip, an interruption and a swell (R240 names IEC 61000-4-30, which leaves them to the user). -/
opaque dipBelow : Rat
opaque interruptionBelow : Rat
opaque swellAbove : Rat
/-- The stream quality of a published value whose code has no row in the table of R234, by the code. -/
opaque publishedQuality : Nat → SvQual
/-- The event code of an accumulator reset's audit record, for which chapter 08 gives none (log 35). -/
opaque resetEventCode : Nat
/-- Capture number and page that a page request word names (R248 gives no layout, log 40). -/
opaque pageRequest (w : Word) : Nat × Nat

/-! ### The pair (06) -/

/-- The pair protocol version of this device (CAPS, R179). -/
opaque pairProtocol : Nat
/-- The event code of a pair event, for which chapter 06 gives none: 0 split link, 1 dispatch hash mismatch, 2 input discrepancy
(log 35). -/
opaque pairEventCode : Nat → Nat
/-! ### Images (07, 08): the toolchain's format -/

/-- The application image that a body of target t carries. -/
opaque parseApp (t : Nat) (body : List Byte) : Option AppImage
/-- The measurement configuration that a body carries. -/
opaque parseMeas (body : List Byte) : Option MeasImage

/-! ### Engines -/

/-- Least and greatest value that the verifier proves of what the operation in a slot of a bundle takes from registers as its address, bit
address, descriptor, target or count, and greatest value of Ga + imm of a `wtu` (R62, R94, R97, R107, R139, log 7). -/
opaque provenRange (code : NMem) (bundle : Nat) (sl : Slot) : Option (Nat × Nat)
/-- Least and greatest instant that the verifier proves of the time pair of a `sow` (R95, log 7). -/
opaque provenTime (code : NMem) (bundle : Nat) : Option (Nat × Nat)
/-- How often in a cycle the verifier proves a branch back from a bundle to be taken at most (R62). -/
opaque branchBound (code : NMem) (bundle : Nat) : Option Nat

/-- The control-flow signature after one more bundle (R143; the specification gives no polynomial). -/
opaque sigStep (sig bundle : Nat) : Nat

/-- Whether the cause of a fence is gone, by port bit and draw, where nothing in the device shows it (R37, log 33). -/
opaque causeGone (port draw : Nat) : Bool
/-- Whether the write of a failure's evidence into PD0 completes within its 50 µs (R382), by draw (log 127). -/
opaque evidenceWritten (draw : Nat) : Bool
/-- The source of an engine fault that an idle self-test found, by draw (Table 05-10 gives the codes, log 6). -/
opaque faultSource : Nat → Nat

/-- The picture of trim mode: AI channel, corrected current, zero and span trim (R398 gives no layout), by byte of the frame memory. -/
opaque trimPicture (ch : Nat) (current zero span : Word) : List (Nat × Nat)

/-! ### Identity and calibration area (R344): what the factory wrote -/

/-- The factory contents as they stand in a sector, by offset (R344 gives no layout). -/
opaque factoryByte : Nat → Byte
/-- Serial number, 16 characters (R339). -/
opaque serial : List Byte
/-- Own station-bus and process-bus addresses. -/
opaque ownStation : Nat
opaque ownProcess : Nat
/-- Version of the firmware delivered (VER of Table 07-3). -/
opaque firmwareVersion : Nat
/-- The factory owner key (R333). -/
opaque factorySecret : Nat

end Sys2Proof.Config
end

