-- ==== Sys2Proof/Machine/State.lean ====
section
/-! DEFINITION. The state of the block: the queue of waiting commands and everything the specification gives the device.
Registers of the object dictionary stand in the sparse register file `regs`; what a unit holds behind its registers stands
in the structures of `Sys2Proof.Data`. -/

namespace Sys2Proof.Machine

/-- Everything the device holds.

`now` is the station time of the last timed command (log 10). `free` counts the free values drawn (log 6; the model's own
field). `regs` is the register file of the object dictionary (11): sparse, canonical, an unlisted register reads its
default column. `works` are the 32 engine positions with ledger and undo buffer (03, 05); `dbank` and `ibank` the D-banks
and I-banks by position (R81, R83); `cls` the 16 task classes (02); `regions` the 4 regions (01, 05, 07); `crossing` the
input items on their way from the dies, each with the die or port of Table 01-12 it comes through (R45); `evFlight` the events of `sev` under way (R138). -/
structure Chip where
  now      : Instant
  free     : Nat
  regs     : List (Nat × Word)
  works    : List Work
  dbank    : List WMem
  ibank    : List NMem
  cls      : List Cls
  regions  : List Region
  crossing : List (Nat × Item)
  evFlight : List EventInFlight
  pair     : Pair
  targets  : List Target'
  meas     : Meas
  field    : Field
  net      : Net
  dict     : Dict
  store    : Store
  ident    : Store
  recd     : Recorder
  die      : FlashDie
  cal      : Calendar
  campRecs : List CampRec
  wd       : Watchdog
  panel    : Panel
  power    : Power
  deriving DecidableEq, Repr

/-- The state: the commands that wait, first in first out, and the chip. -/
structure State where
  pending : List Instr
  chip    : Chip
  deriving DecidableEq, Repr

/-- No command of this block ends in a fault of the machine: every hardware fault and program fault of the specification is
an event of the device with an effect on its state. The one constructor is raised by nothing. -/
inductive Fault where
  /-- Raised by nothing; safe. -/
  | none
  deriving DecidableEq, Repr

/-- Why a step can stop without a meaning. -/
inductive Refusal where
  /-- A command whose meaning has not been written, by its row's mnemonic; safe. -/
  | notModelled (mnemonic : String)
  deriving DecidableEq, Repr

/-- A work at reset: nothing loaded, nothing in flight (R76). -/
def Work.reset : Work where
  arch := Arch.entry 0
  flights := []
  issued := 0
  sinceMs := 0
  delay := 0
  target := none
  bundle := ⟨[], none, none, none, []⟩
  run := .idle
  saved := .idle
  flags := []
  undo := []
  slot0 := ⟨Arch.entry 0, 0, 0, false, 0⟩
  slot1 := ⟨Arch.entry 0, 0, 0, false, 0⟩
  sup := []
  prf := 0
  eidCls := 0
  eidMix := 0
  faultAt := 0
  atFault := 0
  lastGst := none
  ended := none

/-- A task class at reset: not configured (Table 02-12). -/
def Cls.reset : Cls where
  cfg := none
  cycle := none
  skipAt := none
  safeAt := none
  notBefore := 0
  everDisp := false
  undisp := []
  stopAt := none
  kept := []
  img := []
  imgQ := []
  items := []
  lastM := none
  pub := []
  boxFr := []
  boxCy := 0
  boxOld := []
  hdrs := []
  held := none
  prev := none
  stopBy := []
  own := []
  ownQ := []
  ownM := none

/-- A region at reset: no image. -/
def Region.reset : Region where
  image := none
  gmem := []
  queue := []
  editAt := []
  attach := none
  tests := []
  banks := []
  swap := none
  paused := false
  orphans := []
  taken := []
  takenAt := 0

/-- Pair state at reset: pair mode off. -/
def Pair.reset : Pair where
  inForce := false
  sideB := false
  began := 0
  baton := false
  released := false
  listenOnly := false
  lsnOut := 0
  lsnIn := none
  missing := []
  resent := []
  hbSent := none
  store := []
  capsSeen := none
  capsEqual := false
  synced := []
  sharedSynced := false
  abandoned := 0
  lastHb := none
  partnerBegan := 0
  partnerSideB := false
  seals := []
  heldRel := []
  ownHash := []
  partnerHash := []
  heldFrames := []
  grant := none
  grantCause := 0
  asked := false
  fencedBy := 0
  joinedAt := 0
  readySince := none
  origs := []
  cmdParts := []
  fwdItems := []
  pages := []
  copying := false
  discr := []
  sealNow := []
  lost := false

/-- An update target at reset: empty (Table 07-10). -/
def Target'.reset : Target' where
  head := none
  body := []
  lastBody := 0
  app := none
  prevApp := none
  meas := none
  prevMeas := none
  ta := none
  arcNew := 0
  trialEnd := none
  fallAt := none
  resumeAt := none
  wasRunning := 0
  isFallback := false
  lostDo := []
  lostAo := []
  hash := 0
  otherHash := 0
  swapDue := false

/-- A local channel at reset: unit gain (0x2610+c.06) and no offset in every band (log 1). -/
def Chan.reset : Chan := ⟨[], false, false, false, 0, List.replicate 8 (0x3F800000, 0), []⟩
def Stream.reset : Stream := ⟨[], 0, true, [], [], 0⟩
/-- An aggregation interval that begins at t, of 50 quantities. -/
def aggFrom (t : Instant) : Agg := ⟨0, 0, t, List.replicate 50 0, List.replicate 50 0, 0, false⟩
/-- A computed set at reset: no window begun, accumulators zero. -/
def MSet.reset : MSet where
  n0 := none
  len := 0
  samples := []
  prevLen := 0
  freq := 0
  freqQ := 2
  heldAt := 0
  angU := none
  angI := none
  results := []
  endPair := ⟨0, 0⟩
  phPair := ⟨0, 0⟩
  aggs := List.replicate 5 (aggFrom 0)
  acc := List.replicate 8 0
  frac := List.replicate 8 0
  resets := 0
  fresh := false
  seqRun := ⟨0, false⟩
  neutRun := ⟨0, false⟩
  revRun := ⟨0, false⟩
  freqBy := 0
  hist := []

/-- The measurement engine at reset. -/
def Meas.reset : Meas where
  image := none
  lastG := none
  chans := List.replicate 17 Chan.reset
  streams := List.replicate 16 Stream.reset
  sets := List.replicate 8 MSet.reset
  cal := none
  calQueue := []
  nextRot := 0
  setBand := [0, 0]
  senseLost := false
  lostAt := 0
  lost := []
  good := []
  preBuf := []
  capture := none
  stored := []
  named := 0
  nextNum := 0
  savedAt := 0
  campOn := false
  campSeq := 0
  campStages := List.replicate 16 ⟨false, 0, 0⟩
  campRel := none
  oldImage := none
  newFrom := 0

def Di.reset : Di where
  level := false
  raw := false
  run := none
  stp := none
  changes := 0
  crossed := 0
  readCnt := 0
  acc := none
  count := 0
  resetDue := none
  fT0 := none
  fN := 0
  lastRise := none
  freqVal := 0
  freqQ := 2
  valid := false
  fValid := false
  lats := []

def DoCh.reset : DoCh where
  cmd := false
  applied := false
  lastDisp := none
  pulse := none
  pendSafe := none
  shut := []
  thermal := false
  switched := 0
  pinOff := false

def AiCh.reset : AiCh := ⟨none, [], false, 0, 0, []⟩
def AoCh.reset : AoCh := ⟨none, 0, 0, 0, false, 0, false, false, 0, (0, false)⟩

/-- The field die at reset: absent (Table 09-11), every output off. -/
def Field.reset : Field where
  di := List.replicate 48 Di.reset
  dos := List.replicate 24 DoCh.reset
  ai := List.replicate 8 AiCh.reset
  ao := List.replicate 4 AoCh.reset
  inReset := false
  linkUp := false
  resetAt := none
  supplyValid := false
  statusValid := false
  discAt := 0
  lastRefresh := 0
  failing := false
  sched := []
  events := []
  pendSet := []
  deliver := 0
  mask1 := 0
  mask2 := 0
  notes := []
  taken := []
  live := []

def EthPort.reset : EthPort := ⟨[], [], 0, none, [], false, 0, []⟩
def CanPort.reset : CanPort := ⟨[], [], [], false, false, false, none, none⟩

/-- Networks and time at reset: no link, timebase free (Table 10-4). -/
def Net.reset : Net where
  eth := List.replicate 4 EthPort.reset
  tx := []
  subs := []
  can := List.replicate 4 CanPort.reset
  seqOwnS := 0
  seqOwnP := 0
  seqPairS := 0
  seqPairP := 0
  stAlone := false
  prOff := false
  pubS := 0
  pubP := 0
  replaced := 0
  serdes := [0, 0, 0, 0]
  supAt := none
  canLatch := (⟨0, 0⟩, 0)
  canCount := 0
  ip := (0, 0, 0)
  tb := { goodSync := 0, badSync := 0, li := 0, acc := 0, gm := none, lastAnn := none, holdAt := 0,
          stepReq := false, firstLock := false, pendUtc := none, ann := [], bestSeen := 0, other := [], slew := 0, slave := none }
  recs := []
  sent := []

/-- The dictionary at reset: no session; slot 0 holds the factory owner key (R333). -/
def Dict.reset : Dict where
  keys := ⟨1, 3, Config.factorySecret⟩ :: List.replicate 15 ⟨0, 0, 0⟩
  sessions := []
  hellos := []
  fails := []
  lockouts := []
  nextNum := 0
  sdo := none
  sdoCsn := 0
  sdoPos := 0
  answers := []
  outbox := []
  lately := []
  ended := []
  used := []
  waiting := []
  profiles := []
  codeMap := []
  readyAt := none
  mssUp := false

/-- The parameter store at reset: erased (log 1). -/
def Store.reset : Store where
  recs := []
  rsn := 0
  queue := []
  held := []
  halfA := List.replicate 32 ⟨0, 0, 0⟩
  halfB := List.replicate 32 ⟨0, 0, 0⟩
  worn := false

/-- The record part of the calibration and identity area at reset: erased; 14 of its 16 sectors, 7 for each copy (DESIGN CHOICE, log 142). -/
def Ident.reset : Store := { Store.reset with halfA := List.replicate 7 ⟨0, 0, 0⟩, halfB := List.replicate 7 ⟨0, 0, 0⟩ }

/-- The calendar at reset: stopped at zero, not valid (R369, log 1). -/
def Calendar.reset : Calendar where
  now := ⟨0, 0, 0, 0, 1, 1, 0⟩
  wday := 1
  exp := false
  vld := false
  err := false
  ovf := false
  shadow := none
  frozen := none
  frozenAge := 0
  commit := none
  pendWday := none
  shift := none
  shiftReg := 0
  mark := 0
  offAtMark := 0
  relation := none
  leapDue := false
  rdata := 0

def Member.reset : Member := ⟨false, 0, 0, 0, 0, none, 0, false, none, ⟨0, 0⟩, false, false, false⟩
/-- The watchdog at reset: nothing enrolled but what start-up enrols. -/
def Watchdog.reset : Watchdog where
  count := 0
  lockAt := 0
  members := List.replicate 32 Member.reset
  ev0 := none
  ev1 := none
  lastFw := none

/-- The panel at reset: rails off, picture unknown. -/
def Panel.reset : Panel where
  copy := []
  cur := []
  tgt := []
  curCrc := 0
  tgtCrc := 0
  unknown := true
  counters := []
  tables := List.replicate 8 []
  run := none
  pending := none
  balDue := false
  idleAt := 0
  trimCh := 0
  trimAct := none
  trimView := none

/-- Power at reset: the chip is off (log 1: reset is the chip before any supply). -/
def Power.reset : Power where
  phase := .off
  domains := 0
  vin := false
  vf1 := false
  vf2 := false
  pd0Src := 0
  campSrc := 0
  readySeen := false
  lossAt := none
  stopAt := none
  restartDue := false
  vbakAt := none
  readyN := true
  overTemp := false
  restartCause := 0
  fencesDue := 0
  linkLost := 0
  supplyOut := 0
  weights := [6, 6, 6, 6, 6, 5, 8, 12, 1, 3, 2, 2, 1]

/-- The chip at reset. -/
def Chip.reset : Chip where
  now := 0
  free := 0
  regs := []
  works := List.replicate 32 Work.reset
  dbank := List.replicate 32 []
  ibank := List.replicate 32 []
  cls := List.replicate 16 Cls.reset
  regions := List.replicate 4 Region.reset
  crossing := []
  evFlight := []
  pair := Pair.reset
  targets := List.replicate 6 Target'.reset
  meas := Meas.reset
  field := Field.reset
  net := Net.reset
  dict := Dict.reset
  store := Store.reset
  ident := Ident.reset
  recd := ⟨[], [], 0, List.replicate 128 ⟨0, 0, 0⟩, [], []⟩
  die := ⟨[], [], []⟩
  cal := Calendar.reset
  campRecs := []
  wd := Watchdog.reset
  panel := Panel.reset
  power := Power.reset

/-- The machine after reset: no command waits. -/
def State.reset : State := ⟨[], Chip.reset⟩

end Sys2Proof.Machine
end

