-- ==== Sys2Proof/Machine/Registers.lean ====
section
/-! DEFINITION. The register file of the object dictionary: the entries that the chapters tabulate, with type, access,
roles, default and range (R316-R319, R338), and the operations that read and write registers by index and subindex. -/

namespace Sys2Proof.Machine

/-- Types of Table 11-1, as far as a length or a range depends on them. -/
inductive Ty where
  | bool | int | uint | real | pair | octets | text | domain
  deriving DecidableEq, Repr

/-- Access kinds of R318. -/
inductive AccessKind where
  | ro | wo | rw | const
  deriving DecidableEq, Repr

/-- A row of the entry tables: first index, how many indices repeat it, subindex, type, access, read and write role (0
observer to 3 owner), default, lowest and highest value of the range column. -/
structure Entry where
  base  : Nat
  count : Nat
  sub   : Nat
  ty    : Ty
  acc   : AccessKind
  rRole : Nat
  wRole : Nat
  dflt  : Nat
  lo    : Nat
  hi    : Nat
  deriving DecidableEq, Repr

/-- The highest value of a 48-bit word. -/
abbrev mx : Nat := 0xFFFFFFFFFFFF

/-- Entries of 0x1000 upward. -/
def entries1000a : List Entry :=
  [⟨0x1000, 1, 0x00, .uint, .const, 0, 0, 0, 0, mx⟩,
   ⟨0x1001, 1, 0x00, .uint, .ro, 0, 0, 0, 0, mx⟩,
   ⟨0x1008, 1, 0x00, .text, .const, 0, 0, 0, 0, mx⟩,
   ⟨0x1009, 1, 0x00, .text, .const, 0, 0, 0, 0, mx⟩,
   ⟨0x100A, 1, 0x00, .text, .ro, 0, 0, 0, 0, mx⟩,
   ⟨0x1018, 1, 0x01, .uint, .const, 0, 0, 1511, 0, mx⟩,
   ⟨0x1018, 1, 0x02, .uint, .const, 0, 0, 18482, 0, mx⟩,
   ⟨0x1018, 1, 0x03, .uint, .const, 0, 0, 176, 0, mx⟩,
   ⟨0x1018, 1, 0x04, .uint, .const, 0, 0, 0, 0, mx⟩,
   ⟨0x1200, 1, 0x01, .uint, .ro, 0, 0, 1536, 0, mx⟩,
   ⟨0x1200, 1, 0x02, .uint, .ro, 0, 0, 1408, 0, mx⟩]

/-- Entries of 0x2000 upward. -/
def entries2000a : List Entry :=
  [⟨0x2000, 1, 0x01, .uint, .const, 0, 0, 18482, 0, mx⟩,
   ⟨0x2000, 1, 0x02, .uint, .const, 0, 0, 176, 0, mx⟩,
   ⟨0x2000, 1, 0x03, .text, .const, 0, 0, 0, 0, mx⟩,
   ⟨0x2000, 1, 0x04, .uint, .ro, 0, 0, 0, 0, mx⟩,
   ⟨0x2000, 1, 0x05, .bool, .ro, 0, 0, 0, 0, 1⟩,
   ⟨0x2000, 1, 0x06, .uint, .ro, 0, 0, 0, 0, mx⟩,
   ⟨0x2000, 1, 0x07, .uint, .ro, 0, 0, 0, 0, mx⟩,
   ⟨0x2000, 1, 0x08, .uint, .ro, 0, 0, 0, 0, 1000⟩,
   ⟨0x2000, 1, 0x09, .uint, .ro, 0, 0, 0, 0, mx⟩,
   ⟨0x2000, 1, 0x0A, .uint, .ro, 0, 0, 0, 0, mx⟩,
   ⟨0x2000, 1, 0x10, .uint, .wo, 0, 3, 0, 0, mx⟩,
   ⟨0x2000, 1, 0x20, .octets, .wo, 0, 3, 0, 0, mx⟩,
   ⟨0x2000, 1, 0x21, .octets, .ro, 0, 0, 0, 0, mx⟩,
   ⟨0x2000, 1, 0x22, .uint, .ro, 0, 0, 0, 0, mx⟩,
   ⟨0x2000, 1, 0x23, .uint, .ro, 0, 0, 0, 0, 8⟩,
   ⟨0x2000, 1, 0x24, .uint, .ro, 0, 0, 0, 0, mx⟩,
   ⟨0x2000, 1, 0x25, .uint, .ro, 0, 0, 0, 0, mx⟩,
   ⟨0x2000, 1, 0x26, .bool, .wo, 0, 3, 0, 0, mx⟩]

/-- Entries of 0x2100 upward. -/
def entries2100a : List Entry :=
  [⟨0x2100, 1, 0x01, .uint, .ro, 0, 0, 0, 0, mx⟩,
   ⟨0x2100, 1, 0x02, .uint, .ro, 0, 0, 0, 0, mx⟩,
   ⟨0x2100, 1, 0x03, .uint, .ro, 0, 0, 0, 0, mx⟩,
   ⟨0x2100, 1, 0x04, .uint, .ro, 0, 0, 0, 0, mx⟩,
   ⟨0x2100, 1, 0x05, .uint, .ro, 0, 0, 0, 0, mx⟩,
   ⟨0x2100, 1, 0x06, .uint, .ro, 0, 0, 0, 0, mx⟩,
   ⟨0x2100, 1, 0x07, .uint, .ro, 0, 0, 0, 0, mx⟩,
   ⟨0x2100, 1, 0x08, .uint, .ro, 0, 0, 0, 0, mx⟩,
   ⟨0x2100, 1, 0x10, .uint, .rw, 0, 3, 6, 0, 32⟩,
   ⟨0x2100, 1, 0x11, .uint, .rw, 0, 3, 6, 0, 32⟩,
   ⟨0x2100, 1, 0x12, .uint, .rw, 0, 3, 6, 0, 32⟩,
   ⟨0x2100, 1, 0x13, .uint, .rw, 0, 3, 6, 0, 32⟩,
   ⟨0x2100, 1, 0x14, .uint, .rw, 0, 3, 6, 0, 32⟩,
   ⟨0x2100, 1, 0x15, .uint, .rw, 0, 3, 5, 2, 32⟩,
   ⟨0x2100, 1, 0x16, .uint, .rw, 0, 3, 8, 0, 32⟩,
   ⟨0x2100, 1, 0x17, .uint, .rw, 0, 3, 12, 0, 32⟩,
   ⟨0x2100, 1, 0x18, .uint, .rw, 0, 3, 1, 0, 32⟩,
   ⟨0x2100, 1, 0x19, .uint, .rw, 0, 3, 3, 1, 32⟩,
   ⟨0x2100, 1, 0x1A, .uint, .rw, 0, 3, 2, 2, 32⟩,
   ⟨0x2100, 1, 0x1B, .uint, .rw, 0, 3, 2, 2, 32⟩,
   ⟨0x2100, 1, 0x1C, .uint, .rw, 0, 3, 1, 1, 32⟩,
   ⟨0x2100, 1, 0x1D, .octets, .ro, 0, 0, 0, 0, mx⟩,
   ⟨0x2100, 1, 0x30, .uint, .wo, 0, 3, 0, 0, mx⟩]

/-- Entries of 0x2200 upward. -/
def entries2200a : List Entry :=
  [⟨0x2200, 1, 0x01, .uint, .ro, 0, 0, 0, 0, mx⟩,
   ⟨0x2200, 1, 0x02, .uint, .ro, 0, 0, 0, 0, mx⟩,
   ⟨0x2200, 1, 0x03, .uint, .ro, 0, 0, 0, 0, mx⟩,
   ⟨0x2200, 1, 0x04, .uint, .ro, 0, 0, 0, 0, mx⟩,
   ⟨0x2200, 1, 0x05, .uint, .ro, 0, 0, 0, 0, mx⟩,
   ⟨0x2200, 1, 0x06, .uint, .wo, 0, 2, 0, 0, mx⟩,
   ⟨0x2200, 1, 0x07, .uint, .ro, 0, 0, 0, 0, mx⟩,
   ⟨0x2200, 1, 0x08, .uint, .ro, 0, 0, 0, 0, mx⟩,
   ⟨0x2200, 1, 0x09, .uint, .ro, 0, 0, 0, 0, mx⟩,
   ⟨0x2200, 1, 0x0A, .uint, .wo, 0, 1, 0, 0, mx⟩,
   ⟨0x2210, 16, 0x01, .uint, .ro, 0, 0, 0, 0, mx⟩,
   ⟨0x2210, 16, 0x02, .uint, .ro, 0, 0, 0, 1, 160000⟩,
   ⟨0x2210, 16, 0x03, .uint, .ro, 0, 0, 0, 0, mx⟩,
   ⟨0x2210, 16, 0x04, .uint, .ro, 0, 0, 0, 0, mx⟩,
   ⟨0x2210, 16, 0x05, .uint, .ro, 0, 0, 0, 0, mx⟩,
   ⟨0x2210, 16, 0x06, .uint, .ro, 0, 0, 0, 0, mx⟩,
   ⟨0x2210, 16, 0x07, .uint, .ro, 0, 0, 0, 0, mx⟩,
   ⟨0x2210, 16, 0x08, .uint, .ro, 0, 0, 0, 0, mx⟩,
   ⟨0x2210, 16, 0x09, .uint, .ro, 0, 0, 0, 0, mx⟩,
   ⟨0x2210, 16, 0x0A, .uint, .ro, 0, 0, 0, 0, mx⟩,
   ⟨0x2210, 16, 0x0B, .uint, .ro, 0, 0, 0, 0, mx⟩,
   ⟨0x2210, 16, 0x0C, .pair, .ro, 0, 0, 0, 0, mx⟩,
   ⟨0x2210, 16, 0x0D, .pair, .ro, 0, 0, 0, 0, mx⟩,
   ⟨0x2210, 16, 0x0E, .uint, .ro, 0, 0, 0, 0, mx⟩,
   ⟨0x2210, 16, 0x10, .uint, .ro, 0, 0, 0, 0, mx⟩]

/-- Entries of 0x2300 upward. -/
def entries2300a : List Entry :=
  [⟨0x2300, 1, 0x01, .uint, .ro, 0, 0, 10000, 0, mx⟩,
   ⟨0x2300, 1, 0x02, .uint, .ro, 0, 0, 10000, 0, mx⟩,
   ⟨0x2300, 1, 0x03, .uint, .ro, 0, 0, 10000, 0, mx⟩,
   ⟨0x2300, 1, 0x04, .uint, .ro, 0, 0, 10000, 0, mx⟩,
   ⟨0x2300, 1, 0x05, .uint, .ro, 0, 0, 0, 0, mx⟩,
   ⟨0x2300, 1, 0x06, .uint, .ro, 0, 0, 0, 0, mx⟩,
   ⟨0x2300, 1, 0x07, .uint, .ro, 0, 0, 0, 0, mx⟩,
   ⟨0x2300, 1, 0x08, .uint, .ro, 0, 0, 0, 0, 40000⟩,
   ⟨0x2300, 1, 0x09, .pair, .ro, 0, 0, 0, 0, mx⟩,
   ⟨0x2300, 1, 0x0A, .uint, .ro, 0, 0, 0, 0, mx⟩,
   ⟨0x2300, 1, 0x0B, .uint, .ro, 0, 0, 0, 0, 40000⟩,
   ⟨0x2300, 1, 0x0C, .uint, .ro, 0, 0, 0, 0, mx⟩,
   ⟨0x2300, 1, 0x10, .uint, .ro, 0, 0, 0x8076543210, 0, mx⟩,
   ⟨0x2300, 1, 0x11, .uint, .ro, 0, 0, 0x8076543210, 0, mx⟩,
   ⟨0x2300, 1, 0x12, .uint, .ro, 0, 0, 0x8076543210, 0, mx⟩,
   ⟨0x2300, 1, 0x13, .uint, .ro, 0, 0, 0x8076543210, 0, mx⟩,
   ⟨0x2300, 1, 0x14, .uint, .ro, 0, 0, 0, 0, mx⟩,
   ⟨0x2300, 1, 0x30, .uint, .wo, 0, 2, 0, 0, mx⟩,
   ⟨0x2300, 1, 0x31, .uint, .ro, 0, 0, 0, 0, mx⟩]

/-- Entries of 0x2400 upward. -/
def entries2400a : List Entry :=
  [⟨0x2400, 1, 0x01, .bool, .rw, 0, 3, 0, 0, mx⟩,
   ⟨0x2400, 1, 0x02, .uint, .ro, 0, 0, 0, 0, mx⟩,
   ⟨0x2400, 1, 0x03, .uint, .ro, 0, 0, 0, 0, mx⟩,
   ⟨0x2400, 1, 0x04, .uint, .ro, 0, 0, 15, 0, mx⟩,
   ⟨0x2400, 1, 0x05, .uint, .rw, 0, 3, 0, 0, mx⟩,
   ⟨0x2400, 1, 0x06, .bool, .rw, 0, 3, 0, 0, 1⟩,
   ⟨0x2400, 1, 0x07, .uint, .rw, 0, 3, 60, 1, 3600⟩,
   ⟨0x2400, 1, 0x08, .uint, .rw, 0, 2, 10, 1, 1000⟩,
   ⟨0x2400, 1, 0x09, .uint, .rw, 0, 2, 100, 1, 10000⟩,
   ⟨0x2400, 1, 0x0A, .uint, .ro, 0, 0, 0, 0, mx⟩,
   ⟨0x2400, 1, 0x0B, .uint, .ro, 0, 0, 0, 0, 8000⟩,
   ⟨0x2400, 1, 0x0C, .uint, .ro, 0, 0, 0, 0, mx⟩,
   ⟨0x2400, 1, 0x0D, .uint, .ro, 0, 0, 0, 0, mx⟩,
   ⟨0x2400, 1, 0x0E, .uint, .ro, 0, 0, 0, 0, mx⟩,
   ⟨0x2400, 1, 0x0F, .uint, .ro, 0, 0, 0, 0, mx⟩,
   ⟨0x2400, 1, 0x10, .uint, .ro, 0, 0, 0, 0, mx⟩,
   ⟨0x2400, 1, 0x11, .pair, .ro, 0, 0, 0, 0, mx⟩,
   ⟨0x2400, 1, 0x12, .uint, .ro, 0, 0, 0, 0, mx⟩,
   ⟨0x2400, 1, 0x13, .uint, .ro, 0, 0, 0, 0, mx⟩,
   ⟨0x2400, 1, 0x20, .uint, .wo, 0, 3, 0, 0, mx⟩]

/-- Entries of 0x2500 upward. -/
def entries2500a : List Entry :=
  [⟨0x2500, 1, 0x01, .uint, .wo, 0, 3, 0, 0, mx⟩,
   ⟨0x2500, 1, 0x03, .bool, .rw, 0, 3, 0, 0, 1⟩,
   ⟨0x2500, 1, 0x04, .uint, .ro, 0, 0, 0, 0, mx⟩,
   ⟨0x2500, 1, 0x05, .uint, .rw, 0, 3, 60, 1, 3600⟩,
   ⟨0x2500, 1, 0x06, .uint, .ro, 0, 0, 0, 0, mx⟩,
   ⟨0x2500, 1, 0x07, .uint, .ro, 0, 0, 0, 0, mx⟩,
   ⟨0x2500, 1, 0x08, .uint, .ro, 0, 0, 0, 0, mx⟩,
   ⟨0x2500, 1, 0x0A, .uint, .wo, 0, 3, 0, 0, mx⟩,
   ⟨0x2500, 1, 0x0B, .uint, .ro, 0, 0, 0, 0, mx⟩,
   ⟨0x2510, 6, 0x01, .octets, .wo, 0, 3, 0, 0, mx⟩,
   ⟨0x2510, 6, 0x02, .domain, .wo, 0, 3, 0, 0, mx⟩,
   ⟨0x2510, 6, 0x03, .uint, .ro, 0, 0, 0, 0, mx⟩,
   ⟨0x2510, 6, 0x04, .pair, .rw, 0, 3, 0, 0, mx⟩,
   ⟨0x2510, 6, 0x05, .uint, .ro, 0, 0, 0, 0, mx⟩,
   ⟨0x2510, 6, 0x06, .uint, .ro, 0, 0, 0, 0, mx⟩,
   ⟨0x2510, 6, 0x07, .uint, .ro, 0, 0, 0, 0, mx⟩,
   ⟨0x2510, 6, 0x08, .uint, .ro, 0, 0, 0, 0, mx⟩,
   ⟨0x2510, 6, 0x09, .uint, .ro, 0, 0, 0, 0, mx⟩,
   ⟨0x2510, 6, 0x0A, .pair, .ro, 0, 0, 0, 0, mx⟩]

/-- Entries of 0x2600 upward. -/
def entries2600a : List Entry :=
  [⟨0x2600, 1, 0x01, .uint, .ro, 0, 0, 0, 0, mx⟩,
   ⟨0x2600, 1, 0x02, .uint, .ro, 0, 0, 0, 0, mx⟩,
   ⟨0x2600, 1, 0x03, .uint, .const, 0, 0, 0x4c4b4, 312500, 312500⟩,
   ⟨0x2600, 1, 0x04, .uint, .ro, 0, 0, 50, 0, mx⟩,
   ⟨0x2600, 1, 0x05, .real, .ro, 0, 0, 0, 0, mx⟩,
   ⟨0x2600, 1, 0x06, .uint, .ro, 0, 0, 0, 0, 7⟩,
   ⟨0x2600, 1, 0x07, .uint, .wo, 0, 2, 0, 0, mx⟩,
   ⟨0x2600, 1, 0x08, .uint, .ro, 0, 0, 0, 0, mx⟩,
   ⟨0x2600, 1, 0x09, .uint, .ro, 0, 0, 0, 0, mx⟩,
   ⟨0x2600, 1, 0x0A, .uint, .ro, 0, 0, 0, 0, mx⟩,
   ⟨0x2600, 1, 0x0B, .uint, .wo, 0, 1, 0, 0, mx⟩,
   ⟨0x2600, 1, 0x0C, .uint, .ro, 0, 0, 0, 0, mx⟩,
   ⟨0x2600, 1, 0x0D, .domain, .ro, 0, 0, 0, 0, mx⟩,
   ⟨0x2600, 1, 0x0E, .uint, .ro, 0, 0, 0, 0, mx⟩,
   ⟨0x2600, 1, 0x0F, .uint, .ro, 0, 0, 0, 0, mx⟩,
   ⟨0x2600, 1, 0x10, .uint, .ro, 0, 0, 0, 0, mx⟩,
   ⟨0x2600, 1, 0x11, .pair, .ro, 0, 0, 0, 0, mx⟩,
   ⟨0x2600, 1, 0x12, .uint, .ro, 0, 0, 0, 0, mx⟩,
   ⟨0x2610, 16, 0x01, .uint, .ro, 0, 0, 0, 0, mx⟩,
   ⟨0x2610, 16, 0x02, .uint, .ro, 0, 0, 0, 0, mx⟩,
   ⟨0x2610, 16, 0x03, .real, .ro, 0, 0, 0, 0, mx⟩,
   ⟨0x2610, 16, 0x04, .int, .ro, 0, 0, 0, 0, mx⟩,
   ⟨0x2610, 16, 0x05, .pair, .ro, 0, 0, 0, 0, mx⟩,
   ⟨0x2610, 16, 0x06, .real, .ro, 0, 0, 0x3f800000, 0, mx⟩,
   ⟨0x2610, 16, 0x07, .uint, .ro, 0, 0, 0, 0, mx⟩,
   ⟨0x2610, 16, 0x08, .uint, .ro, 0, 0, 0, 0, mx⟩,
   ⟨0x2620, 16, 0x01, .text, .ro, 0, 0, 0, 0, mx⟩,
   ⟨0x2620, 16, 0x02, .uint, .ro, 0, 0, 0, 0, mx⟩,
   ⟨0x2620, 16, 0x03, .uint, .ro, 0, 0, 0, 0, mx⟩,
   ⟨0x2620, 16, 0x04, .uint, .ro, 0, 0, 0, 0, mx⟩,
   ⟨0x2620, 16, 0x05, .uint, .ro, 0, 0, 0, 0, mx⟩,
   ⟨0x2620, 16, 0x06, .uint, .ro, 0, 0, 0, 0, mx⟩,
   ⟨0x2620, 16, 0x07, .uint, .ro, 0, 0, 0, 0, mx⟩,
   ⟨0x2620, 16, 0x08, .uint, .ro, 0, 0, 0, 0, 8⟩,
   ⟨0x2620, 16, 0x09, .bool, .ro, 0, 0, 0, 0, 1⟩,
   ⟨0x2630, 8, 0x01, .uint, .ro, 0, 0, 0, 0, mx⟩,
   ⟨0x2630, 8, 0x02, .uint, .ro, 0, 0, 0, 0, mx⟩,
   ⟨0x2630, 8, 0x03, .real, .ro, 0, 0, 0, 0, mx⟩,
   ⟨0x2630, 8, 0x04, .real, .ro, 0, 0, 0, 0, mx⟩,
   ⟨0x2630, 8, 0x05, .uint, .ro, 0, 0, 0, 0, mx⟩]

/-- Entries of 0x2600 upward. -/
def entries2600b : List Entry :=
  [⟨0x2630, 8, 0x06, .real, .ro, 0, 0, 0x3f800000, 0, mx⟩,
   ⟨0x2630, 8, 0x07, .uint, .ro, 0, 0, 1000, 20, 60000⟩,
   ⟨0x2630, 8, 0x08, .real, .ro, 0, 0, 0x41a00000, 5, 50⟩,
   ⟨0x2630, 8, 0x09, .uint, .ro, 0, 0, 0, 0, mx⟩]

/-- Entries of 0x2700 upward. -/
def entries2700a : List Entry :=
  [⟨0x2700, 8, 0x01, .octets, .ro, 0, 0, 0, 0, mx⟩,
   ⟨0x2700, 8, 0x02, .octets, .ro, 0, 0, 0, 0, mx⟩,
   ⟨0x2700, 8, 0x03, .octets, .ro, 0, 0, 0, 0, mx⟩,
   ⟨0x2700, 8, 0x04, .octets, .ro, 0, 0, 0, 0, mx⟩,
   ⟨0x2700, 8, 0x05, .octets, .ro, 0, 0, 0, 0, mx⟩,
   ⟨0x2700, 8, 0x06, .octets, .ro, 0, 0, 0, 0, mx⟩,
   ⟨0x2700, 8, 0x07, .octets, .ro, 0, 0, 0, 0, mx⟩,
   ⟨0x2700, 8, 0x08, .octets, .ro, 0, 0, 0, 0, mx⟩,
   ⟨0x2700, 8, 0x09, .uint, .ro, 0, 0, 0, 0, mx⟩,
   ⟨0x2700, 8, 0x0A, .uint, .wo, 0, 3, 0, 0, mx⟩,
   ⟨0x2700, 8, 0x0B, .pair, .ro, 0, 0, 0, 0, mx⟩,
   ⟨0x2700, 8, 0x0C, .uint, .ro, 0, 0, 0, 0, mx⟩,
   ⟨0x2700, 8, 0x0D, .uint, .ro, 0, 0, 0, 0, mx⟩]

/-- Entries of 0x2800 upward. -/
def entries2800a : List Entry :=
  [⟨0x2800, 1, 0x01, .uint, .ro, 0, 0, 0, 0, mx⟩,
   ⟨0x2800, 1, 0x02, .uint, .ro, 0, 0, 0, 0, mx⟩,
   ⟨0x2800, 1, 0x03, .uint, .rw, 0, 2, 0, 0, mx⟩,
   ⟨0x2800, 1, 0x04, .uint, .ro, 0, 0, 0, 0, mx⟩,
   ⟨0x2800, 1, 0x05, .uint, .ro, 0, 0, 0, 0, mx⟩,
   ⟨0x2800, 1, 0x06, .uint, .ro, 0, 0, 0, 0, mx⟩,
   ⟨0x2800, 1, 0x07, .uint, .ro, 0, 0, 0, 0, mx⟩,
   ⟨0x2800, 1, 0x08, .uint, .ro, 0, 0, 0, 0, mx⟩,
   ⟨0x2800, 1, 0x09, .bool, .rw, 0, 2, 0, 0, 1⟩,
   ⟨0x2810, 48, 0x01, .uint, .rw, 0, 2, 2000, 0, mx⟩,
   ⟨0x2810, 48, 0x02, .uint, .rw, 0, 2, 0, 0, mx⟩,
   ⟨0x2810, 48, 0x03, .uint, .ro, 0, 0, 0, 0, mx⟩,
   ⟨0x2810, 48, 0x04, .bool, .wo, 0, 1, 0, 1, 1⟩,
   ⟨0x2810, 48, 0x05, .uint, .rw, 0, 2, 0, 0, mx⟩,
   ⟨0x2810, 48, 0x06, .real, .ro, 0, 0, 0, 0, mx⟩,
   ⟨0x2810, 48, 0x07, .bool, .rw, 0, 2, 0, 0, 1⟩,
   ⟨0x2810, 48, 0x08, .octets, .ro, 0, 0, 0, 0, mx⟩,
   ⟨0x2840, 24, 0x01, .uint, .rw, 0, 2, 0, 0, mx⟩,
   ⟨0x2840, 24, 0x02, .uint, .rw, 0, 2, 100, 1, 65000⟩,
   ⟨0x2840, 24, 0x03, .uint, .rw, 0, 2, 0, 0, mx⟩,
   ⟨0x2840, 24, 0x04, .uint, .rw, 0, 2, 0, 0, mx⟩,
   ⟨0x2840, 24, 0x05, .bool, .rw, 0, 2, 0, 0, 1⟩,
   ⟨0x2840, 24, 0x06, .uint, .ro, 0, 0, 0, 0, mx⟩,
   ⟨0x2840, 24, 0x07, .uint, .ro, 0, 0, 0, 0, mx⟩,
   ⟨0x2840, 24, 0x08, .bool, .wo, 0, 1, 0, 1, 1⟩,
   ⟨0x2860, 8, 0x01, .uint, .rw, 0, 2, 0, 0, mx⟩,
   ⟨0x2860, 8, 0x02, .int, .ro, 0, 0, 0, 0, mx⟩,
   ⟨0x2860, 8, 0x03, .real, .ro, 0, 0, 0x3f800000, 0, mx⟩,
   ⟨0x2860, 8, 0x04, .uint, .wo, 0, 2, 0, 0, mx⟩,
   ⟨0x2860, 8, 0x05, .uint, .ro, 0, 0, 0, 0, mx⟩,
   ⟨0x2860, 8, 0x06, .uint, .ro, 0, 0, 0, 0, mx⟩,
   ⟨0x2860, 8, 0x07, .uint, .rw, 0, 2, 0, 0, mx⟩,
   ⟨0x2868, 4, 0x01, .uint, .rw, 0, 2, 0, 0, mx⟩,
   ⟨0x2868, 4, 0x02, .uint, .rw, 0, 2, 0, 0, mx⟩,
   ⟨0x2868, 4, 0x03, .uint, .rw, 0, 2, 0, 0, mx⟩,
   ⟨0x2868, 4, 0x04, .bool, .rw, 0, 2, 0, 0, 1⟩,
   ⟨0x2868, 4, 0x05, .uint, .ro, 0, 0, 0, 0, mx⟩,
   ⟨0x2868, 4, 0x06, .uint, .ro, 0, 0, 0, 0, mx⟩]

/-- Entries of 0x2900 upward. -/
def entries2900a : List Entry :=
  [⟨0x2900, 1, 0x01, .uint, .rw, 0, 3, 15, 0, mx⟩,
   ⟨0x2900, 1, 0x02, .uint, .rw, 0, 3, 0, 0, mx⟩,
   ⟨0x2900, 1, 0x03, .uint, .rw, 0, 3, 0, 0, mx⟩,
   ⟨0x2900, 1, 0x04, .octets, .ro, 0, 0, 0, 0, mx⟩,
   ⟨0x2900, 1, 0x05, .octets, .ro, 0, 0, 0, 0, mx⟩,
   ⟨0x2900, 1, 0x06, .octets, .rw, 0, 3, 0, 0, mx⟩,
   ⟨0x2900, 1, 0x07, .octets, .rw, 0, 3, 0, 0, mx⟩,
   ⟨0x2900, 1, 0x08, .uint, .rw, 0, 3, 0, 0, mx⟩,
   ⟨0x2900, 1, 0x09, .uint, .rw, 0, 3, 0xffffff00, 0, mx⟩,
   ⟨0x2900, 1, 0x0A, .uint, .rw, 0, 3, 0, 0, mx⟩,
   ⟨0x2900, 1, 0x0B, .uint, .rw, 0, 2, 4, 0, mx⟩,
   ⟨0x2900, 1, 0x0C, .uint, .rw, 0, 2, 400, 10, 1000⟩,
   ⟨0x2900, 1, 0x10, .uint, .ro, 0, 0, 0, 0, 64⟩,
   ⟨0x2900, 1, 0x11, .uint, .ro, 0, 0, 0, 0, 256⟩,
   ⟨0x2900, 1, 0x12, .uint, .ro, 0, 0, 0, 0, mx⟩,
   ⟨0x2900, 1, 0x13, .uint, .ro, 0, 0, 0, 0, mx⟩,
   ⟨0x2900, 1, 0x14, .uint, .rw, 0, 2, 2, 1, 100⟩,
   ⟨0x2900, 1, 0x15, .uint, .rw, 0, 2, 1000, 100, 60000⟩,
   ⟨0x2900, 1, 0x16, .octets, .ro, 0, 0, 0, 0, mx⟩,
   ⟨0x2900, 1, 0x17, .uint, .ro, 0, 0, 0, 0, mx⟩,
   ⟨0x2900, 1, 0x20, .uint, .rw, 0, 3, 0, 0, mx⟩,
   ⟨0x2900, 1, 0x21, .uint, .rw, 0, 3, 1, 1, 127⟩,
   ⟨0x2900, 1, 0x22, .uint, .rw, 0, 3, 127, 1, 127⟩,
   ⟨0x2900, 1, 0x23, .uint, .rw, 0, 3, 0, 0, mx⟩,
   ⟨0x2900, 1, 0x30, .octets, .ro, 0, 0, 0, 0, mx⟩,
   ⟨0x2910, 4, 0x01, .uint, .rw, 0, 3, 0, 0, mx⟩,
   ⟨0x2910, 4, 0x02, .uint, .rw, 0, 2, 0, 0, mx⟩,
   ⟨0x2910, 4, 0x03, .uint, .ro, 0, 0, 0, 0, mx⟩,
   ⟨0x2910, 4, 0x04, .uint, .ro, 0, 0, 0, 0, mx⟩,
   ⟨0x2910, 4, 0x05, .uint, .ro, 0, 0, 65535, 0, mx⟩,
   ⟨0x2910, 4, 0x06, .bool, .wo, 0, 2, 0, 1, 1⟩,
   ⟨0x2910, 4, 0x07, .uint, .ro, 0, 0, 0, 0, mx⟩,
   ⟨0x2910, 4, 0x08, .uint, .ro, 0, 0, 0, 0, mx⟩,
   ⟨0x2910, 4, 0x09, .uint, .ro, 0, 0, 0, 0, mx⟩,
   ⟨0x2910, 4, 0x0A, .uint, .ro, 0, 0, 0, 0, mx⟩,
   ⟨0x2910, 4, 0x0B, .uint, .ro, 0, 0, 0, 0, mx⟩,
   ⟨0x2910, 4, 0x0C, .uint, .ro, 0, 0, 0, 0, mx⟩,
   ⟨0x2910, 4, 0x0D, .octets, .ro, 0, 0, 0, 0, mx⟩,
   ⟨0x2920, 4, 0x01, .uint, .rw, 0, 2, 0, 0, mx⟩,
   ⟨0x2920, 4, 0x02, .uint, .rw, 0, 2, 0x7a120, 0, mx⟩]

/-- Entries of 0x2900 upward. -/
def entries2900b : List Entry :=
  [⟨0x2920, 4, 0x03, .uint, .rw, 0, 2, 0, 0, mx⟩,
   ⟨0x2920, 4, 0x04, .uint, .rw, 0, 2, 19280, 0, mx⟩,
   ⟨0x2920, 4, 0x05, .uint, .rw, 0, 2, 0, 0, mx⟩,
   ⟨0x2920, 4, 0x06, .bool, .wo, 0, 1, 0, 1, 1⟩,
   ⟨0x2920, 4, 0x07, .uint, .ro, 0, 0, 0, 0, mx⟩,
   ⟨0x2920, 4, 0x08, .uint, .rw, 0, 2, 16, 0, mx⟩,
   ⟨0x2920, 4, 0x09, .uint, .rw, 0, 2, 10, 0, mx⟩,
   ⟨0x2920, 4, 0x0A, .uint, .ro, 0, 0, 0, 0, mx⟩,
   ⟨0x2920, 4, 0x0B, .uint, .ro, 0, 0, 0, 0, mx⟩,
   ⟨0x2920, 4, 0x0C, .uint, .ro, 0, 0, 0, 0, mx⟩,
   ⟨0x2920, 4, 0x0D, .uint, .ro, 0, 0, 0, 0, mx⟩,
   ⟨0x2920, 4, 0x0E, .uint, .ro, 0, 0, 0, 0, 2000⟩,
   ⟨0x2920, 4, 0x0F, .uint, .rw, 0, 2, 120, 0, 1000⟩,
   ⟨0x2920, 4, 0x10, .real, .rw, 0, 2, 0x40a00000, 0, mx⟩,
   ⟨0x2920, 4, 0x11, .uint, .ro, 0, 0, 0, 0, 1000⟩]

/-- Entries of 0x2A00 upward. -/
def entries2A00a : List Entry :=
  [⟨0x2A00, 1, 0x01, .uint, .ro, 0, 0, 0, 0, mx⟩,
   ⟨0x2A00, 1, 0x02, .pair, .ro, 0, 0, 0, 0, mx⟩,
   ⟨0x2A00, 1, 0x03, .int, .ro, 0, 0, 0, 0, mx⟩,
   ⟨0x2A00, 1, 0x04, .octets, .ro, 0, 0, 0, 0, mx⟩,
   ⟨0x2A00, 1, 0x05, .uint, .ro, 0, 0, 0, 0, 255⟩,
   ⟨0x2A00, 1, 0x06, .uint, .rw, 0, 3, 0, 0, mx⟩,
   ⟨0x2A00, 1, 0x07, .uint, .rw, 0, 3, 0, 0, mx⟩,
   ⟨0x2A00, 1, 0x08, .uint, .rw, 0, 3, 128, 0, 255⟩,
   ⟨0x2A00, 1, 0x09, .uint, .rw, 0, 3, 128, 0, 255⟩,
   ⟨0x2A00, 1, 0x0A, .uint, .rw, 0, 3, 0, 0, 255⟩,
   ⟨0x2A00, 1, 0x0B, .uint, .rw, 0, 3, 0, 0, mx⟩,
   ⟨0x2A00, 1, 0x0C, .uint, .rw, 0, 3, 3600, 1, 86400⟩,
   ⟨0x2A00, 1, 0x0D, .int, .ro, 0, 0, 37, 0, mx⟩,
   ⟨0x2A00, 1, 0x0E, .uint, .rw, 0, 3, 0, 0, mx⟩,
   ⟨0x2A00, 1, 0x0F, .bool, .wo, 0, 3, 0, 0, mx⟩,
   ⟨0x2A00, 1, 0x10, .uint, .rw, 0, 3, 100, 10, 500⟩,
   ⟨0x2A00, 1, 0x11, .uint, .ro, 0, 0, 0, 0, mx⟩,
   ⟨0x2A00, 1, 0x12, .uint, .ro, 0, 0, 0, 0, mx⟩,
   ⟨0x2A00, 1, 0x20, .octets, .ro, 0, 0, 0, 0, mx⟩,
   ⟨0x2A00, 1, 0x21, .octets, .wo, 0, 3, 0, 0, mx⟩,
   ⟨0x2A00, 1, 0x22, .uint, .rw, 0, 3, 1, 1, 7⟩,
   ⟨0x2A00, 1, 0x23, .uint, .ro, 0, 0, 0, 0, mx⟩,
   ⟨0x2A00, 1, 0x24, .int, .wo, 0, 3, 0, 0, mx⟩,
   ⟨0x2A00, 1, 0x25, .bool, .rw, 0, 3, 1, 0, 1⟩,
   ⟨0x2A00, 1, 0x26, .int, .ro, 0, 0, 0, 0, mx⟩,
   ⟨0x2A00, 1, 0x27, .uint, .wo, 0, 1, 0, 0, mx⟩]

/-- Entries of 0x2B00 upward. -/
def entries2B00a : List Entry :=
  [⟨0x2B00, 1, 0x01, .uint, .const, 0, 0, 64260, 64260, 64260⟩,
   ⟨0x2B00, 1, 0x02, .uint, .ro, 0, 0, 0, 0, 64260⟩,
   ⟨0x2B00, 1, 0x03, .uint, .ro, 0, 0, 0, 0, mx⟩,
   ⟨0x2B00, 1, 0x04, .uint, .ro, 0, 0, 0, 0, mx⟩,
   ⟨0x2B00, 1, 0x05, .uint, .ro, 0, 0, 0, 0, mx⟩,
   ⟨0x2B00, 1, 0x06, .uint, .ro, 0, 0, 0, 0, mx⟩,
   ⟨0x2B00, 1, 0x07, .uint, .ro, 0, 0, 0, 0, mx⟩,
   ⟨0x2B00, 1, 0x08, .pair, .ro, 0, 0, 0, 0, mx⟩,
   ⟨0x2B00, 1, 0x09, .uint, .ro, 0, 0, 0, 0, mx⟩,
   ⟨0x2B00, 1, 0x0A, .domain, .rw, 0, 2, 0, 0, mx⟩,
   ⟨0x2B00, 1, 0x0B, .domain, .rw, 0, 2, 0, 0, mx⟩,
   ⟨0x2B00, 1, 0x10, .domain, .ro, 0, 0, 0, 0, mx⟩,
   ⟨0x2B00, 1, 0x20, .uint, .wo, 0, 3, 0, 0, mx⟩]

/-- Entries of 0x2C00 upward. -/
def entries2C00a : List Entry :=
  [⟨0x2C00, 1, 0x01, .uint, .ro, 0, 0, 0x10000, 0, mx⟩,
   ⟨0x2C00, 1, 0x02, .uint, .ro, 0, 0, 0, 0, mx⟩,
   ⟨0x2C00, 1, 0x03, .bool, .ro, 0, 0, 0, 0, 1⟩,
   ⟨0x2C00, 1, 0x04, .uint, .ro, 0, 0, 0, 0, mx⟩,
   ⟨0x2C00, 1, 0x05, .uint, .ro, 0, 0, 0, 0, mx⟩,
   ⟨0x2C00, 1, 0x06, .domain, .ro, 0, 0, 0, 0, mx⟩,
   ⟨0x2C00, 1, 0x07, .domain, .ro, 0, 0, 0, 0, mx⟩,
   ⟨0x2C00, 1, 0x08, .bool, .wo, 0, 3, 0, 1, 1⟩,
   ⟨0x2C10, 32, 0x01, .uint, .ro, 0, 0, 0, 1000, 10000000⟩,
   ⟨0x2C10, 32, 0x02, .uint, .ro, 0, 0, 0, 0, mx⟩,
   ⟨0x2C10, 32, 0x03, .uint, .ro, 0, 0, 0, 0, mx⟩,
   ⟨0x2C10, 32, 0x04, .pair, .ro, 0, 0, 0, 0, mx⟩,
   ⟨0x2C10, 32, 0x05, .uint, .ro, 0, 0, 0, 0, mx⟩,
   ⟨0x2C10, 32, 0x06, .uint, .ro, 0, 0, 0, 0, mx⟩,
   ⟨0x2C10, 32, 0x07, .uint, .ro, 0, 0, 0, 0, mx⟩]

/-- Entries of 0x2D00 upward. -/
def entries2D00a : List Entry :=
  [⟨0x2D00, 1, 0x01, .uint, .ro, 0, 0, 0, 0, 2095104⟩,
   ⟨0x2D00, 1, 0x02, .uint, .ro, 0, 0, 0, 0, mx⟩,
   ⟨0x2D00, 1, 0x03, .uint, .ro, 0, 0, 0, 0, 64⟩,
   ⟨0x2D00, 1, 0x04, .uint, .ro, 0, 0, 0, 0, mx⟩,
   ⟨0x2D00, 1, 0x05, .uint, .ro, 0, 0, 0, 0, mx⟩,
   ⟨0x2D00, 1, 0x06, .uint, .ro, 0, 0, 0, 0, mx⟩,
   ⟨0x2D00, 1, 0x07, .uint, .ro, 0, 0, 0, 0, mx⟩,
   ⟨0x2D00, 1, 0x08, .uint, .ro, 0, 0, 0, 0, mx⟩,
   ⟨0x2D00, 1, 0x09, .uint, .ro, 0, 0, 0, 0, mx⟩,
   ⟨0x2D00, 1, 0x0A, .uint, .ro, 0, 0, 0, 0, 350000⟩]

/-- Entries of 0x2E00 upward. -/
def entries2E00a : List Entry :=
  [⟨0x2E00, 1, 0x01, .uint, .ro, 0, 0, 0, 0, mx⟩,
   ⟨0x2E00, 1, 0x02, .real, .ro, 0, 0, 0, 0, mx⟩,
   ⟨0x2E00, 1, 0x03, .uint, .ro, 0, 0, 0, 0, 7⟩,
   ⟨0x2E00, 1, 0x04, .uint, .rw, 0, 2, 0, 0, mx⟩,
   ⟨0x2E00, 1, 0x05, .uint, .rw, 0, 2, 100, 20, 60000⟩,
   ⟨0x2E00, 1, 0x06, .uint, .ro, 0, 0, 0, 0, 127⟩,
   ⟨0x2E00, 1, 0x07, .uint, .ro, 0, 0, 0, 0, mx⟩,
   ⟨0x2E00, 1, 0x08, .uint, .ro, 0, 0, 0, 0, mx⟩,
   ⟨0x2E00, 1, 0x09, .uint, .ro, 0, 0, 0, 0, mx⟩,
   ⟨0x2E00, 1, 0x0A, .uint, .ro, 0, 0, 0, 0, mx⟩,
   ⟨0x2E00, 1, 0x0B, .uint, .ro, 0, 0, 0, 0, mx⟩,
   ⟨0x2E00, 1, 0x10, .domain, .wo, 0, 1, 0, 0, mx⟩,
   ⟨0x2E00, 1, 0x11, .uint, .wo, 0, 1, 0, 0, mx⟩,
   ⟨0x2E00, 1, 0x20, .domain, .rw, 0, 2, 0, 0, mx⟩,
   ⟨0x2E00, 1, 0x21, .domain, .rw, 0, 2, 0, 0, mx⟩,
   ⟨0x2E00, 1, 0x22, .domain, .rw, 0, 2, 0, 0, mx⟩,
   ⟨0x2E00, 1, 0x23, .domain, .rw, 0, 2, 0, 0, mx⟩,
   ⟨0x2E00, 1, 0x24, .domain, .rw, 0, 2, 0, 0, mx⟩,
   ⟨0x2E00, 1, 0x25, .domain, .rw, 0, 2, 0, 0, mx⟩,
   ⟨0x2E00, 1, 0x26, .domain, .rw, 0, 2, 0, 0, mx⟩,
   ⟨0x2E00, 1, 0x27, .domain, .rw, 0, 2, 0, 0, mx⟩]

/-- Entries of 0x2F00 upward. -/
def entries2F00a : List Entry :=
  [⟨0x2F00, 1, 0x01, .real, .ro, 0, 0, 0, 0, mx⟩,
   ⟨0x2F00, 1, 0x02, .real, .ro, 0, 0, 0, 0, mx⟩,
   ⟨0x2F00, 1, 0x03, .real, .ro, 0, 0, 0, 0, mx⟩,
   ⟨0x2F00, 1, 0x04, .real, .ro, 0, 0, 0, 0, mx⟩,
   ⟨0x2F00, 1, 0x05, .bool, .ro, 0, 0, 0, 0, 1⟩,
   ⟨0x2F00, 1, 0x06, .real, .ro, 0, 0, 0, 0, mx⟩,
   ⟨0x2F00, 1, 0x07, .real, .ro, 0, 0, 0, 0, mx⟩,
   ⟨0x2F00, 1, 0x08, .real, .ro, 0, 0, 0, 0, mx⟩,
   ⟨0x2F00, 1, 0x09, .real, .ro, 0, 0, 0, 0, mx⟩,
   ⟨0x2F00, 1, 0x0A, .uint, .ro, 0, 0, 0, 0, mx⟩,
   ⟨0x2F00, 1, 0x0B, .real, .ro, 0, 0, 0xc2200000, 0, mx⟩]

/-- Every entry that a chapter of the manual tabulates (R338). -/
def entries : List Entry :=
  entries1000a ++ entries2000a ++ entries2100a ++ entries2200a ++ entries2300a ++ entries2400a ++ entries2500a ++ entries2600a ++ entries2600b ++ entries2700a ++ entries2800a ++ entries2900a ++ entries2900b ++ entries2A00a ++ entries2B00a ++ entries2C00a ++ entries2D00a ++ entries2E00a ++ entries2F00a

/-- The tabulated entry of an index and subindex (R316). -/
def entryOf (ix sub : Nat) : Option Entry :=
  entries.find? (fun e => decide (e.base ≤ ix) && decide (ix < e.base + e.count) && decide (e.sub = sub))

/-- The highest subindex in use at an index, which subindex 0 of the indices from 0x2000 on holds (R316); none where the
index has no entry. -/
def highestSub (ix : Nat) : Option Nat :=
  match entries.filter (fun e => decide (e.base ≤ ix) && decide (ix < e.base + e.count)) with
  | [] => none
  | l => some (l.foldl (fun m e => max m e.sub) 0)

/-- Key of a register in the register file. -/
def regKey (ix sub : Nat) : Nat := ix * 256 + sub
/-- Key of word 1 of a time-pair register. -/
def regKey1 (ix sub : Nat) : Nat := 0x1000000 + ix * 256 + sub

/-- What a register reads before anything has changed it: the default column of its table, zero where the table gives no
number (log 1). Word 1 of a time pair is zero. -/
def regDefault (k : Nat) : Word :=
  if k < 0x1000000 then
    match entryOf (k / 256) (k % 256) with
    | some e => toWord e.dflt
    | none => 0
  else 0

/-- Read a register as a word. -/
def Chip.rdw (c : Chip) (ix sub : Nat) : Word := Sparse.get regDefault c.regs (regKey ix sub)
/-- Read a register as a number. -/
def Chip.rd (c : Chip) (ix sub : Nat) : Nat := (c.rdw ix sub).toNat
/-- Write a register. -/
def Chip.wr (c : Chip) (ix sub v : Nat) : Chip :=
  { c with regs := Sparse.set regDefault c.regs (regKey ix sub) (toWord v) }
/-- Read a time-pair register. -/
def Chip.rdPair (c : Chip) (ix sub : Nat) : TimePair :=
  ⟨c.rdw ix sub, Sparse.get regDefault c.regs (regKey1 ix sub)⟩
/-- Write a time-pair register. -/
def Chip.wrPair (c : Chip) (ix sub : Nat) (p : TimePair) : Chip :=
  { c with regs := Sparse.set regDefault (Sparse.set regDefault c.regs (regKey ix sub) p.w0) (regKey1 ix sub) p.w1 }
/-- Advance a counter register by n, modulo 2^48. -/
def Chip.bumpBy (c : Chip) (ix sub n : Nat) : Chip := c.wr ix sub (c.rd ix sub + n)
/-- Advance a counter register by one. -/
def Chip.bump (c : Chip) (ix sub : Nat) : Chip := c.bumpBy ix sub 1
/-- Bit i of a register. -/
def Chip.bit (c : Chip) (ix sub i : Nat) : Bool := (c.rd ix sub).testBit i
/-- Set or clear bit i of a register. -/
def Chip.setBit (c : Chip) (ix sub i : Nat) (b : Bool) : Chip :=
  c.wr ix sub (setFieldOf (c.rd ix sub) i i (bit01 b))
/-- A field of a register. -/
def Chip.fld (c : Chip) (ix sub hi lo : Nat) : Nat := fieldOf (c.rd ix sub) hi lo
/-- Replace a field of a register. -/
def Chip.setFld (c : Chip) (ix sub hi lo v : Nat) : Chip := c.wr ix sub (setFieldOf (c.rd ix sub) hi lo v)

/-- Bits of a written register that are not reserved; the device ignores the others (R3). -/
def regMask (ix sub : Nat) : Nat :=
  if ix = 0x2100 ∧ sub = 0x30 then 0xFFF7
  else if ix = 0x2200 ∧ sub = 0x06 then 0xFF
  else if ix = 0x2200 ∧ sub = 0x0A then 0xFFFF
  else if ix = 0x2300 ∧ sub = 0x30 then 0x3F
  else if ix = 0x2400 ∧ sub = 0x20 then 0xF
  else if ix = 0x2500 ∧ sub = 0x01 then 0xF7
  else if ix = 0x2500 ∧ sub = 0x0A then 0xF
  else if ix = 0x2600 ∧ sub = 0x07 then 0x1F
  else if ix = 0x2600 ∧ sub = 0x0B then 0xFF0F
  else if 0x2700 ≤ ix ∧ ix < 0x2708 ∧ sub = 0x0A then 0xFF
  else if ix = 0x2800 ∧ sub = 0x03 then 0x3F
  else if 0x2810 ≤ ix ∧ ix < 0x2840 ∧ sub = 0x02 then 0x7
  else if 0x2860 ≤ ix ∧ ix < 0x2868 ∧ sub = 0x01 then 0x3
  else if ix = 0x2900 ∧ sub = 0x01 then 0xF
  else if ix = 0x2900 ∧ (sub = 0x08 ∨ sub = 0x09 ∨ sub = 0x0A) then 0xFFFFFFFF
  else if ix = 0x2900 ∧ sub = 0x0B then 0xFFF7
  else if 0x2910 ≤ ix ∧ ix < 0x2914 ∧ sub = 0x01 then 0x1F
  else if 0x2920 ≤ ix ∧ ix < 0x2924 ∧ sub = 0x01 then 0x7
  else if 0x2920 ≤ ix ∧ ix < 0x2924 ∧ sub = 0x04 then 0xFFFF
  else if 0x2920 ≤ ix ∧ ix < 0x2924 ∧ sub = 0x08 then 0x7FFFFFFF
  else if ix = 0x2A00 ∧ sub = 0x27 then 0x86
  else if ix = 0x2B00 ∧ sub = 0x20 then 0x1F
  else mx

/-- A contiguous IPv4 mask: ones, then zeros. -/
def contiguousMask (v : Nat) : Bool := (List.range 33).any (fun k => v == 2 ^ 32 - 2 ^ k)

/-- The basic cycles of R307 in ms. -/
def basicCycles : List Nat := [1, 2, 4, 5, 8, 10, 20, 25, 40, 50, 100, 125, 200, 250, 500, 1000]

/-- Whether the bits that are not reserved lie in the range column where the column is no plain interval. -/
def specialRange (ix sub v : Nat) : Bool :=
  if ix = 0x2200 ∧ sub = 0x06 then decide (fieldOf v 7 4 = 1 ∨ fieldOf v 7 4 = 2)
  else if ix = 0x2300 ∧ sub = 0x30 then decide (v < 36)
  else if ix = 0x2400 ∧ sub = 0x01 then decide (v ≤ 1)
  else if ix = 0x2400 ∧ sub = 0x05 then decide (v ≤ 2)
  else if ix = 0x2400 ∧ sub = 0x20 then decide (1 ≤ v ∧ v ≤ 4)
  else if ix = 0x2500 ∧ sub = 0x01 then decide (1 ≤ fieldOf v 7 4 ∧ fieldOf v 7 4 ≤ 5 ∧ fieldOf v 2 0 < 6)
  else if ix = 0x2600 ∧ sub = 0x0B then decide (1 ≤ fieldOf v 3 0 ∧ fieldOf v 3 0 ≤ 3)
  else if 0x2810 ≤ ix ∧ ix < 0x2840 ∧ sub = 0x01 then decide (v ≤ 65535)
  else if 0x2810 ≤ ix ∧ ix < 0x2840 ∧ sub = 0x05 then decide (v ≤ 10000)
  else if 0x2840 ≤ ix ∧ ix < 0x2858 ∧ (sub = 0x01 ∨ sub = 0x04) then decide (v ≤ 1)
  else if 0x2840 ≤ ix ∧ ix < 0x2858 ∧ sub = 0x03 then decide (v ≤ 2)
  else if 0x2860 ≤ ix ∧ ix < 0x2868 ∧ sub = 0x04 then decide (1 ≤ v ∧ v ≤ 3)
  else if 0x2860 ≤ ix ∧ ix < 0x2868 ∧ sub = 0x07 then decide (v ≤ 1)
  else if 0x2868 ≤ ix ∧ ix < 0x286C ∧ sub = 0x01 then decide (v ≤ 2)
  else if 0x2868 ≤ ix ∧ ix < 0x286C ∧ (sub = 0x02 ∨ sub = 0x03) then decide (v ≤ 1)
  else if ix = 0x2900 ∧ (sub = 0x02 ∨ sub = 0x03) then decide (v ≤ 1)
  else if ix = 0x2900 ∧ (sub = 0x06 ∨ sub = 0x07) then decide ((v >>> 40) % 2 = 0)
  else if ix = 0x2900 ∧ sub = 0x09 then contiguousMask v
  else if ix = 0x2900 ∧ sub = 0x20 then decide (v ≤ 4)
  else if ix = 0x2900 ∧ sub = 0x23 then decide (v ≤ 3)
  else if 0x2910 ≤ ix ∧ ix < 0x2914 ∧ sub = 0x01 then decide (fieldOf v 3 0 ≤ 2)
  else if 0x2910 ≤ ix ∧ ix < 0x2914 ∧ sub = 0x02 then decide (v ≤ 3)
  else if 0x2920 ≤ ix ∧ ix < 0x2924 ∧ sub = 0x01 then decide (fieldOf v 1 0 ≤ 2)
  else if 0x2920 ≤ ix ∧ ix < 0x2924 ∧ sub = 0x02 then [125000, 250000, 500000, 800000, 1000000].contains v
  else if 0x2920 ≤ ix ∧ ix < 0x2924 ∧ sub = 0x03 then [0, 1000000, 2000000, 4000000, 5000000].contains v
  else if 0x2920 ≤ ix ∧ ix < 0x2924 ∧ sub = 0x04 then
    decide (50 ≤ fieldOf v 7 0 ∧ fieldOf v 7 0 ≤ 90 ∧ 50 ≤ fieldOf v 15 8 ∧ fieldOf v 15 8 ≤ 90)
  else if 0x2920 ≤ ix ∧ ix < 0x2924 ∧ sub = 0x05 then decide (v ≤ 1)
  else if 0x2920 ≤ ix ∧ ix < 0x2924 ∧ sub = 0x09 then basicCycles.contains v
  else if 0x2920 ≤ ix ∧ ix < 0x2924 ∧ sub = 0x10 then decide (0x40400000 ≤ v ∧ v ≤ 0x41200000)
  else if ix = 0x2A00 ∧ (sub = 0x06 ∨ sub = 0x0B ∨ sub = 0x0E) then decide (v ≤ 1)
  else if ix = 0x2A00 ∧ sub = 0x07 then decide (v ≤ 2)
  else if ix = 0x2A00 ∧ sub = 0x0F then decide (v = 1)
  else if ix = 0x2000 ∧ sub = 0x10 then decide (v = 0x5254)
  else if ix = 0x2000 ∧ sub = 0x26 then decide (v = 1)
  else if ix = 0x2A00 ∧ sub = 0x24 then decide ((1 ≤ v ∧ v ≤ 32767) ∨ (2 ^ 48 - 32767 ≤ v ∧ v < 2 ^ 48))
  else if ix = 0x2B00 ∧ sub = 0x20 then decide (v.testBit 4 = true → fieldOf v 3 0 = 15)
  else if ix = 0x2E00 ∧ sub = 0x04 then decide (v ≤ 1)
  else if ix = 0x2E00 ∧ sub = 0x11 then decide (1 ≤ v ∧ v ≤ 5)
  else true

/-- Check 9 of Table 11-3 on the value written, reserved bits ignored (R3). -/
def rangeOk (e : Entry) (ix sub v : Nat) : Bool :=
  let w := v &&& regMask ix sub
  decide (e.lo ≤ w ∧ w ≤ e.hi) && specialRange ix sub w && !(e.ty == .real && decide (0x7F800000 < w % 2 ^ 31))

/-- Bytes of a value of a type (Table 11-1); none where the owning table gives the length. -/
def tyLen : Ty → Option Nat
  | .bool => some 1
  | .int | .uint => some 6
  | .real => some 4
  | .pair => some 12
  | .octets | .text | .domain => none

/-- Check 6 of Table 11-3: the length of a written value matches its type (R317). -/
def lenOk (e : Entry) (ix sub n : Nat) : Bool :=
  match tyLen e.ty with
  | some k => n == k
  | none =>
    if ix = 0x2000 ∧ sub = 0x20 then n == 36
    else if 0x2510 ≤ ix ∧ ix < 0x2516 ∧ sub = 0x01 then n == 256
    else if 0x2510 ≤ ix ∧ ix < 0x2516 ∧ sub = 0x02 then decide (5 ≤ n ∧ n ≤ 4004)
    else if ix = 0x2900 then n == 6
    else if ix = 0x2A00 ∧ sub = 0x21 then n == 9
    else if ix = 0x2B00 ∧ sub = 0x0A then n == 2304
    else if ix = 0x2B00 ∧ sub = 0x0B then decide (n % 3 = 0 ∧ n ≤ 768)
    else if ix = 0x2E00 ∧ sub = 0x10 then decide (n % 80 = 2 ∧ 82 ≤ n ∧ n ≤ 8162)
    else if ix = 0x2E00 ∧ 0x20 ≤ sub ∧ sub ≤ 0x27 then decide (n % 5 = 1 ∧ 6 ≤ n ∧ n ≤ 321)
    else true

end Sys2Proof.Machine
end

