-- ==== Sys2Proof/Machine/Units.lean ====
section
/-! DEFINITION. Access to the units of the chip, the time pairs it produces, and the draw of free values. -/

namespace Sys2Proof.Machine

/-- A command that acts on the chip alone: the queue's rest stays as it is. -/
def State.onChip (s : State) (f : Chip → Chip) : Host.Outcome State Fault Refusal :=
  .next { s with chip := f s.chip }

/-! ### Units -/

def Chip.work (c : Chip) (e : Nat) : Work := nth Work.reset c.works e
def Chip.modWork (c : Chip) (e : Nat) (f : Work → Work) : Chip := { c with works := modNth Work.reset f c.works e }
def Chip.modDbank (c : Chip) (e : Nat) (f : WMem → WMem) : Chip := { c with dbank := modNth [] f c.dbank e }
def Chip.modIbank (c : Chip) (e : Nat) (f : NMem → NMem) : Chip := { c with ibank := modNth [] f c.ibank e }
def Chip.cl (c : Chip) (n : Nat) : Cls := nth Cls.reset c.cls n
def Chip.modCl (c : Chip) (n : Nat) (f : Cls → Cls) : Chip := { c with cls := modNth Cls.reset f c.cls n }
def Chip.region (c : Chip) (r : Nat) : Region := nth Region.reset c.regions r
def Chip.modRegion (c : Chip) (r : Nat) (f : Region → Region) : Chip := { c with regions := modNth Region.reset f c.regions r }
def Chip.target (c : Chip) (t : Nat) : Target' := nth Target'.reset c.targets t
def Chip.modTarget (c : Chip) (t : Nat) (f : Target' → Target') : Chip := { c with targets := modNth Target'.reset f c.targets t }
def Chip.di (c : Chip) (d : Nat) : Di := nth Di.reset c.field.di d
def Chip.modField (c : Chip) (f : Field → Field) : Chip := { c with field := f c.field }
def Chip.modDi (c : Chip) (d : Nat) (f : Di → Di) : Chip := c.modField (fun x => { x with di := modNth Di.reset f x.di d })
def Chip.doc (c : Chip) (n : Nat) : DoCh := nth DoCh.reset c.field.dos n
def Chip.modDo (c : Chip) (n : Nat) (f : DoCh → DoCh) : Chip := c.modField (fun x => { x with dos := modNth DoCh.reset f x.dos n })
def Chip.aich (c : Chip) (a : Nat) : AiCh := nth AiCh.reset c.field.ai a
def Chip.modAi (c : Chip) (a : Nat) (f : AiCh → AiCh) : Chip := c.modField (fun x => { x with ai := modNth AiCh.reset f x.ai a })
def Chip.aoch (c : Chip) (o : Nat) : AoCh := nth AoCh.reset c.field.ao o
def Chip.modAo (c : Chip) (o : Nat) (f : AoCh → AoCh) : Chip := c.modField (fun x => { x with ao := modNth AoCh.reset f x.ao o })
def Chip.modPair (c : Chip) (f : Pair → Pair) : Chip := { c with pair := f c.pair }
def Chip.modMeas (c : Chip) (f : Meas → Meas) : Chip := { c with meas := f c.meas }
def Chip.modNet (c : Chip) (f : Net → Net) : Chip := { c with net := f c.net }
def Chip.modTb (c : Chip) (f : TimeBase → TimeBase) : Chip := c.modNet (fun x => { x with tb := f x.tb })
def Chip.modDict (c : Chip) (f : Dict → Dict) : Chip := { c with dict := f c.dict }
def Chip.modStore (c : Chip) (f : Store → Store) : Chip := { c with store := f c.store }
def Chip.modIdent (c : Chip) (f : Store → Store) : Chip := { c with ident := f c.ident }
def Chip.modDie (c : Chip) (f : FlashDie → FlashDie) : Chip := { c with die := f c.die }
def Chip.modRec (c : Chip) (f : Recorder → Recorder) : Chip := { c with recd := f c.recd }
def Chip.modCal (c : Chip) (f : Calendar → Calendar) : Chip := { c with cal := f c.cal }
def Chip.modWd (c : Chip) (f : Watchdog → Watchdog) : Chip := { c with wd := f c.wd }
def Chip.modPanel (c : Chip) (f : Panel → Panel) : Chip := { c with panel := f c.panel }
def Chip.modPower (c : Chip) (f : Power → Power) : Chip := { c with power := f c.power }
/-- Station time is t. -/
def Chip.at_ (c : Chip) (t : Instant) : Chip := { c with now := t }

/-- Fold an operation over a list of unit numbers. -/
def Chip.forAll (c : Chip) (l : List Nat) (f : Chip → Nat → Chip) : Chip := l.foldl f c

/-! ### Time pairs (R5, R296) -/

/-- clockAccuracy codes of IEEE 1588 with their bounds in ns (Table 10-4 names the enumeration; log 11). -/
def accuracyCodes : List (Nat × Nat) :=
  [(100, 0x21), (250, 0x22), (1000, 0x23), (2500, 0x24), (10000, 0x25), (25000, 0x26), (100000, 0x27), (250000, 0x28),
   (1000000, 0x29), (2500000, 0x2A), (10000000, 0x2B), (25000000, 0x2C), (100000000, 0x2D), (250000000, 0x2E),
   (1000000000, 0x2F), (10000000000, 0x30)]
/-- The smallest code that covers an error. -/
def accuracyOf (ns : Nat) : Nat := match accuracyCodes.find? (fun p => decide (ns ≤ p.1)) with
  | some p => p.2
  | none => 0x31
/-- The code for a time in holdover (Table 10-6); beyond one hour the table gives no bound and the code is free. -/
def holdoverAcc (ns : Nat) : Nat :=
  if ns ≤ 10000000000 then accuracyOf 500
  else if ns ≤ 60000000000 then accuracyOf 3000
  else if ns ≤ 600000000000 then accuracyOf 40000
  else if ns ≤ 3600000000000 then accuracyOf 400000
  else Config.holdoverAcc (ns / 1000000000) % 256

/-- LI, ACC, SYN, HLD and PTM of the timebase state (Table 10-4), as the low 18 bits of word 1. In state 4 they are those of
the active, kept from its HEARTBEAT frames, with PTM set (R185). -/
def Chip.timeFlags (c : Chip) : Nat :=
  let st := c.rd 0x2A00 0x01
  if st = 4 then c.net.tb.bestSeen % 2 ^ 18 / 64 * 64 + 2 ^ 5
  else
    let acc := if st = 2 then c.net.tb.acc else if st = 3 then holdoverAcc (c.now - c.net.tb.holdAt) else 0xFE
    (if st = 0 then 3 else c.net.tb.li % 4) * 2 ^ 16 + acc % 256 * 2 ^ 8 + (if st = 2 then 2 ^ 7 else if st = 3 then 2 ^ 6 else 0)

/-- The time pair that the device produces for an instant. -/
def Chip.pairAt (c : Chip) (t : Instant) : TimePair := TimePair.of t c.timeFlags

/-- One tick is 62.5 µs (R38). -/
def tickNs : Nat := 62500
/-- The tick number of an instant: 16 000 s + k (R38). -/
def tickNo (t : Instant) : Nat := t / 62500
/-- Whether an instant is a tick boundary. -/
def isTick (t : Instant) : Bool := t % 62500 == 0

/-! ### Free values -/

/-- Draw a free value number (log 6). -/
def Chip.draw (c : Chip) : Chip := { c with free := c.free + 1 }

end Sys2Proof.Machine
end

