-- ==== Sys2Proof/Machine/Values.lean ====
section
/-! DEFINITION. What every entry of the object dictionary reads: registers, values that the device derives, byte strings and
domains (11, Tables of chapters 01 to 15), edit and export entries (R199). -/

namespace Sys2Proof.Machine

/-- The bytes of words, most significant first. -/
def wordsBytes (l : List Word) : List Byte := l.flatMap (fun w => beBytes w.toNat 6)
/-- The bytes of words, least significant first, as records in flash hold them (R2). -/
def wordsLe (l : List Word) : List Byte := l.flatMap (fun w => leBytes w.toNat 6)

/-! ### Calendar (Tables 13-1, 13-2, 13-5) -/

/-- Binary to BCD, digit by digit. -/
def toBcd (n : Nat) : Nat := n % 10 + n / 10 % 10 * 16 + n / 100 % 10 * 256 + n / 1000 % 10 * 4096
/-- The registers CAL_SUB to CAL_YEAR of a value. -/
def calRegs (v : CalVal) : List Nat :=
  [v.sub, toBcd v.sec, toBcd v.min, toBcd v.hour, toBcd v.day, toBcd v.mon, toBcd (2000 + v.year)]

/-- CAL_STAT. -/
def calStat (k : Calendar) : Nat :=
  bit01 k.exp * 128 + bit01 k.vld * 64 + bit01 k.shadow.isSome * 32 + bit01 k.shift.isSome * 16 +
    bit01 k.frozen.isSome * 8 + bit01 k.err * 4 + bit01 k.ovf * 2

/-- The 432 bytes of an evidence slot (Table 13-5); empty without evidence. -/
def evidenceBytes : Option Evidence → List Byte
  | none => []
  | some e =>
    wordsBytes [e.tim.w0, e.tim.w1] ++ beBytes e.cnt 6 ++ beBytes e.fmk 4 ++ beBytes e.mbr 1 ++ beBytes e.knd 1 ++
      beBytes e.mpc 4 ++ (List.range 8).flatMap (fun i => beBytes (nth 0 e.epc i) 2) ++ beBytes 0 4 ++
      e.lci.flatMap (fun p => wordsBytes [p.w0, p.w1])

/-! ### Captures (R248), event records (Table 12-6) -/

/-- Header and samples of a capture, numbers in the order of `num` and words in that of `wd`: time pair of the trigger's grid instant as it was
formed at the trigger, source, channels, lengths and rate, retriggers, then samples (R247, log 40, log 141). -/
def captureAs (num : Nat → Nat → List Byte) (x : Capture) : List Byte :=
  let wd (w : Word) : List Byte := num w.toNat 6
  wd x.pair.w0 ++ wd x.pair.w1 ++ num x.source 2 ++ num x.chans.length 2 ++ x.chans.flatMap (fun k => num k 1) ++
    num x.pre 2 ++ num x.post 2 ++ num (if x.dec then 4000 else 16000) 2 ++ num x.retrig.length 2 ++
    x.retrig.flatMap (fun q => wd q.w0 ++ wd q.w1) ++ x.samples.flatMap wd

/-- A capture as the host reads it, most significant byte first (R2). -/
def captureBytes (x : Capture) : List Byte := captureAs beBytes x

/-- The capture named by the last command. -/
def Chip.namedCapture (c : Chip) : List Byte :=
  match c.meas.stored.find? (fun x => x.num % 256 == c.meas.named) with
  | some x => captureBytes x
  | none => []

/-- A list of bytes filled up with zeros, or cut, to n. -/
def padBytes (n : Nat) (l : List Byte) : List Byte := (l ++ List.replicate n 0).take n

/-- The 128 bytes of a record (Table 12-6), numbers least significant byte first (log 42). -/
def recordBytes (r : EvRec) : List Byte :=
  let b := leBytes r.tim.w0.toNat 6 ++ leBytes r.tim.w1.toNat 6 ++ leBytes r.code 2 ++ leBytes (r.sev + bit01 r.fin * 8) 1 ++
    leBytes r.src 1 ++ leBytes r.unit 2 ++ leBytes r.seq 4 ++ leBytes r.snv.length 1 ++ leBytes 0 1 ++
    padBytes 72 (r.snv.flatMap (fun w => leBytes w.toNat 6)) ++ leBytes r.prf 2 ++ leBytes r.org 2 ++ leBytes r.csn 4 ++ padBytes 16 r.dtl
  b ++ leBytes (crc32 b) 4 ++ [0x56, 0x45, 0x52, 0x4D]

/-! ### Field die (09) -/

/-- Bits of the supply word (Table 09-3): missing and low of a supply. -/
def supplyBit (s2 missing : Bool) : Nat := (if s2 then 2 else 0) + (if missing then 0 else 1)
def Chip.vMissing (c : Chip) (s2 : Bool) : Bool := c.bit 0x2800 0x02 (supplyBit s2 true)
def Chip.vLow (c : Chip) (s2 : Bool) : Bool := c.bit 0x2800 0x02 (supplyBit s2 false)
/-- The field die is running, as the core sees it (0x2800.01). -/
def Chip.fieldRuns (c : Chip) : Bool := c.rd 0x2800 0x01 == 2
/-- The supply of a channel (Table 09-1). -/
def diSupply (d : Nat) : Bool := decide (24 ≤ d)

/-- Quality of a supply condition: Invalid while missing; Questionable while low where `low` says that low counts
(Table 09-2). -/
def Chip.supplyQc (c : Chip) (s2 low : Bool) : Nat :=
  if c.vMissing s2 then 2 else if low && c.vLow s2 then 1 else 0

/-- Word 0 of a change record (Table 09-5). -/
def recordWord (qc cnt : Nat) (lvl : Bool) : Word := toWord (qc * 2 ^ 44 + min cnt 255 * 2 ^ 32 + bit01 lvl)
/-- STP of a change record: the time pair of the reported stamp, 0 before the first. Its flags are those of the clock when the pair is formed, not when
the stamp was taken (DESIGN CHOICE, log 141). -/
def Chip.stpPair (c : Chip) (d : Nat) : TimePair := match (c.di d).stp with
  | some t => c.pairAt t
  | none => ⟨0, 0⟩

/-! ### Edits and exports (R198, R199) -/

/-- A local D-space word of engine position e. -/
def Chip.dWord (c : Chip) (e a : Nat) : Word := WMem.get (nth [] c.dbank e) a
/-- First index of the edit entries of a region (R198). -/
def editBase (r : Nat) : Nat := 0x3000 + 0x400 * r

/-- Bank in force of a target: 0 A, 1 B (Table 07-11). -/
def Chip.bankOf (c : Chip) (t : Nat) : Nat := c.fld (0x2510 + t) 0x06 4 4

/-- Bytes of a value of a type (Table 11-1). -/
def editLen (typ : Nat) : Nat := if typ = 3 then 4 else if typ = 4 then 8 else 6

/-- Lowest bit of the operation in a bundle that holds an IMM8: slot M or slot A (Table 03-5). -/
def immLo (slotM : Bool) : Nat := if slotM then 64 else 32

/-- The field X of the `imm` of a bundle. -/
def getX (w : Nat) : Nat := fieldOf w 115 96 + fieldOf w 119 116 * 2 ^ 20 + fieldOf w 127 124 * 2 ^ 24

/-- A field of a number as a 48-bit value: sign-extended for INT48. -/
def fieldValue (typ bits v : Nat) : Nat := if typ = 0 ∧ v.testBit (bits - 1) = true then v + 2 ^ 48 - 2 ^ bits else v

/-- The value in force of an edit entry of region r, as the number of its type. -/
def Chip.getEdit (c : Chip) (r : Nat) (e : EditEntry) : Nat :=
  let two (f : Nat → Word) (a : Nat) : Nat :=
    if e.typ = 4 then (f a).toNat % 2 ^ 32 * 2 ^ 32 + (f (a + 1)).toNat % 2 ^ 32
    else if e.typ = 3 then (f a).toNat % 2 ^ 32 else (f a).toNat
  match e.target with
  | .dWord pos a => two (c.dWord pos) a
  | .gWord a => two (WMem.get (c.region r).gmem) a
  | .imm8 pos b s => fieldValue e.typ 8 (fieldOf (NMem.get (nth [] c.ibank pos) b) (immLo s + 7) (immLo s))
  | .immX pos b => fieldValue e.typ 28 (getX (NMem.get (nth [] c.ibank pos) b))

/-- The edit entry of region r at an index. -/
def Chip.editEntry (c : Chip) (r ix : Nat) : Option EditEntry :=
  match (c.region r).image with
  | some im => im.edits.find? (fun e => editBase r + e.k == ix)
  | none => none

/-- The export entry of region r at an index. -/
def Chip.exportEntry (c : Chip) (r ix : Nat) : Option ExportEntry :=
  match (c.region r).image with
  | some im => im.exports.find? (fun e => editBase r + e.k == ix)
  | none => none

/-- Region of an index of the range 0x3000 to 0x3FFF. -/
def editRegion (ix : Nat) : Nat := (ix - 0x3000) / 0x400

/-! ### Networks (10) -/

/-- A subscription that no image configures. -/
def GooseSt.reset : GooseSt := ⟨none, 0, 0, false, none, 0, [], []⟩
def Chip.goosub (c : Chip) (k : Nat) : GooseSt := nth GooseSt.reset c.net.subs k
/-! ### Identity and status (R333, R337, R339, Tables 11-7, 11-9, 11-10) -/

/-- The factory owner key is still in slot 0 (R333). -/
def Chip.factoryKey (c : Chip) : Bool :=
  let k := nth ⟨0, 0, 0⟩ c.dict.keys 0
  k.kid != 0 && k.secret == Config.factorySecret

/-- In a pair, this chip and its partner are STANDBY_READY or ACTIVE (Table 06-11). -/
def pairSound (own partner : Nat) : Bool := (own == 3 || own == 4) && (partner == 3 || partner == 4)

/-- The status word. -/
def Chip.statusWord (c : Chip) : Nat :=
  let b (i : Nat) (x : Bool) : Nat := bit01 x * 2 ^ i
  b 0 (c.rd 0x2000 0x05 == 1) +
  b 1 (c.rd 0x2100 0x01 != 0 || c.rd 0x2100 0x02 != 0 || c.rd 0x2100 0x03 != 0) +
  b 2 (c.rd 0x2200 0x03 != 0) + b 3 (c.rd 0x2200 0x05 != 0) +
  b 4 ((List.range 6).any (fun t => decide (1 ≤ c.rd (0x2510 + t) 0x05 ∧ c.rd (0x2510 + t) 0x05 ≤ 5))) +
  b 5 (c.pair.inForce && !pairSound (c.rd 0x2400 0x03) (c.rd 0x2400 0x04)) +
  b 6 (c.rd 0x2A00 0x01 != 2 && c.rd 0x2A00 0x01 != 4) +
  b 7 (c.fld 0x2800 0x02 3 0 != 0) + b 8 (c.rd 0x2F00 0x05 == 1) + b 9 c.factoryKey + b 10 (c.rd 0x2500 0x04 != 0)

/-- The error register of CiA 301. -/
def errorRegister (s : Nat) : Nat :=
  bit01 (s.testBit 1 || s.testBit 2 || s.testBit 7) + bit01 (s.testBit 5 || s.testBit 6 || s.testBit 8) * 128

/-- A number in decimal digits, as ASCII. -/
def decimalText (n : Nat) : List Byte := (Nat.toDigits 10 n).map (fun ch => BitVec.ofNat 8 ch.toNat)
/-- VER as text major.minor.build (Table 07-3 places them in 31:24, 23:16 and 15:0). -/
def versionText (v : Nat) : List Byte :=
  decimalText (fieldOf v 31 24) ++ [0x2E] ++ decimalText (fieldOf v 23 16) ++ [0x2E] ++ decimalText (fieldOf v 15 0)

/-- The value of a hexadecimal digit in ASCII. -/
def hexDigit (b : Byte) : Nat := if 0x41 ≤ b.toNat then b.toNat - 0x37 else b.toNat - 0x30
/-- The last 8 characters of the serial number as a number. -/
def serialNumber (l : List Byte) : Nat := ((l.drop 8).take 8).foldl (fun n b => n * 16 + hexDigit b) 0

/-- The 64 bytes of the key table. -/
def Chip.keyTable (c : Chip) : List Byte :=
  c.dict.keys.flatMap (fun k =>
    let st := if k.kid = 0 then 0 else if c.dict.lockouts.any (fun p => p.1 == k.kid && decide (c.now < p.2)) then 2 else 1
    beBytes k.kid 2 ++ beBytes k.role 1 ++ beBytes st 1)

/-! ### Values by index (R316, R317, R321, R441) -/

/-- Status objects of the field die that carry a quality: supply word, DO and AO status, AI word (Tables 09-3 and 09-7, R274, R276). While the
die is not running they read Invalid (R258, R259). -/
def isFieldStatus (ix sub : Nat) : Bool :=
  (ix == 0x2800 && sub == 0x02) || (decide (0x2840 ≤ ix ∧ ix < 0x2858) && sub == 0x06) ||
    (decide (0x2860 ≤ ix ∧ ix < 0x286C) && sub == 0x05)

/-- What a numeric entry reads: the register, or what the device derives. -/
def Chip.number (c : Chip) (ix sub : Nat) : Nat :=
  match ix, sub with
  | 0x1001, 0x00 => errorRegister c.statusWord
  | 0x1018, 0x04 => serialNumber Config.serial
  | 0x1200, 0x01 => 0x600 + c.rd 0x2900 0x21
  | 0x1200, 0x02 => 0x580 + c.rd 0x2900 0x21
  | 0x2000, 0x04 => c.rd 0x2514 0x07
  | 0x2000, 0x06 => c.statusWord
  | 0x2000, 0x07 => (match c.dict.readyAt with
    | some t => (c.now - t) / 1000000
    | none => 0)
  | 0x2000, 0x23 => c.dict.sessions.length
  | 0x2900, 0x10 => c.net.tx.length
  | 0x2900, 0x11 => (c.net.subs.filter (fun x => x.cfg.isSome)).length
  | 0x2A00, 0x22 => c.cal.wday
  | 0x2A00, 0x23 => calStat c.cal
  | _, _ => (if isFieldStatus ix sub && !c.fieldRuns then setFieldOf (c.rd ix sub) 47 44 2 else c.rd ix sub)

/-- The 10 bytes of 0x2A00.20 from the read shadows, or from the counters. -/
def calBytes (k : Calendar) : List Byte :=
  let f := match k.frozen with
    | some l => l
    | none => calRegs k.now ++ [k.wday]
  beBytes (nth 0 f 6) 2 ++ beBytes (nth 0 f 5) 1 ++ beBytes (nth 0 f 4) 1 ++ beBytes (nth 0 f 3) 1 ++ beBytes (nth 0 f 2) 1 ++
    beBytes (nth 0 f 1) 1 ++ beBytes (nth 0 f 0) 2 ++ beBytes (nth 0 f 7) 1

/-- Words of a time pair. -/
def pairWords (p : TimePair) : List Word := [p.w0, p.w1]

/-- The change record that 0x2810+d.08 reads (R263). -/
def Chip.changeRecord (c : Chip) (d : Nat) : List Byte :=
  let x := c.di d
  let qc := if c.fieldRuns && x.valid then c.supplyQc (diSupply d) true else 2
  wordsBytes (recordWord qc (x.changes - x.readCnt) x.level :: pairWords (c.stpPair d))

/-- The bytes of a text, byte string or domain. -/
def Chip.octets (c : Chip) (ix sub : Nat) : List Byte :=
  if ix = 0x1008 then [0x53, 0x57, 0x58, 0x2D, 0x34, 0x38, 0x33, 0x32]
  else if ix = 0x1009 then [0x42, 0x30]
  else if ix = 0x100A then versionText (c.rd 0x2514 0x07)
  else if ix = 0x2000 ∧ sub = 0x03 then Config.serial
  else if ix = 0x2000 ∧ sub = 0x21 then c.keyTable
  else if ix = 0x2100 then c.power.weights.flatMap (fun w => beBytes w 1)
  else if ix = 0x2600 then c.namedCapture
  else if 0x2620 ≤ ix ∧ ix < 0x2630 then (match c.meas.image with
    | some im => ((im.streams.find? (fun x => x.num == ix - 0x2620)).map (·.svId)).getD []
    | none => [])
  else if 0x2700 ≤ ix ∧ ix < 0x2708 then beBytes ((nth 0 (nth MSet.reset c.meas.sets (ix - 0x2700)).acc (sub - 1)) % 2 ^ 96).toNat 12
  else if 0x2810 ≤ ix ∧ ix < 0x2840 then c.changeRecord (ix - 0x2810)
  else if ix = 0x2900 ∧ sub = 0x04 then beBytes Config.ownStation 6
  else if ix = 0x2900 ∧ sub = 0x05 then beBytes Config.ownProcess 6
  else if ix = 0x2900 ∧ (sub = 0x06 ∨ sub = 0x07) then beBytes (c.rd ix sub) 6
  else if ix = 0x2900 ∧ sub = 0x16 then
    (List.range 128).flatMap (fun j => beBytes ((c.goosub (2 * j)).state + 16 * (c.goosub (2 * j + 1)).state) 1)
  else if ix = 0x2900 ∧ sub = 0x30 then wordsBytes (pairWords c.net.canLatch.1 ++ [toWord c.net.canLatch.2])
  else if 0x2910 ≤ ix ∧ ix < 0x2914 then (nth EthPort.reset c.net.eth (ix - 0x2910)).neighbour
  else if ix = 0x2A00 ∧ sub = 0x04 then (match c.net.tb.gm with
    | some g => beBytes g.identity 8
    | none => beBytes 0 8)
  else if ix = 0x2A00 ∧ sub = 0x20 then calBytes c.cal
  else if ix = 0x2B00 ∧ sub = 0x0A then c.dict.profiles
  else if ix = 0x2B00 ∧ sub = 0x0B then c.dict.codeMap
  else if ix = 0x2B00 then (c.recd.live.take 8).flatMap recordBytes
  else if ix = 0x2C00 ∧ sub = 0x06 then evidenceBytes c.wd.ev0
  else if ix = 0x2C00 then evidenceBytes c.wd.ev1
  else if ix = 0x2E00 then nth [] c.panel.tables (sub - 0x20)
  else []

/-- The bytes of a value of each type that the tables give a fixed length: a number, or the words of a time pair. -/
def tyBytes (ty : Ty) (v : Nat) : List Byte := beBytes v ((tyLen ty).getD 0)

/-- The value of a tabulated entry, numbers most significant byte first. -/
def Chip.entryValue (c : Chip) (e : Entry) (ix sub : Nat) : List Byte :=
  match e.ty with
  | .pair => wordsBytes (pairWords (if ix = 0x2A00 then c.pairAt c.now else c.rdPair ix sub))
  | .octets | .text | .domain => c.octets ix sub
  | ty => tyBytes ty (c.number ix sub)

/-- Widths of the numbers in a capture's bytes: the header with its channel list, then words. -/
def captureWidths (bs : List Byte) : List Nat :=
  [6, 6, 2, 2] ++ List.replicate (beNat ((bs.drop 14).take 2)) 1 ++ [2, 2, 2, 2] ++ List.replicate (bs.length / 6) 6

/-- Widths of the numbers that the bytes of an entry's value hold, in turn (R2, R317). Addresses, clock identities, secrets, texts, image
headers and bodies (R207, R209) and event records (Table 12-6) are byte strings of one order on every path. -/
def numWidths (ix sub : Nat) (bs : List Byte) : List Nat :=
  if 0x3000 ≤ ix then [bs.length]
  else match entryOf ix sub with
    | none => [bs.length]
    | some e =>
      match e.ty with
      | .pair => [6, 6]
      | .text => []
      | .octets | .domain =>
        if ix = 0x2000 ∧ sub = 0x20 then [1, 1, 2]
        else if ix = 0x2000 then (List.replicate 16 [2, 1, 1]).flatten
        else if ix = 0x2600 then captureWidths bs
        else if 0x2700 ≤ ix ∧ ix < 0x2708 then [12]
        else if (0x2810 ≤ ix ∧ ix < 0x2840) ∨ (ix = 0x2900 ∧ sub = 0x30) then [6, 6, 6]
        else if ix = 0x2A00 ∧ sub ≠ 0x04 then [2, 1, 1, 1, 1, 1, 2, 1]
        else if ix = 0x2B00 ∧ sub ≠ 0x10 then (List.replicate (bs.length / 3) [2, 1]).flatten
        else if ix = 0x2C00 then [6, 6, 6, 4, 1, 1, 4] ++ List.replicate 8 2 ++ [4] ++ List.replicate (bs.length / 6) 6
        else if ix = 0x2E00 ∧ sub = 0x10 then [2]
        else []
      | _ => [bs.length]

/-- The bytes of a value of an entry, turned between the two byte orders of R2: the dictionary service carries numbers most significant
byte first, CANopen SDO and the flash die least significant byte first. -/
def otherOrder (ix sub : Nat) (bs : List Byte) : List Byte := turnBytes (numWidths ix sub bs) bs

/-- Lowest and highest value of a type (R199). -/
def typeLow (typ : Nat) : Nat := match typ with
  | 0 => 0x800000000000 | 3 => 0xFF7FFFFF | 4 => 0xFFEFFFFFFFFFFFFF | _ => 0
def typeHigh (typ : Nat) : Nat := match typ with
  | 0 => 0x7FFFFFFFFFFF | 2 => 0x999999999999 | 3 => 0x7F7FFFFF | 4 => 0x7FEFFFFFFFFFFFFF | _ => 0xFFFFFFFFFFFF

/-- The value that an export names, as its class last dispatched it. -/
def Chip.getExport (c : Chip) (x : ExportEntry) : Nat :=
  let f (a : Nat) : Nat := (WMem.get (c.cl x.cls).pub a).toNat
  if x.typ = 4 then f x.addr % 2 ^ 32 * 2 ^ 32 + f (x.addr + 1) % 2 ^ 32
  else if x.typ = 3 then f x.addr % 2 ^ 32 else f x.addr

/-- What the subindices of an edit or export entry read (Table 07-1); none where the index is not declared. -/
def Chip.programValue (c : Chip) (ix sub : Nat) : Option (List Byte) :=
  let r := editRegion ix
  match c.editEntry r ix, c.exportEntry r ix with
  | some e, _ => (match sub with
    | 0 => some (beBytes 5 6)
    | 1 => some (beBytes (c.getEdit r e) (editLen e.typ))
    | 2 => some (beBytes e.min (editLen e.typ))
    | 3 => some (beBytes e.max (editLen e.typ))
    | 4 => some (beBytes (e.cls + 16 * e.typ + 128) 6)
    | 5 => some (beBytes (NMem.get (c.region r).editAt e.k) 6)
    | _ => none)
  | none, some x => (match sub with
    | 0 => some (beBytes 5 6)
    | 1 => some (beBytes (c.getExport x) (editLen x.typ))
    | 2 => some (beBytes (typeLow x.typ) (editLen x.typ))
    | 3 => some (beBytes (typeHigh x.typ) (editLen x.typ))
    | 4 => some (beBytes (x.cls + 16 * x.typ) 6)
    | 5 => some (beBytes 0 6)
    | _ => none)
  | none, none => none

/-- Whether an image in force declares an index of the edit range. -/
def Chip.declared (c : Chip) (ix : Nat) : Bool :=
  decide (0x3000 ≤ ix ∧ ix < 0x4000) && ((c.editEntry (editRegion ix) ix).isSome || (c.exportEntry (editRegion ix) ix).isSome)

/-- What an entry reads, whatever its access kind; none where it does not exist. -/
def Chip.value (c : Chip) (ix sub : Nat) : Option (List Byte) :=
  if 0x3000 ≤ ix then c.programValue ix sub
  else match entryOf ix sub with
    | some e => some (c.entryValue e ix sub)
    | none => if sub = 0 ∧ 0x2000 ≤ ix then (highestSub ix).map (fun n => beBytes n 6) else none

end Sys2Proof.Machine
end

