-- ==== Sys2Proof/Machine/Frames.lean ====
section
/-! DEFINITION. The bytes of Onbex frames (R175, Tables 06-1 to 06-3): TYPE, AUX, payload, header and CRC-32. Where Table 06-2 names the
content of a payload and no layout, the layout is the model's (log 36). -/

namespace Sys2Proof.Machine

/-- The bytes of a time pair. -/
def pairBytes (p : TimePair) : List Byte := beBytes p.w0.toNat 6 ++ beBytes p.w1.toNat 6

/-- TYPE of a frame (Table 06-2). -/
def frameType : OnbexOut → Nat
  | .heartbeat .. => 0x01
  | .caps _ => 0x02
  | .nak _ => 0x03
  | .item .. => 0x10
  | .edit _ => 0x11
  | .cmd _ => 0x12
  | .seal _ => 0x13
  | .accum _ => 0x14
  | .hash .. => 0x20
  | .state .. => 0x30
  | .stateEnd _ => 0x31
  | .abdicate _ => 0x40
  | .roleRequest | .roleGrant _ => 0x41
  | .fence _ => 0x42

/-- The types of Table 06-2; every other is reserved. -/
def frameTypes : List Nat := [0x01, 0x02, 0x03, 0x10, 0x11, 0x12, 0x13, 0x14, 0x20, 0x30, 0x31, 0x40, 0x41, 0x42]

/-- Code of the space of a STATE page, with its number, in AUX (log 36). -/
def spaceCode : PageSpace → Nat
  | .dBank e => 0x000 + e.val
  | .region r => 0x100 + r.val
  | .ioImage n => 0x200 + n.val
  | .ioQuality n => 0x300 + n.val
  | .eventFlags n => 0x400 + n.val
  | .ledger e => 0x500 + e.val
  | .network => 0x600
  | .executed => 0x601
  | .accumulators => 0x602

/-- AUX of a frame (Table 06-2). -/
def frameAux : OnbexOut → Nat
  | .heartbeat st b _ _ => st % 16 + 16 * bit01 b
  | .nak x => x % 2 ^ 32
  | .hash h _ => h % 2 ^ 64
  | .state sp page _ => spaceCode sp * 2 ^ 32 + page % 2 ^ 32
  | .stateEnd (some n) => n % 256
  | .stateEnd none => 0xFF
  | .abdicate k | .fence k => k % 16
  | .roleGrant _ => 1
  | _ => 0

/-- The six words of a SEAL entry (Table 06-3). -/
def sealWords (e : SealEntry) : List Word :=
  [toWord (e.cls.val * 2 ^ 44 + e.ned % 2 ^ 7 * 2 ^ 37 + e.ncm % 2 ^ 5 * 2 ^ 32 + e.lsn % 2 ^ 32), e.m.w0, e.m.w1, toWord e.cy,
    toWord (e.hash / 2 ^ 32 % 2 ^ 32), toWord (e.hash % 2 ^ 32)]

/-- Bytes of an item, of a queued item and of a command (log 36). -/
def srcCode : ItemSrc → Nat × Nat
  | .diLevel => (0, 0)
  | .diRecord d => (1, d.val)
  | .diCount d => (2, d.val)
  | .diFreq d => (3, d.val)
  | .ai a => (4, a.val)
  | .supply => (5, 0)
  | .doStatus n => (6, n.val)
  | .aoStatus o => (7, o.val)
  | .grid ch => (8, ch)
  | .computed s q => (9, 4096 * s + q)
  | .goose s m => (10, 4096 * s + m)
  | .gooseNums s => (11, s)
  | .can p o => (12, 4096 * p.val + o)
  | .remote x => (13, x)
  | .eventWord s => (14, s)
  | .capturePage => (15, 0)
  | .frozen a => (16, a)
def itemBytes (cls : Nat) (i : Item) : List Byte :=
  beBytes cls 1 ++ beBytes (srcCode i.src).1 1 ++ beBytes (srcCode i.src).2 4 ++ beBytes i.stamp 12 ++
    beBytes (i.qc % 16 + 16 * bit01 i.late) 1 ++ wordsBytes i.vals
def queuedFrame (q : Queued) : List Byte :=
  let head := beBytes q.region 1 ++ beBytes q.cls 1 ++ beBytes q.stamp 12 ++ beBytes q.session 4 ++
    beBytes ((q.path.map (· + 1)).getD 0) 6 ++ beBytes q.org 4 ++ beBytes q.csn 4
  match q.kind with
  | .edit ix v => head ++ beBytes ix 2 ++ v
  | .classCmd act => head ++ beBytes act 1
def capsBytes (p : Caps) : List Byte :=
  beBytes p.stepping 2 ++ beBytes p.firmware 4 ++ beBytes p.protocol 4 ++ p.appHash.flatMap (fun h => beBytes h 32) ++ beBytes p.measHash 32 ++
    p.weights.flatMap (fun w => beBytes w 1)

/-- The payload of a frame. -/
def framePayload : OnbexOut → List Byte
  | .heartbeat _ _ sent began => pairBytes sent ++ pairBytes began
  | .caps p => capsBytes p
  | .item n i => itemBytes n i
  | .edit q => queuedFrame q
  | .cmd (.queued q) => queuedFrame q
  | .cmd (.more org csn data) => beBytes org 4 ++ beBytes csn 4 ++ data
  | .cmd (.write at_ ix sub data org csn) => beBytes at_ 12 ++ beBytes ix 2 ++ beBytes sub 1 ++ beBytes org 4 ++ beBytes csn 4 ++ data
  | .seal es => wordsBytes (es.flatMap sealWords)
  | .accum a => a.flatMap (fun l => l.flatMap (fun x => beBytes (BitVec.ofInt 96 x).toNat 12))
  | .hash _ d => pairBytes d
  | .state _ _ ws => padBytes 4096 (wordsBytes ws)
  | .roleGrant th => pairBytes (TimePair.of th 0)
  | _ => []

/-- Table 06-2 and 06-3 give the whole content of AUX and payload of these frames. -/
def layoutGiven : OnbexOut → Bool
  | .heartbeat .. | .nak _ | .seal _ | .hash .. => true
  | _ => false

/-- The 16-byte header (Table 06-1). -/
def frameHead (f : OnbexOut) (rtx : Bool) (lsn : Nat) : BitVec 128 :=
  BitVec.ofNat 8 (frameType f) ++ 0#7 ++ BitVec.ofBool rtx ++ BitVec.ofNat 16 (framePayload f).length ++ BitVec.ofNat 32 lsn ++
    BitVec.ofNat 64 (frameAux f)

/-- A frame as it is carried: header, payload, CRC-32 over both (R175). -/
def frameBytes (f : OnbexOut) (rtx : Bool) (lsn : Nat) : List Byte :=
  let body := beBytes (frameHead f rtx lsn).toNat 16 ++ framePayload f
  body ++ beBytes (crc32 body) 4

/-- The frame as a receiver takes it at t. -/
def rxOf (t : Instant) (f : OnbexOut) (lsn : Nat) : Rx :=
  ⟨t, frameHead f false lsn, framePayload f, BitVec.ofNat 32 (crc32 (beBytes (frameHead f false lsn).toNat 16 ++ framePayload f))⟩

/-- Whether a received frame is one whose content is that of `f`: TYPE and LEN, and AUX and payload where the tables lay them out. -/
def rxCarries (rx : Rx) (f : OnbexOut) : Bool :=
  rx.typ == frameType f && rx.len == rx.payload.length &&
    (!layoutGiven f || (rx.aux == frameAux f && rx.payload == framePayload f))

/-- Length of a frame in bytes with header and CRC, as the 256 KiB store counts it. -/
def frameSize (f : OnbexOut) : Nat := 20 + (framePayload f).length

end Sys2Proof.Machine
end

