-- ==== Sys2Proof/Machine/Die.lean ====
section
/-! DEFINITION. The bytes of the flash die (12): its map, program operations, erases, what a read finds, and what an interruption leaves. -/

namespace Sys2Proof

/-! ### The flash map (R343) -/

/-- The areas of the flash die: name, first address, size (Table 12-1). -/
def flashMap : List (String × Nat × Nat) :=
  [("Application bank A", 0x00000000, 0x1000000), ("Application bank B", 0x01000000, 0x1000000), ("Firmware bank A", 0x02000000, 0x400000),
   ("Firmware bank B", 0x02400000, 0x400000), ("Parameter store", 0x02800000, 0x400000), ("Event recorder", 0x02C00000, 0x800000),
   ("Waveform store", 0x03400000, 0x800000), ("Calibration and identity", 0x03C00000, 0x100000), ("Reserved", 0x03D00000, 0x300000)]

/-- The area that holds an address. -/
def areaAt (a : Nat) : Option String := (flashMap.find? (fun x => decide (x.2.1 ≤ a ∧ a < x.2.1 + x.2.2))).map (·.1)

/-- Bytes of a sector. -/
abbrev sectorBytes : Nat := 65536

/-- The address of a sector. Of the calibration and identity area, sectors 0 and 1 hold the two factory copies, 2 to 8 copy A and 9 to 15
copy B of its records (R344; DESIGN CHOICE, log 142). -/
def sectorAddr (a : FlashArea) (i : Nat) : Nat :=
  (match a with | .storeA => 0x02800000 | .storeB => 0x02A00000 | .recorder => 0x02C00000 | .identA => 0x03C20000 | .identB => 0x03C90000) +
    sectorBytes * i

/-- The bank part of target t in bank b (Tables 07-2 and 12-1): first address and size. -/
def bankArea (t b : Nat) : Nat × Nat :=
  if t < 4 then (b * 0x1000000 + t * 0x400000, 0x400000)
  else if t = 4 then (0x02000000 + b * 0x400000, 0x380000)
  else (0x02380000 + b * 0x400000, 0x80000)

/-- The address of sector i of the waveform store. -/
def waveAddr (i : Nat) : Nat := 0x03400000 + sectorBytes * i

/-- The factory contents: two copies in different sectors (R344). -/
def isFactory (a : Nat) : Bool := decide (0x03C00000 ≤ a ∧ a < 0x03C20000)

/-! ### Reading (R345, R353) -/

/-- The newest program operation that covers an address. -/
def FlashDie.progAt (d : FlashDie) (a : Nat) : Option Prog := d.progs.reverse.find? (fun p => decide (p.addr ≤ a ∧ a < p.addr + p.bytes.length))

/-- What an address of the die reads: what was programmed, a free value in a sector that an interrupted erase left, else erased. -/
def FlashDie.byteAt (d : FlashDie) (a : Nat) : Byte :=
  if isFactory a then Config.factoryByte (a % sectorBytes)
  else match d.progAt a with
    | some p => nth 0xFF p.bytes (a - p.addr)
    | none => (match d.wild.find? (fun w => w.1 == a / sectorBytes) with
      | some w => BitVec.ofNat 8 (Config.freeWord (w.2 + a % sectorBytes)).toNat
      | none => 0xFF)

/-- Whether the group at an address carries an uncorrectable error. -/
def FlashDie.flagAt (d : FlashDie) (a : Nat) : Bool := match d.progAt a with
  | some p => nth false p.flags ((a - p.addr) / 8)
  | none => false

def FlashDie.read (d : FlashDie) (a n : Nat) : List Byte := (List.range n).map (fun i => d.byteAt (a + i))
def FlashDie.flagsOf (d : FlashDie) (a n : Nat) : List Bool := (List.range (n / 8)).map (fun g => d.flagAt (a + 8 * g))

/-- No program operation since the erase of its sector touched n bytes from an address. -/
def FlashDie.blank (d : FlashDie) (a n : Nat) : Bool :=
  d.progs.all (fun p => decide (p.addr + p.bytes.length ≤ a ∨ a + n ≤ p.addr)) && d.wild.all (fun w => w.1 != a / sectorBytes)

/-- The sector holds nothing that was programmed, and no erase of it was interrupted. -/
def FlashDie.sectorBlank (d : FlashDie) (a : Nat) : Bool := d.blank (a / sectorBytes * sectorBytes) sectorBytes

/-! ### Program and erase (Table 12-2, R345, R351, R353) -/

/-- Bytes are programmed in whole groups, each once between two erases; never the factory copies or the reserved area (R344, R345). -/
def FlashDie.program (d : FlashDie) (a : Nat) (bs : List Byte) : FlashDie :=
  if d.blank a bs.length && !isFactory a && decide (a + bs.length ≤ 0x03D00000) then
    { d with progs := d.progs ++ [⟨a, bs, List.replicate (bs.length / 8) false⟩] }
  else d

/-- The sector that holds an address is erased. -/
def FlashDie.erase (d : FlashDie) (a : Nat) : FlashDie :=
  { d with
    progs := d.progs.filter (fun p => p.addr / sectorBytes != a / sectorBytes), wild := d.wild.filter (fun w => w.1 != a / sectorBytes) }

/-- The sectors of n bytes from an address are erased. -/
def FlashDie.eraseRange (d : FlashDie) (a n : Nat) : FlashDie :=
  let out (s : Nat) : Bool := decide (s < a / sectorBytes ∨ (a + n) / sectorBytes ≤ s)
  { d with progs := d.progs.filter (fun p => out (p.addr / sectorBytes)), wild := d.wild.filter (fun w => out w.1) }

/-- An erase of the sector that holds an address is interrupted: it reads indeterminate (R353). -/
def FlashDie.spoil (d : FlashDie) (a draw : Nat) : FlashDie :=
  let d := d.erase a
  { d with wild := d.wild ++ [(a / sectorBytes, draw)] }

/-- The bytes of operations up to byte `stop` as they read back, interrupted after n of them: those programmed read their value, those of the
operation under way free values (R351). -/
def tornBytes (draw n stop : Nat) (bs : List Byte) : List Byte :=
  bs.take n ++ (List.range (stop - n)).map (fun i => BitVec.ofNat 8 (Config.freeWord (draw + i)).toNat)

/-- The ECC flags of those groups: one completed before the interruption has none, one after it can. -/
def tornFlags (draw n stop : Nat) : List Bool :=
  (List.range (stop / 8)).map (fun g => decide (n < 8 * g + 8) && (Config.freeWord (draw + g)).getLsbD 8)

/-- A write of `bs` at an address is interrupted after n bytes, in an operation that would have ended at byte `stop`; bytes of operations not
begun stay erased. -/
def FlashDie.tear (d : FlashDie) (a draw n stop : Nat) (bs : List Byte) : FlashDie :=
  if stop = 0 then d else { d with progs := d.progs ++ [⟨a, tornBytes draw n stop bs, tornFlags draw n stop⟩] }

/-- A write of `bs` at an address, whole or cut after `done` of the n bytes of its one operation. -/
def FlashDie.write (d : FlashDie) (a : Nat) (bs : List Byte) (cut : Option Nat) (draw : Nat) : FlashDie := match cut with
  | some done => if done < bs.length then d.tear a draw done bs.length bs else d.program a bs
  | none => d.program a bs

/-! ### Banks and captures (R209, R248) -/

/-- The bytes of a body that an addition completes, in whole groups, with their offset; the last group is filled up with erased bytes. -/
def newGroups (body : List Byte) (old : Nat) (whole : Bool) : Nat × List Byte :=
  let from_ := old / 8 * 8
  let n := if whole then (body.length + 7) / 8 * 8 else body.length / 8 * 8
  (from_, ((body ++ List.replicate 8 0xFF#8).take n).drop from_)

/-- The bytes of a capture in sectors of the waveform store, whole groups. -/
def FlashDie.putCapture (d : FlashDie) (secs : List Nat) (bs : List Byte) : FlashDie :=
  (secs.zipIdx).foldl (fun d p =>
    let part := (bs.drop (sectorBytes * p.2)).take sectorBytes
    let part := part ++ List.replicate ((8 - part.length % 8) % 8) 0xFF#8
    (d.erase (waveAddr p.1)).program (waveAddr p.1) part) d

end Sys2Proof
end

