-- ==== Sys2Proof/Machine/Ops.lean ====
section
/-! DEFINITION. The named operations that every family of commands uses: access to units, time pairs, free values, event
records, parameter-store writes, frames to the partner, and the checks of a dictionary write (Table 11-3). -/

namespace Sys2Proof.Machine

/-! ### Event records (12) -/

/-- The snapshot profile of an event code (0x2B00.0B): code in two bytes, profile in one. -/
def profileOf (m : List Byte) (code : Nat) : Nat :=
  match m with
  | a :: b :: p :: r => if a.toNat * 256 + b.toNat = code then p.toNat else profileOf r code
  | _ => 0

/-- The entries of a profile of 12 triples; index 0 is unused (0x2B00.0A). -/
def profileEntries (bs : List Byte) : List (Nat × Nat) :=
  match bs with
  | a :: b :: s :: r =>
    (if a.toNat * 256 + b.toNat = 0 then [] else [(a.toNat * 256 + b.toNat, s.toNat)]) ++ profileEntries r
  | _ => []

/-- One value of a snapshot: the first 6 bytes of what the entry reads, as a word; a shorter value is zero-extended. -/
def Chip.snapValue (c : Chip) (ix sub : Nat) : Word := toWord (beNat (((c.value ix sub).getD []).take 6))

/-- Capture the snapshot of an event code (R357): profile number and values, profiles numbered from 1 (log 20). -/
def Chip.snapshot (c : Chip) (code : Nat) : Nat × List Word :=
  match profileOf c.dict.codeMap code with
  | 0 => (0, [])
  | p + 1 =>
    (p + 1, (profileEntries ((c.dict.profiles.drop (36 * p)).take 36)).map (fun q => c.snapValue q.1 q.2))

/-- Code of the record that performs a clear. -/
abbrev clearCode : Nat := 0x0C01

/-- Bring records, in their order, into the recorder's queue by the stamp of the first: ahead of those of later stamps (R358), behind the
record of a clear at its head, which is the first written after it (R362). -/
def queueEvents (q recs : List EvRec) : List EvRec :=
  match recs with
  | [] => q
  | r :: _ =>
    let head := q.takeWhile (fun x => x.code == clearCode)
    let rest := q.drop head.length
    let i := (rest.findIdx? (fun x => decide (r.tim.instant < x.tim.instant))).getD rest.length
    head ++ rest.take i ++ recs ++ rest.drop i

/-- Queue an event record with stamp t; a full queue of 256 drops it and counts in 0x2B00.09 (R358). -/
def Chip.eventAs (c : Chip) (t : Instant) (code sev : Nat) (fin : Bool) (src unit org csn : Nat) (dtl : List Byte) : Chip :=
  if c.recd.queue.length < 256 then
    let sn := c.snapshot code
    c.modRec (fun r => { r with queue := queueEvents r.queue [⟨c.pairAt t, code, sev, fin, src, unit, 0, sn.2, sn.1, org, csn, dtl⟩] })
  else c.bump 0x2B00 0x09

/-- An event of the device itself at the present instant. -/
def Chip.event (c : Chip) (code sev src unit : Nat) (dtl : List Byte) : Chip :=
  c.eventAs c.now code sev false src unit 0 0 dtl
/-- The end of a condition whose start was recorded (SEV bit 3, Table 12-6). -/
def Chip.eventEnd (c : Chip) (code sev src unit : Nat) : Chip :=
  c.eventAs c.now code sev true src unit 0 0 []

/-! Severities of Table 12-6. -/
abbrev sevInfo : Nat := 0
abbrev sevMinor : Nat := 1
abbrev sevMajor : Nat := 2
abbrev sevCritical : Nat := 3
abbrev sevAudit : Nat := 4

/-! ### Parameter store (12) -/

/-- Whether the queue of the flash controller takes another record (R349). -/
def Chip.storeFree (c : Chip) : Bool := decide (c.store.queue.length < 64)

/-- Kinds of the records of the calibration and identity area: a key slot, a revocation (R344; DESIGN CHOICE, log 142). -/
abbrev kndKey : Nat := 0x81
abbrev kndRevoke : Nat := 0x82

/-- Queue a record of the parameter store (R346, R349). A write of the device itself, which nobody can be refused, waits while the queue of 64
is full (DESIGN CHOICE, log 143). -/
def Chip.persist (c : Chip) (knd ix sub : Nat) (pay : List Byte) : Chip :=
  let c := c.modStore (fun s =>
    if s.queue.length < 64 then { s with queue := s.queue ++ [(knd, ix, sub, pay, c.now)] }
    else { s with held := s.held ++ [(knd, ix, sub, pay, c.now)] })
  c.wr 0x2D00 0x03 c.store.queue.length

/-- The current record of a key: the highest RSN with a standing copy (R350). -/
def storeCurrent (s : Store) (knd ix sub : Nat) : Option PRec :=
  (s.recs.filter (fun r => r.knd == knd && r.ix == ix && r.sub == sub && (r.a || r.b))).foldl
    (fun best r => match best with
      | none => some r
      | some b => if b.rsn < r.rsn then some r else some b) none

/-! ### Onbex frames (06) -/

/-- Bytes of frames held for retransmission (R176). -/
def storeSize (l : List (Nat × OnbexOut)) : Nat := l.foldl (fun n p => n + frameSize p.2) 0

/-- Drop the oldest frames until the store holds at most 256 KiB. -/
def trimStore : List (Nat × OnbexOut) → List (Nat × OnbexOut)
  | [] => []
  | p :: l => if storeSize (p :: l) ≤ 262144 then p :: l else trimStore l

/-- The Onbex port carries frames: pair mode is in force, the link is up, and no fence blocks the port (Table 01-7). -/
def Chip.onbexOpen (c : Chip) : Bool := c.pair.inForce && c.bit 0x2400 0x0A 0 && !c.bit 0x2100 0x03 14

/-- Send a frame to the partner: the next link sequence number, and a copy kept for a NAK. -/
def Chip.send (c : Chip) (f : OnbexOut) : Chip :=
  if c.onbexOpen then
    c.modPair (fun p => { p with lsnOut := (p.lsnOut + 1) % 2 ^ 32, store := trimStore (p.store ++ [(p.lsnOut, f)]) })
  else c

/-! Pair states of Table 06-11. -/
abbrev psAlone : Nat := 0
abbrev psJoining : Nat := 1
abbrev psSynchronising : Nat := 2
abbrev psStandbyReady : Nat := 3
abbrev psActive : Nat := 4
abbrev psFenced : Nat := 5

def Chip.pairState (c : Chip) : Nat := c.rd 0x2400 0x03
def Chip.partnerState (c : Chip) : Nat := c.rd 0x2400 0x04
/-- The chip acts for itself: alone, or active in a pair (R193, check 7 of Table 11-3). -/
def Chip.acts (c : Chip) : Bool := decide (c.pairState = psAlone ∨ c.pairState = psActive)
/-- In a pair with the partner STANDBY_READY (R34). -/
def Chip.partnerReady (c : Chip) : Bool := decide (c.pairState = psActive ∧ c.partnerState = psStandbyReady)

/-! ### Dictionary (11) -/

/-- Entries whose writes act on one chip alone (R323). -/
def chipLocal (ix sub : Nat) : Bool :=
  decide ((ix = 0x2000 ∧ (sub = 0x10 ∨ sub = 0x20 ∨ sub = 0x26)) ∨ (ix = 0x2300 ∧ sub = 0x30) ∨
    (ix = 0x2400 ∧ (sub = 0x01 ∨ sub = 0x20)) ∨ (ix = 0x2600 ∧ sub = 0x07) ∨ (0x2910 ≤ ix ∧ ix < 0x2914 ∧ sub = 0x06))

/-- The dictionary answers: firmware up, READY raised (R434), or the ROM in recovery (Table 15-6). -/
def Chip.answering (c : Chip) : Bool := (c.dict.mssUp && c.rd 0x2000 0x05 == 1) || c.power.phase == .recovery

/-- In recovery the ROM answers for indices 0x2000 and 0x2514 alone (Table 15-6). -/
def Chip.reach (c : Chip) (ix : Nat) : Bool := c.power.phase != .recovery || ix == 0x2000 || ix == 0x2514

def Chip.session (c : Chip) (sid : Nat) : Option Session := c.dict.sessions.find? (fun x => x.sid == sid)

/-- Bytes 0 to 19 + LEN of a message (Table 11-5). -/
def messageBytes (typ sid ctr csn rctr : Nat) (pay : List Byte) : List Byte :=
  beBytes 0x5358 2 ++ beBytes 1 1 ++ beBytes typ 1 ++ beBytes sid 4 ++ beBytes ctr 4 ++ beBytes csn 4 ++
    beBytes pay.length 2 ++ beBytes rctr 2 ++ pay

/-- The same of a client message, whose RCTR is 0. -/
def msgBytes (typ sid ctr csn : Nat) (pay : List Byte) : List Byte := messageBytes typ sid ctr csn 0 pay

/-- TYPE and payload of a device message (Table 11-6). -/
def ansType : AnsBody → Nat
  | .challenge _ => 0x02
  | .opened .. => 0x04
  | .ok .. | .noValue => 0x20
  | .abort _ => 0x21
def ansPayload : AnsBody → List Byte
  | .challenge nd => beBytes nd 16
  | .opened role timeout => beBytes role 1 ++ beBytes timeout 2
  | .ok total bytes => if total = 0 then [] else beBytes total 4 ++ bytes
  | .noValue => beBytes 0 4
  | .abort code => beBytes code 4

/-- The answer to a read of a value of `total` bytes, of which `bytes` are carried. -/
def readBody (total : Nat) (bytes : List Byte) : AnsBody := if total = 0 then .noValue else .ok total bytes

/-- CTR of the device's latest message of a session: it counts its own from 1 with OPENED; what precedes the session takes no number
(R326, R327). -/
def Chip.ctrOut (c : Chip) (sid : Nat) : Nat :=
  ((c.dict.answers.filter (fun a => a.sid == some sid)).dropWhile (fun a => match a.body with
    | .opened .. => false
    | _ => true)).length

/-- A device message as it is sent: in a session with the next CTR and the MAC under its key; outside of one with CTR 0 and no MAC
(R325-R328, log 147). -/
def Chip.message (c : Chip) (sid csn rctr : Nat) (b : AnsBody) : List Byte :=
  match c.session sid with
  | some x =>
    let m := messageBytes (ansType b) sid (c.ctrOut sid + 1) csn rctr (ansPayload b)
    m ++ beBytes (Config.hmac16 x.key m) 16
  | none => messageBytes (ansType b) sid 0 csn rctr (ansPayload b)

/-- Put an answer into the answer list (R330); one of the service waits to leave (log 148). -/
def Chip.answer (c : Chip) (sid : Option Nat) (csn ctr : Nat) (b : AnsBody) : Chip :=
  c.modDict (fun d => { d with
    answers := d.answers ++ [⟨sid, csn, ctr % 2 ^ 16, b⟩],
    outbox := match sid with
      | some n => d.outbox ++ [c.message n csn (ctr % 2 ^ 16) b]
      | none => d.outbox })

/-- The service takes a datagram: its port, up to 1 436 bytes, MAGIC and VER (R325). -/
def udpTaken (x : Datagram) : Bool := x.port == 41720 && x.magic == 0x5358 && x.ver == 1 && decide (x.size ≤ 1436)

/-- Payload of a WRITE (Table 11-6). -/
def writePayload (ix sub flags off : Nat) (data : List Byte) : List Byte :=
  beBytes ix 2 ++ beBytes sub 1 ++ beBytes flags 1 ++ beBytes off 4 ++ data

/-- Payload of a READ (Table 11-6). -/
def readPayload (ix sub off want : Nat) : List Byte :=
  beBytes ix 2 ++ beBytes sub 1 ++ beBytes 0 1 ++ beBytes off 4 ++ beBytes want 2

/-- Sessions that a test picks end; their identifiers are remembered (R328). -/
def Chip.endSessions (c : Chip) (p : Session → Bool) : Chip :=
  c.modDict (fun d => { d with
    ended := d.ended ++ (d.sessions.filter p).map (·.sid), sessions := d.sessions.filter (fun x => !p x) })

/-- A session without an accepted message for 60 s has ended (R328). -/
def Chip.expireSession (c : Chip) (sid : Nat) (t : Instant) : Chip :=
  match c.session sid with
  | some x => if x.last + 60000000000 ≤ t then c.endSessions (fun y => y.sid == sid) else c
  | none => c

/-- Acceptance of a message of an open session (R327): some session where it is accepted, with its counter and time
advanced; otherwise the message is discarded and counted in 0x2000.22, or, for a session that has ended, answered by an
ABORT with the CSN of the request (R328, R330). -/
def Chip.accept (c : Chip) (sid ctr mac : Nat) (bytes : List Byte) : Chip × Option Session :=
  let c := c.expireSession sid c.now
  match c.session sid with
  | some x =>
    if x.ctrIn < ctr ∧ ctr < 2 ^ 32 ∧ mac = Config.hmac16 x.key bytes then
      (c.modDict (fun d => { d with sessions := d.sessions.map (fun y =>
          if y.sid == sid then { y with ctrIn := ctr, last := c.now } else y) }), some x)
    else (c.bump 0x2000 0x22, none)
  | none =>
    if c.dict.ended.contains sid then (c.answer (some sid) (beNat ((bytes.drop 12).take 4)) ctr (.abort 0x0B000007), none)
    else (c.bump 0x2000 0x22, none)

/-- Who writes: path, role, originator, command sequence number, message counter, session number. -/
structure Who where
  path : Option Nat
  role : Nat
  org  : Nat
  csn  : Nat
  ctr  : Nat
  snum : Nat
  deriving DecidableEq, Repr

/-- The identity under which an originator's commands are kept: an SDO node apart from a key identity (R194). -/
def Who.orig (w : Who) : Nat := match w.path with
  | some _ => w.org
  | none => 0x10000 + w.org

/-- The originator's entry of the replicated set (R195). -/
def Chip.orig (c : Chip) (id : Nat) : Option Originator := c.pair.origs.find? (fun o => o.id == id)

/-- A command sequence number against the originator's state (check 8 of Table 11-3). -/
inductive CsnCheck where
  | fresh
  | repeated (result : Nat)
  | queued
  | below
  deriving DecidableEq, Repr

/-- Whether a queued item, not yet taken, carries this number of this originator (R195). -/
def Chip.csnQueued (c : Chip) (w : Who) : Bool :=
  c.regions.any (fun r => r.queue.any (fun q =>
    (match q.path with | some _ => q.org | none => 0x10000 + q.org) == w.orig && q.csn == w.csn))

/-- The window is the 64 numbers below the highest executed one (R195, log 19). -/
def Chip.csnCheck (c : Chip) (w : Who) : CsnCheck :=
  match c.orig w.orig with
  | none => if c.csnQueued w then .queued else .fresh
  | some o =>
    match o.window.find? (fun p => p.1 == w.csn) with
    | some p => .repeated p.2
    | none =>
      if c.csnQueued w then .queued
      else if w.csn + 64 < o.highest then .below
      else .fresh

/-- Remove the originator whose latest command was executed at the earliest muster, the lower identity first (R195). -/
def evictOrig (l : List Originator) : List Originator :=
  match l with
  | [] => []
  | o :: r =>
    let v := r.foldl (fun (b : Originator) x =>
      if x.latest < b.latest ∨ (x.latest = b.latest ∧ x.id < b.id) then x else b) o
    (o :: r).filter (fun x => x.id != v.id)

/-- Record the execution of a command with its result, at the present instant (R195). -/
def Chip.executed (c : Chip) (id csn result : Nat) : Chip :=
  match c.orig id with
  | some _ =>
    c.modPair (fun p => { p with origs := p.origs.map (fun o =>
      if o.id == id then
        let h := max o.highest csn
        { o with highest := h, latest := c.now,
                 window := (o.window ++ [(csn, result)]).filter (fun q => decide (h ≤ q.1 + 64)) }
      else o) })
  | none =>
    let full := decide (32 ≤ c.pair.origs.length)
    let c' := if full then c.bump 0x2400 0x13 else c
    c'.modPair (fun p => { p with origs := (if full then evictOrig p.origs else p.origs) ++ [⟨id, csn, [(csn, result)], c.now⟩] })

/-- The same with the instant of the execution given. -/
def Chip.executedOn (c : Chip) (t : Instant) (id csn result : Nat) : Chip := ((c.at_ t).executed id csn result).at_ c.now

/-- Answer every request that waits for the result of a command (R320, R330). -/
def Chip.answerWaiting (c : Chip) (id csn : Nat) (b : AnsBody) : Chip :=
  let mine := c.dict.waiting.filter (fun q => q.1 == id && q.2.1 == csn)
  let c := c.modDict (fun d => { d with waiting := d.waiting.filter (fun q => !(q.1 == id && q.2.1 == csn)) })
  mine.foldl (fun c q => c.answer q.2.2.1 csn q.2.2.2 b) c

/-- The answer to a command with a result code (0 success). -/
def resultBody (r : Nat) : AnsBody := if r = 0 then .ok 0 [] else .abort r

/-- What the checks of a write end in. -/
inductive Verdict where
  | ended (c : Chip)
  | go (c : Chip) (w : Who)

/-- The number that the device gives the next SDO write of the node: above every one it has given, and above those that the replicated set
holds of the node, so that a new active goes on where the old one ended (R195, R335). -/
def Chip.nextSdoCsn (c : Chip) : Nat :=
  max c.dict.sdoCsn (match c.orig (0x10000 + c.rd 0x2900 0x22) with
    | some o => o.highest
    | none => 0) + 1

/-- Check 1 of Table 11-3 and who writes. SDO writes carry the role of 0x2900.23, the node of 0x2900.22 and a fresh number
(R335); they come only through a configured SDO port (R310). -/
def Chip.identify (c : Chip) (a : Acc) (bytes : List Byte) : Verdict :=
  if c.answering then
    match a.sid with
    | some sid =>
      if udpTaken a.udp = false then .ended c
      else match c.accept sid a.ctr a.mac bytes with
      | (c, some x) => .go c ⟨some sid, x.role, x.kid, a.csn, a.ctr, x.num⟩
      | (c, none) => .ended c
    | none =>
      if c.rd 0x2900 0x20 = 0 then .ended c
      else
        .go (c.modDict (fun d => { d with sdoCsn := c.nextSdoCsn }))
          ⟨none, c.rd 0x2900 0x23, c.rd 0x2900 0x22, c.nextSdoCsn, 0, 0⟩
  else .ended c

/-- Refuse a write with an abort code. -/
def Chip.refuse (c : Chip) (w : Who) (code : Nat) : Chip := c.answer w.path w.csn w.ctr (.abort code)

/-- Whether the index exists (check 2): tabulated, or an edit or export entry of a loaded image. -/
def indexExists (ix : Nat) : Bool := entries.any (fun e => decide (e.base ≤ ix) && decide (ix < e.base + e.count))

/-- Checks 2 to 9 of Table 11-3 on a write of a tabulated entry: `n` bytes carrying the number `v`. The number of a text,
time pair or domain takes no part in the range; a byte string has the range that its own table gives. -/
def Chip.checkWrite (c : Chip) (w : Who) (ix sub n v : Nat) : Verdict :=
  match entryOf ix sub with
  | none =>
    if indexExists ix then (if sub = 0 ∧ 0x2000 ≤ ix then .ended (c.refuse w 0x06010002) else .ended (c.refuse w 0x06090011))
    else .ended (c.refuse w 0x06020000)
  | some e =>
    if e.acc = .ro ∨ e.acc = .const then .ended (c.refuse w 0x06010002)
    else if w.role < e.wRole then .ended (c.refuse w 0x0B000001)
    else if ¬ lenOk e ix sub n then .ended (c.refuse w 0x06070010)
    else if ¬ (c.acts || chipLocal ix sub) then .ended (c.refuse w 0x0B000005)
    else
      match c.csnCheck w with
      | .repeated r => .ended (c.answer w.path w.csn w.ctr (resultBody r))
      | .queued => .ended (c.modDict (fun d => { d with waiting := d.waiting ++ [(w.orig, w.csn, w.path, w.ctr)] }))
      | .below => .ended (c.refuse w 0x0B000003)
      | .fresh =>
        if (e.ty = .text ∨ e.ty = .domain ∨ e.ty = .pair) ∨ (e.ty = .octets ∧ specialRange ix sub v = true) ∨
            rangeOk e ix sub v = true then .go c w
        else .ended (c.refuse w 0x06090030)

/-- The commands that forward an executed write, in order: its value in stretches of 4 000 bytes, the last with the write itself (R175). -/
def fwdWrites (t : Instant) (ix sub : Nat) (data : List Byte) (org csn : Nat) : List FwdCmd :=
  let k := (data.length - 1) / 4000
  (List.range k).map (fun i => .more org csn ((data.drop (4000 * i)).take 4000)) ++ [.write t ix sub (data.drop (4000 * k)) org csn]

/-- The value of an rw entry that a write accepted in this microsecond for a session of a higher number has set: that write is later in the
order of acceptance, whichever arrived first (R322). -/
def Chip.laterWrite (c : Chip) (w : Who) (ix sub : Nat) : Option (List Byte) :=
  if (match entryOf ix sub with | some e => e.acc == .rw | none => false) && w.path.isSome then
    (c.dict.lately.find? (fun x => x.1 == c.now / 1000 && decide (w.snum < x.2.1) && x.2.2.1 == ix && x.2.2.2.1 == sub)).map (·.2.2.2.2)
  else none

/-- Keep a write among those of its microsecond. -/
def Chip.noteWrite (c : Chip) (w : Who) (ix sub : Nat) (data : List Byte) : Chip :=
  c.modDict (fun d => { d with
    lately := d.lately.filter (fun x => x.1 == c.now / 1000) ++ (if w.path.isSome then [(c.now / 1000, w.snum, ix, sub, data)] else []) })

/-- Carry out the owning chapter's part of a write: on success the command is executed, recorded under R195, forwarded to
the partner where the entry is shared, and answered; on refusal its abort code is answered and nothing is changed. A value that a later write
of the same microsecond has set stands (R322). -/
def Chip.conclude (c : Chip) (w : Who) (ix sub : Nat) (data : List Byte) (r : Except Nat Chip) : Chip :=
  match r with
  | .error code => c.refuse w code
  | .ok c' =>
    let later := c.laterWrite w ix sub
    let c' := ((if later.isSome then c else c').executed w.orig w.csn 0).noteWrite w ix sub data
    let c' := if chipLocal ix sub then c'
      else (fwdWrites c'.now ix sub (later.getD data) w.orig w.csn).foldl (fun c f => c.send (.cmd f)) c'
    c'.answer w.path w.csn w.ctr (.ok 0 [])

/-- A write of one message whose entry has a command of its own: checks, then the owner's effect. -/
def Chip.writeOwn (c : Chip) (a : Acc) (ix sub v : Nat) (data : List Byte) (eff : Chip → Who → Except Nat Chip) : Chip :=
  if c.reach ix then
    match (c.at_ a.t).identify a (msgBytes 0x11 (a.sid.getD 0) a.ctr a.csn (writePayload ix sub 1 0 data)) with
    | .ended c => c
    | .go c w =>
      match c.checkWrite w ix sub data.length v with
      | .ended c => c
      | .go c w => c.conclude w ix sub data (eff c w)
  else c

/-- The same for a number of the entry's type, in `a.len` bytes. -/
def Chip.writeNum (c : Chip) (a : Acc) (ix sub v : Nat) (eff : Chip → Who → Except Nat Chip) : Chip :=
  c.writeOwn a ix sub v (beBytes v a.len) eff

/-! Abort codes of Table 11-4 that owners return. -/
abbrev abBusy : Nat := 0x0B000002
abbrev abState : Nat := 0x0B000003
abbrev abLocked : Nat := 0x0B000004
abbrev abNotActive : Nat := 0x0B000005
abbrev abRole : Nat := 0x0B000006
abbrev abAuth : Nat := 0x0B000007
abbrev abRange : Nat := 0x06090030

/-- Take a stored entry into the parameter store, in the byte order of the flash die (R2), or refuse with "busy" (R349). -/
def Chip.stored (c : Chip) (ix sub : Nat) (data : List Byte) (f : Chip → Chip) : Except Nat Chip :=
  if c.storeFree then .ok (f (c.persist 1 ix sub (otherOrder ix sub data))) else .error abBusy

/-- Checks 2 to 5 of Table 11-3 on a read of a tabulated entry; none where it passes. -/
def Chip.readCheck (w : Who) (ix sub : Nat) : Option Nat :=
  match entryOf ix sub with
  | none => some (if indexExists ix then 0x06090011 else 0x06020000)
  | some e => if e.acc = .wo then some 0x06010001 else if w.role < e.rRole then some 0x0B000001 else none

/-- Answer a read with its value: the whole length and the bytes from the offset, as far as a payload of 1 400 bytes takes
them (Tables 11-5 and 11-6). -/
def Chip.serveRead (c : Chip) (w : Who) (off want : Nat) (val : Chip → Chip × List Byte) : Chip :=
  let r := val c
  r.1.answer w.path 0 w.ctr (readBody r.2.length ((r.2.drop off).take (min want 1396)))

/-- Who reads, after check 1. -/
def Chip.reader (c : Chip) (m : Msg) (bytes : List Byte) : Verdict :=
  if c.answering then
    match m.sid with
    | some sid =>
      if udpTaken m.udp = false then .ended c
      else match c.accept sid m.ctr m.mac bytes with
      | (c, some x) => .go c ⟨some sid, x.role, x.kid, 0, m.ctr, x.num⟩
      | (c, none) => .ended c
    | none =>
      if c.rd 0x2900 0x20 = 0 then .ended c
      else .go c ⟨none, c.rd 0x2900 0x23, c.rd 0x2900 0x22, 0, 0, 0⟩
  else .ended c

/-- A READ of a tabulated entry whose value the owner gives (R330). -/
def Chip.readOwn (c : Chip) (m : Msg) (ix sub off want : Nat) (val : Chip → Chip × List Byte) : Chip :=
  if c.reach ix then
    match (c.at_ m.t).reader m (msgBytes 0x10 (m.sid.getD 0) m.ctr 0 (readPayload ix sub off want)) with
    | .ended c => c
    | .go c w =>
      match Chip.readCheck w ix sub with
      | some code => c.refuse w code
      | none => c.serveRead w off want val
  else c

/-! ### Task classes (02) -/

/-- State codes of Table 02-12. -/
abbrev csNone : Nat := 0
abbrev csLoaded : Nat := 1
abbrev csRunning : Nat := 2
abbrev csRestarting : Nat := 3
abbrev csStopped : Nat := 4
abbrev csProgFault : Nat := 5
abbrev csHwFault : Nat := 6

def Chip.clState (c : Chip) (n : Nat) : Nat := c.rd (0x2210 + n) 0x08
/-- Set the state of a class; 0x2200.01 to .03 follow it (Table 02-8). -/
def Chip.setClState (c : Chip) (n st : Nat) : Chip :=
  let c := c.wr (0x2210 + n) 0x08 st
  let c := c.setBit 0x2200 0x01 n (st != 0)
  let c := c.setBit 0x2200 0x02 n (st == csRunning)
  c.setBit 0x2200 0x03 n (st == csStopped || st == csProgFault || st == csHwFault)

/-- The cycle number of a class. -/
def Chip.cy (c : Chip) (n : Nat) : Nat := c.rd (0x2210 + n) 0x09

/-- Whether engine position e is a member of the class; `members` has bit e set (R41). -/
def clsHas (k : Cls) (e : Nat) : Bool := match k.cfg with
  | some g => g.members.testBit e
  | none => false
/-- The engine positions of a class in ascending order; member index p is place p (R42). -/
def clsTeam (k : Cls) : List Nat := (List.range 32).filter (clsHas k)
/-- The region of a class: that of its first member. -/
def clsRegion (k : Cls) : Nat := ((clsTeam k).headD 0) / 8
/-- The class that engine position e serves. -/
def Chip.classOf (c : Chip) (e : Nat) : Option Nat := (List.range 16).find? (fun n => clsHas (c.cl n) e)
/-- Period of a class in nanoseconds. -/
def cfgPeriod (g : ClsCfg) : Nat := g.period * tickNs
/-- Whether a class is released at a tick number (R39). -/
def cfgReleased (g : ClsCfg) (n : Nat) : Bool := n % g.period == g.phase

/-- The class that owns output n (DO), and that owns output o (AO), by the images in force (R43). -/
def Chip.ownerDo (c : Chip) (n : Nat) : Option Nat := (List.range 16).find? (fun k => match (c.cl k).cfg with
  | some g => g.doOut.any (fun p => p.1 == n)
  | none => false)
def Chip.ownerAo (c : Chip) (o : Nat) : Option Nat := (List.range 16).find? (fun k => match (c.cl k).cfg with
  | some g => g.aoOut.any (fun p => p.1 == o)
  | none => false)
/-- Whether a class is running or restarting (states 2 and 3). -/
def Chip.busyClass (c : Chip) (n : Option Nat) : Bool := match n with
  | some n => decide (c.clState n = csRunning ∨ c.clState n = csRestarting)
  | none => false

/-! ### Crossings (01, 15) -/

/-- Whether some image places a source. -/
def Chip.placed (c : Chip) (src : ItemSrc) : Bool := c.cls.any (fun k => match k.cfg with
  | some g => g.inputs.any (fun p => p.src == src) || (match src with
    | .remote x => g.remote.any (fun y => y.module == x)
    | _ => false)
  | none => false)

/-- Which die or port of Table 01-12 an item comes through, where its source alone says so; 16 for none. -/
def portOf : ItemSrc → Nat
  | .diLevel | .diRecord _ | .diCount _ | .diFreq _ | .ai _ | .supply | .doStatus _ | .aoStatus _ => 0
  | .can p _ => 10 + p.val
  | .goose _ _ | .gooseNums _ | .remote _ | .frozen _ => 16
  | .grid _ | .computed _ _ | .eventWord _ | .capturePage => 15

/-- Send an item that came through port p toward the region ports; an item that no image places goes nowhere, and none leaves a
function whose port is fenced (R33). -/
def Chip.pushFrom (c : Chip) (p : Nat) (i : Item) : Chip :=
  if c.placed i.src && !(decide (p < 16) && c.bit 0x2100 0x03 p) then { c with crossing := c.crossing ++ [(p, i)] } else c

/-- Send an item toward the region ports through the port of its source. -/
def Chip.pushItem (c : Chip) (i : Item) : Chip := c.pushFrom (portOf i.src) i

/-! ### Ethernet (10) -/

/-- A port is fenced: its own bit, or that of the SerDes port that has replaced its copper (R284, Table 01-12). -/
def Chip.ethFenced (c : Chip) (p : Nat) : Bool :=
  let x := nth 0 c.net.serdes p
  c.bit 0x2100 0x03 (4 + p) || (x != 0 && c.bit 0x2100 0x03 (7 + x))

/-- A port carries traffic: enabled, of a bus that uses it, its link up, not fenced (R283-R287). -/
def Chip.portOn (c : Chip) (p : Nat) : Bool :=
  c.bit 0x2900 0x01 p && c.power.domains.getLsbD 8 && c.bit (0x2910 + p) 0x03 0 && !c.ethFenced p &&
    (if p = 1 then !c.net.stAlone else if 2 ≤ p then !c.net.prOff else true)
/-- The ports of a bus; true is the process bus. -/
def busPorts (process : Bool) : List Nat := if process then [2, 3] else [0, 1]
/-- A port stamp: 8 ns is its resolution (R285). -/
def portStamp (t : Instant) : Instant := t / 8 * 8
/-- The queue of a port from which an 802.1Q priority leaves, 3 the highest (R289). -/
def queueOf (priority : Nat) : Nat := priority % 8 / 2
/-- The queue of a frame: publications by the priority of their tag, PTP events from queue 3, everything else untagged from queue 0 (R289). -/
def txQueue : NetOut → Nat
  | .goose _ tag _ _ _ _ _ _ _ _ _ _ | .sv _ tag _ _ _ _ _ => queueOf tag
  | .sync _ _ _ | .pdelayReq _ _ | .pdelayResp _ _ _ | .forward _ (some _) _ => 3
  | _ => 0
/-- The dataset of a publication. -/
def txDataset : NetOut → Option Nat
  | .goose _ _ ds _ _ _ _ _ _ _ _ _ => some ds
  | _ => none
/-- Of frames queued at one instant the higher queue leaves first, and of one queue the lower dataset (R289, R291). -/
def leavesBefore (x y : TxFrame) : Bool :=
  decide (x.at_ < y.at_) || (x.at_ == y.at_ && (decide (y.queue < x.queue) || (x.queue == y.queue &&
    (match txDataset x.frame, txDataset y.frame with
    | some a, some b => decide (a < b)
    | _, _ => false))))
/-- A frame takes its place among those that leave a port. -/
def placeTx (x : TxFrame) (l : List TxFrame) : List TxFrame :=
  l.takeWhile (fun y => !leavesBefore x y) ++ x :: l.dropWhile (fun y => !leavesBefore x y)
/-- A frame leaves port p, counted and stamped at an instant that is free (R72, R285). -/
def Chip.leave (c : Chip) (o : NetOut) (p : Nat) : Chip :=
  let x : TxFrame := ⟨c.now, txQueue o, portStamp (c.now + Config.departAfter c.net.sent.length p + 7), o⟩
  (c.bump (0x2910 + p) 0x09).modNet (fun n => { n with eth := modNth EthPort.reset (fun e => { e with out := placeTx x e.out }) n.eth p })
/-- Send a frame on every port that carries traffic of a list. -/
def Chip.emit (c : Chip) (ports : List Nat) (o : NetOut) : Chip :=
  match ports.filter (fun p => c.portOn p) with
  | [] => c
  | ps => (ps.foldl (fun c p => c.leave o p) c).modNet (fun n => { n with sent := n.sent ++ [o] })
/-- Take the next sequence number of the own address of a bus (R288); without redundancy a frame has no trailer and takes none (R286). -/
def Chip.nextOwnSeq (c : Chip) (process : Bool) : Option Nat × Chip :=
  if process then (some c.net.seqOwnP, c.modNet (fun n => { n with seqOwnP := (n.seqOwnP + 1) % 2 ^ 16 }))
  else if c.net.stAlone then (none, c)
  else (some c.net.seqOwnS, c.modNet (fun n => { n with seqOwnS := (n.seqOwnS + 1) % 2 ^ 16 }))
/-- Take the next sequence number of a publication: that of the pair publication address, or with pair mode disabled the one
counter of the own address (R288). -/
def Chip.nextPubSeq (c : Chip) (process : Bool) : Option Nat × Chip :=
  if c.pair.inForce then
    if process then (some c.net.seqPairP, c.modNet (fun n => { n with seqPairP := (n.seqPairP + 1) % 2 ^ 16 }))
    else if c.net.stAlone then (none, c)
    else (some c.net.seqPairS, c.modNet (fun n => { n with seqPairS := (n.seqPairS + 1) % 2 ^ 16 }))
  else c.nextOwnSeq process
/-- Send a frame from the own address on some ports of a bus, with the next number of the own counter (R288). -/
def Chip.emitOwn (c : Chip) (process : Bool) (ports : List Nat) (f : Option Nat → NetOut) : Chip :=
  let q := c.nextOwnSeq process
  q.2.emit ports (f q.1)

/-- The answers of the service that wait leave on the station bus (R325, R330): A response may leave at any instant within its bound, and the
model has it leave with the next Ethernet command (DESIGN CHOICE, log 148). -/
def Chip.sendMessages (c : Chip) : Chip :=
  if c.dict.outbox = [] then c
  else c.dict.outbox.foldl (fun c bs => c.emitOwn false (busPorts false) (.dictionary bs)) (c.modDict (fun d => { d with outbox := [] }))

/-! ### Fences (01) -/

def Chip.silFenced (c : Chip) (sil : Nat) : Bool := c.bit 0x2100 0x01 sil
def Chip.portFenced (c : Chip) (p : Nat) : Bool := c.bit 0x2100 0x03 p

/-- The 4-bit silicon code of a work map entry (Table 05-9): position p of region r. -/
def Chip.servedBy (c : Chip) (e : Nat) : Nat := c.fld 0x2300 (0x10 + e / 8) (4 * (e % 8) + 3) (4 * (e % 8))
/-- The relief silicon code of a region (Table 05-9). -/
def Chip.reliefSil (c : Chip) (r : Nat) : Nat := c.fld 0x2300 (0x10 + r) 39 36
/-- Silicon by natural number from its code in region r. -/
def silOf (r code : Nat) : Nat := if code = 8 then 32 + r else 8 * r + code
/-- The code of a silicon. -/
def codeOf (sil : Nat) : Nat := if 32 ≤ sil then 8 else sil % 8
/-- The region of a silicon. -/
def regOf (sil : Nat) : Nat := if 32 ≤ sil then sil - 32 else sil / 8
/-- Relief state of a region (Table 05-11). -/
def Chip.reliefState (c : Chip) (r : Nat) : Nat := c.fld 0x2300 0x14 (4 * r + 3) (4 * r)
def Chip.setReliefState (c : Chip) (r v : Nat) : Chip := c.setFld 0x2300 0x14 (4 * r + 3) (4 * r) v

end Sys2Proof.Machine
end

