-- ==== Sys2Proof/Machine/Cal.lean ====
section
/-! DEFINITION. The calendar (13, R365-R375): counting with carries, read shadows, write shadow and commit, shift, discipline. -/

namespace Sys2Proof.Machine

/-! ### Dates (R367) -/

def leapYear (y : Nat) : Bool := (y % 4 == 0 && y % 100 != 0) || y % 400 == 0
def monthDays (y m : Nat) : Nat :=
  match m with
  | 2 => if leapYear y then 29 else 28
  | 4 | 6 | 9 | 11 => 30
  | _ => 31

/-- The day after; 2999-12-31 is followed by 2000-01-01 (R368). The year counts from 2000. -/
def calNextDay (v : CalVal) : CalVal :=
  if v.day < monthDays (2000 + v.year) v.mon then { v with day := v.day + 1 }
  else if v.mon < 12 then { v with day := 1, mon := v.mon + 1 }
  else { v with day := 1, mon := 1, year := if v.year < 999 then v.year + 1 else 0 }

/-- A second passes; the Bool says that the day changed. -/
def calSecond (v : CalVal) : CalVal × Bool :=
  if v.sec < 59 then ({ v with sec := v.sec + 1 }, false)
  else if v.min < 59 then ({ v with sec := 0, min := v.min + 1 }, false)
  else if v.hour < 23 then ({ v with sec := 0, min := 0, hour := v.hour + 1 }, false)
  else (calNextDay { v with sec := 0, min := 0, hour := 0 }, true)

/-- CAL_SUB advances by k counts, 0 to 2. -/
def calAdvance (v : CalVal) (k : Nat) : CalVal × Bool :=
  if v.sub + k ≤ 32767 then ({ v with sub := v.sub + k }, false)
  else calSecond { v with sub := v.sub + k - 32768 }

/-- The last second of the range (R368). -/
def calLast (v : CalVal) : Bool :=
  v.year == 999 && v.mon == 12 && v.day == 31 && v.hour == 23 && v.min == 59 && v.sec == 59

/-- Days from 2000-01-01 to a date. -/
def daysTo (y m d : Nat) : Nat :=
  ((List.range (y - 2000)).map (fun i => if leapYear (2000 + i) then 366 else 365)).sum +
    ((List.range (m - 1)).map (fun i => monthDays y (i + 1))).sum + (d - 1)

/-- Counts from 2000-01-01 00:00:00 to a calendar value. -/
def calCounts (v : CalVal) : Nat :=
  (((daysTo (2000 + v.year) v.mon v.day * 24 + v.hour) * 60 + v.min) * 60 + v.sec) * 32768 + v.sub

/-- The year and the day of the year of a day number since 2000-01-01, within 1 000 years. -/
def yearOfDay : Nat → Nat → Nat → Nat × Nat
  | 0, y, d => (y, d)
  | n + 1, y, d =>
    let k := if leapYear (2000 + y) then 366 else 365
    if d < k then (y, d) else yearOfDay n (y + 1) (d - k)
/-- The month and the day of the month of a day of the year. -/
def monthOfDay (y : Nat) : Nat → Nat → Nat → Nat × Nat
  | 0, m, d => (m, d + 1)
  | n + 1, m, d => if d < monthDays (2000 + y) m then (m, d + 1) else monthOfDay y n (m + 1) (d - monthDays (2000 + y) m)

/-- The calendar value of a number of counts since 2000-01-01 00:00:00. -/
def calOf (n : Nat) : CalVal :=
  let s := n / 32768
  let yd := yearOfDay 999 0 (s / 86400)
  let md := monthOfDay yd.1 11 1 yd.2
  ⟨n % 32768, s % 60, s / 60 % 60, s / 3600 % 24, md.2, md.1, yd.1⟩

/-- Counts of UTC since 2000-01-01 00:00:00 at an instant of station time (R375, R412). -/
def Chip.utcCounts (c : Chip) (t : Instant) : Nat :=
  let ns : Int := (t : Int) - ((c.rdw 0x2A00 0x0D).toInt + 946684800) * 1000000000
  ns.toNat * 32768 / 1000000000

/-! ### Registers (Table 13-1, Table 13-2) -/

/-- BCD to binary; meaningful for decimal digits. -/
def ofBcd (b : Nat) : Nat := b % 16 + b / 16 % 16 * 10 + b / 256 % 16 * 100 + b / 4096 % 16 * 1000
/-- Every nibble is a decimal digit. -/
def bcdOk (b : Nat) : Bool := decide (b % 16 < 10 ∧ b / 16 % 16 < 10 ∧ b / 256 % 16 < 10 ∧ b / 4096 % 16 < 10)

/-- A read of a register: CAL_SUB to CAL_WDAY freeze the read shadows, CAL_YEAR releases them (R370). -/
def calReadReg (k : Calendar) (r : Nat) : Calendar :=
  if r < 8 then
    let f := match k.frozen with
      | some l => l
      | none => calRegs k.now ++ [k.wday]
    let age := if k.frozen.isSome then k.frozenAge else 0
    { k with frozen := if r = 6 then none else some f, frozenAge := if r = 6 then 0 else age, rdata := nth 0 f r }
  else { k with rdata := match r with
    | 8 => calStat k
    | 10 => k.shiftReg
    | 11 => (k.mark % 65536).toNat
    | _ => 0 }

def execCalRead (reg : Fin 12) (s : State) : Host.Outcome State Fault Refusal :=
  s.onChip (fun c => c.modCal (fun k => calReadReg k reg.val))

/-- READ_SHADOW_TIMEOUT: 32 768 counts after the freeze (R370). -/
def execReadShadowTimeout (s : State) : Host.Outcome State Fault Refusal :=
  s.onChip (fun c =>
    if c.cal.frozen.isSome = true ∧ 32768 ≤ c.cal.frozenAge then
      c.modCal (fun k => { k with frozen := none, frozenAge := 0, exp := true })
    else c)

/-- Bits of CAL_SUB to CAL_YEAR that are not reserved. -/
def calMask (r : Nat) : Nat := match r with
  | 0 => 0x7FFF | 1 => 0x7F | 2 => 0x7F | 3 => 0x3F | 4 => 0x3F | 5 => 0x1F | _ => 0xFFFF

/-- A write to CAL_SUB to CAL_YEAR goes into the write shadow, loaded first where none is pending (R371). -/
def calWriteReg (k : Calendar) (r v : Nat) : Calendar :=
  let sh := match k.shadow with
    | some l => l
    | none => calRegs k.now
  { k with shadow := some (upd (fun _ => v &&& calMask r) sh r) }

def execCalWrite (reg : Fin 7) (v : BitVec 16) (s : State) : Host.Outcome State Fault Refusal :=
  s.onChip (fun c => c.modCal (fun k => calWriteReg k reg.val v.toNat))

/-- The value of a write shadow, or none where the commit is rejected (R372). -/
def calShadowVal (l : List Nat) : Option CalVal :=
  match l with
  | [sub, sec, min, hour, day, mon, year] =>
    if bcdOk sec ∧ bcdOk min ∧ bcdOk hour ∧ bcdOk day ∧ bcdOk mon ∧ bcdOk year then
      let y := ofBcd year
      let m := ofBcd mon
      let d := ofBcd day
      if 2000 ≤ y ∧ y ≤ 2999 ∧ 1 ≤ m ∧ m ≤ 12 ∧ 1 ≤ d ∧ d ≤ monthDays y m ∧ ofBcd hour ≤ 23 ∧ ofBcd min ≤ 59 ∧
          ofBcd sec ≤ 59 then
        some ⟨sub, ofBcd sec, ofBcd min, ofBcd hour, d, m, y - 2000⟩
      else none
    else none
  | _ => none

/-- A valid commit: the value is loaded at the first count after the write; status as R372 gives it; a shift is cancelled. -/
def calAccept (k : Calendar) (v : CalVal) : Calendar :=
  { k with commit := some v, ovf := false, err := false, vld := true, shadow := none, frozen := none, frozenAge := 0,
           shift := none }

/-- The commit of a pending shadow; the Bool says that it was rejected. -/
def calCommitNow (k : Calendar) : Calendar × Bool :=
  match k.shadow with
  | none => (k, false)
  | some l => match calShadowVal l with
    | some v => (calAccept k v, false)
    | none => ({ k with err := true, shadow := none }, true)

/-- Record a rejected commit or weekday write (Table 13-7). -/
def Chip.calRejected (c : Chip) (rejected : Bool) : Chip := if rejected then c.event 0x0D10 sevMinor 0 0 [] else c

def execCalCommit (s : State) : Host.Outcome State Fault Refusal :=
  s.onChip (fun c =>
    let r := calCommitNow c.cal
    (c.modCal (fun _ => r.1)).calRejected r.2)
def execCalDiscard (s : State) : Host.Outcome State Fault Refusal :=
  s.onChip (fun c => c.modCal (fun k => { k with shadow := none }))

/-- A weekday write: 1 to 7 takes effect at the next count, another value sets ERR (R373). -/
def calWday (k : Calendar) (v : Nat) : Calendar × Bool :=
  let w := v % 8
  if 1 ≤ w then ({ k with pendWday := some w }, false) else ({ k with err := true }, true)

def execCalWdayWrite (v : BitVec 16) (s : State) : Host.Outcome State Fault Refusal :=
  s.onChip (fun c =>
    let r := calWday c.cal v.toNat
    (c.modCal (fun _ => r.1)).calRejected r.2)

/-- A write to CAL_SHIFT (R374): ignored while a shift runs, or with n = 0. -/
def calShiftBy (k : Calendar) (retard : Bool) (n : Nat) : Calendar :=
  if k.shift.isSome ∨ n = 0 then k
  else { k with shift := some (retard, n, 1), shiftReg := bit01 retard * 32768 + n }

def execCalShift (v : BitVec 16) (s : State) : Host.Outcome State Fault Refusal :=
  s.onChip (fun c => c.modCal (fun k => calShiftBy k (v.getLsbD 15) (v.toNat % 32768)))

/-- CAL_SHIFT_COMPLETE: n × 256 counts have passed; SHB clears (R374). -/
def execCalShiftComplete (s : State) : Host.Outcome State Fault Refusal :=
  s.onChip (fun c => match c.cal.shift with
    | some (_, 0, w) => if w ≤ 1 then c.modCal (fun k => { k with shift := none }) else c
    | _ => c)

/-- Writing 1 to EXP, ERR or OVF clears it; the other bits ignore writes (Table 13-2). -/
def calClear (k : Calendar) (v : Nat) : Calendar :=
  { k with exp := k.exp && !v.testBit 7, err := k.err && !v.testBit 2, ovf := k.ovf && !v.testBit 1 }

def execCalStatClear (v : BitVec 16) (s : State) : Host.Outcome State Fault Refusal :=
  s.onChip (fun c => c.modCal (fun k => calClear k v.toNat))

/-! ### Counting (R367, R368, R372-R374) -/

/-- The shift at one count: counts that CAL_SUB advances by, and the shift after it. -/
def shiftStep (x : Option (Bool × Nat × Nat)) : Nat × Option (Bool × Nat × Nat) :=
  match x with
  | none => (1, none)
  | some (r, n + 1, w) => if w ≤ 1 then (if r then 0 else 2, some (r, n, 256)) else (1, some (r, n + 1, w - 1))
  | some (r, 0, w) => (1, some (r, 0, if w ≤ 1 then 1 else w - 1))

/-- One count of the calendar; the Bool says that it wrapped from 2999 to 2000. A committed value replaces the count. -/
def calCount (k : Calendar) : Calendar × Bool :=
  let age := if k.frozen.isSome then k.frozenAge + 1 else 0
  match k.commit with
  | some v =>
    ({ k with now := v, commit := none, frozenAge := age, wday := k.pendWday.getD k.wday, pendWday := none }, false)
  | none =>
    let sh := shiftStep k.shift
    let r := calAdvance k.now sh.1
    let wraps := r.2 && calLast k.now
    let w := if r.2 then (if k.wday = 7 then 1 else k.wday + 1) else k.wday
    ({ k with now := r.1, shift := sh.2, frozenAge := age, ovf := k.ovf || wraps, wday := k.pendWday.getD w,
              pendWday := none }, wraps)

/-- One LFCLK count of PD0: the calendar and the watchdog count advance; on PD0 alone the calendar does (R417). -/
def Chip.lfCount (c : Chip) : Chip :=
  let r := calCount c.cal
  let c := (c.modCal (fun _ => r.1)).modWd (fun w => { w with count := if c.power.phase = .pd0Alone then w.count else w.count + 1 })
  if r.2 then c.event 0x0D11 sevMajor 0 0 [] else c

/-- PD0 is supplied. -/
def Chip.pd0On (c : Chip) : Bool := c.power.domains.getLsbD 0

def execLfclkCount (t : Instant) (s : State) : Host.Outcome State Fault Refusal :=
  s.onChip (fun c => if c.pd0On then (c.at_ t).lfCount else c)

/-- CALENDAR_WRAP: the count that takes 2999-12-31 23:59:59 to 2000-01-01 00:00:00 (R368). -/
def execCalendarWrap (s : State) : Host.Outcome State Fault Refusal :=
  s.onChip (fun c =>
    if c.pd0On = true ∧ calLast c.cal.now = true ∧ (calCount c.cal).2 = true then c.lfCount else c)

/-! ### Discipline (R375) -/

/-- A value limited to ±32 767. -/
def satMark (z : Int) : Int := if z < -32767 then -32767 else if 32767 < z then 32767 else z

/-- The firmware acts on the mark: a commit where the offset of the mark before was beyond ±32 767, else a shift of |mark|
where it is 2 or more and none runs. -/
def calDiscipline (k : Calendar) (before : Int) (utc : Nat) : Calendar :=
  if before < -32767 ∨ 32767 < before then { calAccept k (calOf utc) with offAtMark := 0 }
  else if 2 ≤ k.offAtMark.natAbs ∧ k.offAtMark.natAbs ≤ 32767 then calShiftBy k (decide (0 < k.offAtMark)) k.offAtMark.natAbs
  else k

/-- SECOND_MARK at a whole second of station time, sent by the core while it runs (R375). -/
def execSecondMark (t : Instant) (s : State) : Host.Outcome State Fault Refusal :=
  s.onChip (fun c =>
    if t % 1000000000 = 0 ∧ c.pd0On = true ∧ c.power.phase = .ready then
      let c := c.at_ t
      let utc := c.utcCounts t
      let before := c.cal.offAtMark
      let off : Int := (calCounts c.cal.now : Int) - utc
      let c := c.modCal (fun k => { k with mark := satMark off, offAtMark := off, relation := some (t, calCounts k.now) })
      let c := c.wr 0x2A00 0x26 (ofIntWord (satMark off)).toNat
      if c.rd 0x2A00 0x25 = 1 ∧ c.dict.mssUp = true then c.modCal (fun k => calDiscipline k before utc) else c
    else c)

/-- LEAP_SECOND_COMMIT: the firmware commits the leap second that was announced (R369). -/
def execLeapSecondCommit (t : Instant) (s : State) : Host.Outcome State Fault Refusal :=
  s.onChip (fun c =>
    if c.cal.leapDue = true ∧ c.dict.mssUp = true then
      let c := c.at_ t
      c.modCal (fun k => { calAccept k (calOf (c.utcCounts t)) with leapDue := false })
    else c)

end Sys2Proof.Machine
end

