-- ==== Sys2Proof/Machine/Operands.lean ====
section
/-! DEFINITION. Operand forms of the engine operations: registers, pairs, predicates, guards, immediates, bit operands,
addresses (R75, R77, R86-R91, R97, R110-R112, R129). -/

namespace Sys2Proof.Machine

/-- A general register; G0 reads zero (Table 03-1). -/
def gRead (w : Work) (n : RegNo) : Word := if n = 0 then 0 else WMem.get w.arch.g n.toNat

/-- The register after n, for pairs. -/
def gNext (n : RegNo) : RegNo := n + 1

/-- A predicate by its number; P0 reads 1 (Table 03-1). -/
def pRead (w : Work) (n : BitVec 4) : Bool := if n = 0 then true else w.arch.p.getLsbD n.toNat

/-- The predicate that a register field names: its low 4 bits (R112). -/
def predOf (n : RegNo) : BitVec 4 := n.truncate 4

/-- Whether the guard passes (R87): the predicate, inverted by PI. -/
def guardOk (w : Work) (o : Op) : Bool := (pRead w o.pg).xor o.pi

/-- A field that names a pair is legal with even n from 2 to 62 (R77). -/
def pairOk (n : RegNo) : Bool := n.toNat % 2 == 0 && n.toNat != 0

/-- A form X bit index is legal from 0 to 47 (R97). -/
def bitOk (b : BitVec 6) : Bool := decide (b.toNat < 48)
def opndOk : BitOpnd → Bool
  | .io _ b => bitOk b
  | .dsp _ b => bitOk b

/-- The immediate of a form I operation (R88, R89): X:IMM8 when the bundle holds an `imm`, else IMM8 extended as the opcode
says. -/
def immVal (w : Work) (signed : Bool) (i : BitVec 8) : Word :=
  match w.bundle.imm with
  | none => if signed then i.signExtend 48 else i.zeroExtend 48
  | some (sx, x) => if sx then (x ++ i).signExtend 48 else (x ++ i).zeroExtend 48

/-- The second source: register B or the immediate. -/
def srcVal (w : Work) (signed : Bool) : Src → Word
  | .reg b => gRead w b
  | .imm i => immVal w signed i

/-- The address of a slot M operation, modulo the size 2^k of its space (R91, R129). -/
def addrOf (w : Work) (k : Nat) (a : RegNo) (b : Src) : Nat := (gRead w a + srcVal w true b).toNat % 2 ^ k

/-- A single-precision operand: bits 31:0 (R77). -/
def sRead (w : Work) (n : RegNo) : Nat := (gRead w n).toNat % 2 ^ 32
/-- A double-precision operand: bits 63:32 in Gn, bits 31:0 in Gn+1 (03, "Programmer's model"). -/
def dRead (w : Work) (n : RegNo) : Nat := sRead w n * 2 ^ 32 + sRead w (gNext n)
/-- A time pair in a register pair (R127). -/
def tRead (w : Work) (n : RegNo) : TimePair := ⟨gRead w n, gRead w (gNext n)⟩

/-- The result of an operation in a general register; a write of G0 is discarded (R75). -/
def resG (n : RegNo) (dist : Nat) (v : Word) : List Eff := if n = 0 then [] else [.res (.g n.toNat) dist v]
/-- A result in a predicate; a write of P0 is discarded (R75). -/
def resP (n : RegNo) (dist : Nat) (b : Bool) : List Eff :=
  if predOf n = 0 then [] else [.res (.p (predOf n).toNat) dist (if b then 1 else 0)]
/-- A result in BA, at distance 1. -/
def resBA (b : Bool) : List Eff := [.res .ba 1 (if b then 1 else 0)]
/-- A single-precision result, zero in bits 47:32 (R77). -/
def resS (n : RegNo) (dist v : Nat) : List Eff := resG n dist (toWord (v % 2 ^ 32))
/-- A double-precision result in a pair (R77). -/
def resD (n : RegNo) (dist v : Nat) : List Eff :=
  resG n dist (toWord (v / 2 ^ 32 % 2 ^ 32)) ++ resG (gNext n) dist (toWord (v % 2 ^ 32))
/-- A time-pair result. -/
def resT (n : RegNo) (dist : Nat) (p : TimePair) : List Eff := resG n dist p.w0 ++ resG (gNext n) dist p.w1

/-- Bits of the mode word PRF (Table 03-4). -/
def profD (w : Work) : Bool := w.prf.testBit 0
def divTrap (w : Work) : Bool := w.prf.testBit 1

end Sys2Proof.Machine
end

