-- ==== Sys2Proof/Machine/Flags.lean ====
section
/-! DEFINITION. What the engine computes into predicates and BA: integer compares, timers and counters of slot B, field
descriptors; the block has no condition flags beside its predicates (R113-R119, R121). -/

namespace Sys2Proof.Machine

/-! ### Integer results -/

/-- Saturation to the signed or unsigned 48-bit range (Table 04-6). -/
def satS (z : Int) : Word :=
  if z > 2 ^ 47 - 1 then ofIntWord (2 ^ 47 - 1) else if z < -(2 ^ 47) then ofIntWord (-(2 ^ 47)) else ofIntWord z
def satU (z : Int) : Word := if z > 2 ^ 48 - 1 then ofIntWord (2 ^ 48 - 1) else if z < 0 then 0 else ofIntWord z

/-- The unsigned variant of a modifier; an undefined modifier acts as 0b00 (R111). -/
def isU (m : BitVec 2) : Bool := m == 1

def addSat (m : BitVec 2) (a b : Word) : Word :=
  if isU m then satU (a.toNat + b.toNat) else satS (a.toInt + b.toInt)
def subSat (m : BitVec 2) (a b : Word) : Word :=
  if isU m then satU ((a.toNat : Int) - b.toNat) else satS (a.toInt - b.toInt)
def minW (u : Bool) (a b : Word) : Word := if u then (if b.toNat < a.toNat then b else a) else if b.toInt < a.toInt then b else a
def maxW (u : Bool) (a b : Word) : Word := if u then (if a.toNat < b.toNat then b else a) else if a.toInt < b.toInt then b else a
/-- `abs`: −2^47 gives 2^47 − 1. -/
def absW (a : Word) : Word := satS (if a.toInt < 0 then -a.toInt else a.toInt)

/-- Number of 1 bits. -/
def popCount (a : Word) : Nat := ((List.range 48).filter (fun i => a.getLsbD i)).length
/-- Leading zeros over 48 bits; 48 for zero. -/
def leadZeros (a : Word) : Nat := if a = 0 then 48 else 47 - Nat.log2 a.toNat

/-- The amount of a shift or rotate: bits 5:0 (R119). -/
def amount (b : Word) : Nat := b.toNat % 64
def shlW (a b : Word) : Word := a <<< amount b
def shrW (a b : Word) : Word := a >>> amount b
/-- Sign fill; from 48 on 48 copies of the sign bit. -/
def sarW (a b : Word) : Word := a.sshiftRight (amount b)
def rolW (a b : Word) : Word := a.rotateLeft (amount b % 48)
def rorW (a b : Word) : Word := a.rotateRight (amount b % 48)

/-- Position and width of a field descriptor (R119): the width at most 48, the field ending at bit 47. -/
def fieldPos (b : Word) : Nat := b.toNat % 64
def fieldWidth (b : Word) : Nat := min (min ((b.toNat / 64) % 64) 48) (48 - fieldPos b)

/-- `ext`: the field of a described by b, moved to bit 0, zero- or sign-extended. -/
def extW (signed : Bool) (a b : Word) : Word :=
  let p := fieldPos b
  let w := fieldWidth b
  if w = 0 ∨ 48 ≤ p then 0
  else
    let f := (a.toNat >>> p) % 2 ^ w
    if signed ∧ f.testBit (w - 1) then ofIntWord ((f : Int) - 2 ^ w) else toWord f

/-- `ins`: d with its field described by b replaced by the low bits of a. -/
def insW (d a b : Word) : Word :=
  let p := fieldPos b
  let w := fieldWidth b
  if w = 0 ∨ 48 ≤ p then d else toWord (setFieldOf d.toNat (p + w - 1) p a.toNat)

/-- `div` (R123): truncated toward zero, −2^47 by −1 gives −2^47; a zero divisor gives the bound of the dividend's sign. -/
def divS (a b : Word) : Word :=
  if b = 0 then (if a.toInt < 0 then ofIntWord (-(2 ^ 47)) else ofIntWord (2 ^ 47 - 1)) else ofIntWord (a.toInt.tdiv b.toInt)
def divUn (a b : Word) : Word := if b = 0 then ofIntWord (2 ^ 48 - 1) else toWord (a.toNat / b.toNat)
def remS (a b : Word) : Word := if b = 0 then a else ofIntWord (a.toInt.tmod b.toInt)
def remUn (a b : Word) : Word := if b = 0 then a else toWord (a.toNat % b.toNat)

/-- High words of products (Table 04-9). -/
def mulHiS (a b : Word) : Word := ofIntWord ((a.toInt * b.toInt) / 2 ^ 48)
def mulHiU (a b : Word) : Word := toWord (a.toNat * b.toNat / 2 ^ 48)

/-! ### Timers and counters (R115-R117) -/

/-- Ticks of a timer unit. -/
def unitTicks (u : BitVec 2) : Nat := match u with
  | 0 => 1 | 1 => 16 | 2 => 1600 | _ => 16000

/-- The preset in ticks, saturated (R117). -/
def presetTicks (g : Word) (u : BitVec 2) : Nat := min (g.toNat * unitTicks u) (2 ^ 43 - 1)

/-- A timer word (Table 04-4). -/
structure TimerWord where
  inp : Bool
  q   : Bool
  run : Bool
  st  : Nat
  deriving DecidableEq, Repr

def TimerWord.ofWord (w : Word) : TimerWord := ⟨w.getLsbD 47, w.getLsbD 46, w.getLsbD 45, w.toNat % 2 ^ 44⟩
/-- Bit 44 is written 0 (R116). -/
def TimerWord.toWord (t : TimerWord) : Word :=
  Sys2Proof.toWord (bit01 t.inp * 2 ^ 47 + bit01 t.q * 2 ^ 46 + bit01 t.run * 2 ^ 45 + t.st % 2 ^ 44)

/-- Ticks since the start, modulo 2^44. -/
def elapsed (n st : Nat) : Nat := (n + 2 ^ 44 - st % 2 ^ 44) % 2 ^ 44

/-- One evaluation of `ton` at tick n with preset pt and input ba (R117). -/
def evalTon (t : TimerWord) (n pt : Nat) (ba : Bool) : TimerWord :=
  if ba = false then ⟨ba, false, false, t.st⟩
  else if t.inp = false then ⟨ba, pt == 0, false, n⟩
  else ⟨ba, decide (pt ≤ elapsed n t.st), false, t.st⟩

/-- One evaluation of `tof`. -/
def evalTof (t : TimerWord) (n pt : Nat) (ba : Bool) : TimerWord :=
  if ba = true then ⟨ba, true, false, t.st⟩
  else if t.inp = true then ⟨ba, decide (0 < pt), false, n⟩
  else if t.q = true then ⟨ba, decide (elapsed n t.st < pt), false, t.st⟩
  else ⟨ba, t.q, false, t.st⟩

/-- One evaluation of `tp`: expiry first, then an edge starts a pulse. -/
def evalTp (t : TimerWord) (n pt : Nat) (ba : Bool) : TimerWord :=
  let run := t.run && !decide (pt ≤ elapsed n t.st)
  if run = false ∧ ba = true ∧ t.inp = false ∧ 0 < pt then ⟨ba, true, true, n⟩ else ⟨ba, run, run, t.st⟩

/-- A counter word (Table 04-5): IN and CV. -/
def ctrIn (w : Word) : Bool := w.getLsbD 47
def ctrVal (w : Word) : Nat := w.toNat % 2 ^ 47
def ctrWord (inp : Bool) (cv : Nat) : Word := toWord (bit01 inp * 2 ^ 47 + cv)

/-- Evaluations of the counters: the word written back and BA (R117). -/
def evalCtu (w : Word) (g : Word) (ba : Bool) : Word × Bool :=
  let cv := if ba && !ctrIn w then min (ctrVal w + 1) (2 ^ 47 - 1) else ctrVal w
  (ctrWord ba cv, decide (g.toNat ≤ cv))
def evalCtd (w : Word) (ba : Bool) : Word × Bool :=
  let cv := if ba && !ctrIn w then ctrVal w - 1 else ctrVal w
  (ctrWord ba cv, cv == 0)

end Sys2Proof.Machine
end

