-- ==== Sys2Proof/Machine/Real.lean ====
section
/-! DEFINITION. IEEE 754 arithmetic of the real operations (R77, R78, R124-R126): exact computation on integers, one
rounding to nearest even, one fixed quiet NaN. IEEE 754 is named by the specification (log 11). -/

namespace Sys2Proof.Machine

/-- A binary interchange format: exponent bits and fraction bits. -/
structure Fmt where
  eb : Nat
  mb : Nat
  deriving DecidableEq, Repr

def f32 : Fmt := ⟨8, 23⟩
def f64 : Fmt := ⟨11, 52⟩
def Fmt.bias (f : Fmt) : Nat := 2 ^ (f.eb - 1) - 1
def Fmt.maxExp (f : Fmt) : Nat := 2 ^ f.eb - 1
def Fmt.signBit (f : Fmt) : Nat := 2 ^ (f.eb + f.mb)
/-- The fixed quiet NaN: 0x7FC0_0000 and 0x7FF8_0000_0000_0000 (R78). -/
def Fmt.qnan (f : Fmt) : Nat := f.maxExp * 2 ^ f.mb + 2 ^ (f.mb - 1)
def Fmt.inf (f : Fmt) (s : Bool) : Nat := bit01 s * f.signBit + f.maxExp * 2 ^ f.mb
def Fmt.zero (f : Fmt) (s : Bool) : Nat := bit01 s * f.signBit

/-- A value: NaN, an infinity, or ±m × 2^e. -/
inductive Fp where
  | nan
  | inf (s : Bool)
  | fin (s : Bool) (m : Nat) (e : Int)
  deriving DecidableEq, Repr

/-- The value of a bit pattern. -/
def fpOf (f : Fmt) (n : Nat) : Fp :=
  let s := (n >>> (f.eb + f.mb)) % 2 == 1
  let e := (n >>> f.mb) % 2 ^ f.eb
  let m := n % 2 ^ f.mb
  if e = f.maxExp then (if m = 0 then .inf s else .nan)
  else if e = 0 then .fin s m (1 - (f.bias : Int) - f.mb)
  else .fin s (m + 2 ^ f.mb) ((e : Int) - f.bias - f.mb)

/-- Round m / 2^k to an integer, ties to even; `sticky` says that something below was lost. -/
def roundShift (m k : Nat) (sticky : Bool) : Nat :=
  let r := m >>> k
  let rem := m % 2 ^ k
  let half := 2 ^ k / 2
  if k = 0 then r
  else if half < rem ∨ (rem = half ∧ (sticky = true ∨ r % 2 = 1)) then r + 1 else r

/-- The bit pattern of ±m × 2^e rounded to nearest even; `sticky` marks a remainder below m, which then has at least two
bits more than the format keeps. -/
def fpRound (f : Fmt) (s : Bool) (m : Nat) (e : Int) (sticky : Bool) : Nat :=
  if m = 0 then f.zero s
  else
    let top : Int := (Nat.log2 m : Int) + e
    let emin : Int := 1 - (f.bias : Int)
    let q : Int := (if top < emin then emin else top) - f.mb
    let r := if q ≤ e then m <<< (e - q).toNat else roundShift m (q - e).toNat sticky
    let carry := decide (2 ^ (f.mb + 1) ≤ r)
    let r' := if carry then r / 2 else r
    let q' := if carry then q + 1 else q
    if r' < 2 ^ f.mb then bit01 s * f.signBit + r'
    else
      let be := (q' + f.mb + f.bias).toNat
      if f.maxExp ≤ be then f.inf s else bit01 s * f.signBit + be * 2 ^ f.mb + (r' - 2 ^ f.mb)

/-- The pattern of a value, exactly or rounded. -/
def fpBits (f : Fmt) : Fp → Nat
  | .nan => f.qnan
  | .inf s => f.inf s
  | .fin s m e => fpRound f s m e false

/-- ±m × 2^e as an integer multiple of 2^k, k ≤ e. -/
def fpScaled (s : Bool) (m : Nat) (e k : Int) : Int :=
  let v : Int := (m <<< (e - k).toNat : Nat)
  if s then -v else v

def fpNeg : Fp → Fp
  | .nan => .nan
  | .inf s => .inf !s
  | .fin s m e => .fin (!s) m e

/-- Sum; an exact zero of operands of unlike signs is +0. -/
def fpAdd (f : Fmt) (x y : Fp) : Nat :=
  match x, y with
  | .nan, _ => f.qnan
  | _, .nan => f.qnan
  | .inf s, .inf t => if s = t then f.inf s else f.qnan
  | .inf s, _ => f.inf s
  | _, .inf t => f.inf t
  | .fin s m e, .fin t n g =>
    let k := min e g
    let z := fpScaled s m e k + fpScaled t n g k
    if z = 0 then f.zero (s && t) else fpRound f (decide (z < 0)) z.natAbs k false

def fpMul (f : Fmt) (x y : Fp) : Nat :=
  match x, y with
  | .nan, _ => f.qnan
  | _, .nan => f.qnan
  | .inf s, .inf t => f.inf (s.xor t)
  | .inf s, .fin t n _ => if n = 0 then f.qnan else f.inf (s.xor t)
  | .fin s m _, .inf t => if m = 0 then f.qnan else f.inf (s.xor t)
  | .fin s m e, .fin t n g => fpRound f (s.xor t) (m * n) (e + g) false

def fpDiv (f : Fmt) (x y : Fp) : Nat :=
  match x, y with
  | .nan, _ => f.qnan
  | _, .nan => f.qnan
  | .inf _, .inf _ => f.qnan
  | .inf s, .fin t _ _ => f.inf (s.xor t)
  | .fin s _ _, .inf t => f.zero (s.xor t)
  | .fin s m e, .fin t n g =>
    if n = 0 then (if m = 0 then f.qnan else f.inf (s.xor t))
    else
      let k := f.mb + 4 + Nat.log2 n
      let a := m <<< k
      fpRound f (s.xor t) (a / n) (e - g - k) (a % n != 0)

/-- Exact comparison of two values that are no NaN: less, equal or greater. -/
def fpCmp (x y : Fp) : Ordering :=
  match x, y with
  | .inf s, .inf t => if s = t then .eq else if s then .lt else .gt
  | .inf s, _ => if s then .lt else .gt
  | _, .inf t => if t then .gt else .lt
  | .fin s m e, .fin t n g => compare (fpScaled s m e (min e g)) (fpScaled t n g (min e g))
  | _, _ => .eq

def fpIsNan : Fp → Bool
  | .nan => true
  | _ => false
def fpSign : Fp → Bool
  | .nan => false
  | .inf s => s
  | .fin s _ _ => s

/-- The real compares: modifier eq, lt, le, un; +0 equals −0 (R121). -/
def fpTest (m : BitVec 2) (x y : Fp) : Bool :=
  if m = 3 then fpIsNan x || fpIsNan y
  else if fpIsNan x || fpIsNan y then false
  else if m = 0 then fpCmp x y == .eq
  else if m = 1 then fpCmp x y == .lt
  else fpCmp x y != .gt

/-- Strict order of minimum and maximum: −0 below +0. -/
def fpBelow (x y : Fp) : Bool :=
  match fpCmp x y with
  | .lt => true
  | .eq => fpSign x && !fpSign y
  | .gt => false

/-- Minimum and maximum on patterns: one NaN gives the other operand, two give the quiet NaN (Table 04-10). -/
def fpMin (f : Fmt) (a b : Nat) : Nat :=
  match fpIsNan (fpOf f a), fpIsNan (fpOf f b) with
  | true, true => f.qnan
  | true, false => b
  | false, true => a
  | false, false => if fpBelow (fpOf f b) (fpOf f a) then b else a
def fpMax (f : Fmt) (a b : Nat) : Nat :=
  match fpIsNan (fpOf f a), fpIsNan (fpOf f b) with
  | true, true => f.qnan
  | true, false => b
  | false, true => a
  | false, false => if fpBelow (fpOf f a) (fpOf f b) then b else a

/-- Sign bit cleared or inverted; every other bit passes (R78). -/
def fpAbsBits (f : Fmt) (n : Nat) : Nat := n % f.signBit
def fpNegBits (f : Fmt) (n : Nat) : Nat := (n % f.signBit) + (1 - (n / f.signBit) % 2) * f.signBit

/-- An integer as a real. -/
def fpOfInt (f : Fmt) (z : Int) : Nat := fpRound f (decide (z < 0)) z.natAbs 0 false
/-- The integer operand of a conversion, signed or unsigned by the modifier. -/
def intOf (m : BitVec 2) (a : Word) : Int := if isU m then a.toNat else a.toInt

/-- A real as a signed 48-bit integer: NaN gives 0, a value beyond the range saturates (R126); nearest even, or toward zero
with modifier 0b01. -/
def fpToInt (m : BitVec 2) (x : Fp) : Word :=
  match x with
  | .nan => 0
  | .inf s => if s then satS (-(2 ^ 47)) else satS (2 ^ 47 - 1)
  | .fin s n e =>
    let v : Nat := if 0 ≤ e then (if 60 < e ∧ n ≠ 0 then 2 ^ 60 else n <<< e.toNat)
      else if isU m then n >>> (-e).toNat else roundShift n (-e).toNat false
    satS (if s then -(v : Int) else v)

/-- The divisor is a zero (R124). -/
def fpIsZero : Fp → Bool
  | .fin _ 0 _ => true
  | _ => false

end Sys2Proof.Machine
end

