-- ==== Sys2Proof/Machine/Numbers.lean ====
section
/-! DEFINITION. Numbers that the device derives: quotients rounded to a whole number, and to REAL32. -/

namespace Sys2Proof.Machine

/-- A quotient as a whole number: exact where it is one, else one of its two neighbours (log 8). -/
def wholeOf (num : Int) (den : Nat) : Int :=
  if num % den = 0 then num / den else if Config.roundUp num den then num / den + 1 else num / den

/-- The REAL32 nearest to a quotient of naturals (IEEE 754, log 11); 0 for a denominator of 0. -/
def ratReal32 (num den : Nat) : BitVec 32 :=
  if den = 0 then 0
  else BitVec.ofNat 32 (fpRound f32 false (num * 2 ^ 64 / den) (-64) (decide (num * 2 ^ 64 % den ≠ 0)))

/-- The REAL32 nearest to a quotient of an integer and a natural. -/
def ratRealI (num : Int) (den : Nat) : BitVec 32 :=
  if num < 0 then ratReal32 num.natAbs den ||| 0x80000000 else ratReal32 num.natAbs den

/-- A finite REAL32 as mantissa and exponent of 2: value = m × 2^e. -/
def real32Parts (b : BitVec 32) : Int × Int :=
  let ex := fieldOf b.toNat 30 23
  let fr := fieldOf b.toNat 22 0
  let m : Int := if ex = 0 then fr else 2 ^ 23 + fr
  let e : Int := (if ex = 0 then 1 else ex) - 150
  (if b.getLsbD 31 then -m else m, e)

/-- A finite REAL32 as a rational. -/
def real32Rat (b : BitVec 32) : Rat :=
  let p := real32Parts b
  if 0 ≤ p.2 then ((p.1 * 2 ^ p.2.toNat : Int) : Rat) else mkRat p.1 (2 ^ (-p.2).toNat)

/-- A finite REAL32 times an integer, as a whole number. -/
def real32Times (b : BitVec 32) (z : Int) : Int :=
  let p := real32Parts b
  if 0 ≤ p.2 then p.1 * z * 2 ^ p.2.toNat else wholeOf (p.1 * z) (2 ^ (-p.2).toNat)

/-- The order of two REAL32 values that are no NaN. -/
def real32Lt (a b : BitVec 32) : Bool := fpCmp (fpOf f32 a.toNat) (fpOf f32 b.toNat) == .lt
def real32Le (a b : BitVec 32) : Bool := !real32Lt b a

/-- Insert into a sorted list behind its equals. -/
def insertBy {α : Type} (le : α → α → Bool) (x : α) : List α → List α
  | [] => [x]
  | y :: l => if le y x then y :: insertBy le x l else x :: y :: l

/-- Sort, keeping the order of equals. -/
def sortBy {α : Type} (le : α → α → Bool) (l : List α) : List α := l.foldl (fun r x => insertBy le x r) []

end Sys2Proof.Machine
end

