-- ==== Sys2Proof/Machine/FieldOps.lean ====
section
/-! DEFINITION. What the field die does in itself: supplies and masks, items and notifications toward the core, levels and
currents of its outputs with pulses, safe states and fail actions (R256-R280). -/

namespace Sys2Proof.Machine

/-! ### Supplies and crossings -/

/-- Detection is masked while a supply is missing and for 10 ms after (R258). -/
def Chip.masked (c : Chip) (s2 : Bool) : Bool :=
  c.vMissing s2 || decide (c.now < if s2 then c.field.mask2 else c.field.mask1)
/-- The field die works: its domain PD14 is on and it is not in reset. -/
def Chip.fieldAlive (c : Chip) : Bool := !c.field.inReset && c.power.domains.getLsbD 14

def doSupply (n : Nat) : Bool := decide (12 ≤ n)
def aiSupply (a : Nat) : Bool := decide (4 ≤ a)
def aoSupply (o : Nat) : Bool := decide (2 ≤ o)

/-- Send an item of the die: nothing crosses a lost link (R440). -/
def Chip.pushField (c : Chip) (i : Item) : Chip := if c.field.linkUp then c.pushItem i else c

/-- The kind of a notification as one number: code, severity, whether it ends a condition, unit. -/
def noteKey (code sev unit : Nat) (fin : Bool) : Nat := ((code * 16 + sev) * 2 + bit01 fin) * 64 + unit

/-- The core takes a notification of kind k, with its merge flag (R279, R406). -/
def Chip.takeNote (c : Chip) (k : Nat) (merged : Bool) : Chip :=
  c.modField (fun f => { f with taken := f.taken.filter (fun x => x.1 != k) ++ [(k, c.now, merged)] })

/-- An event of the die reaches the core as a notification (R279, R406). While the link is up the core records it at once; one that comes
before the previous of its kind has been acknowledged, within the same instant or over an outage of the link, merges with it: it is counted in
0x2800.07 and the one notification carries its merge flag. -/
def Chip.notify (c : Chip) (code sev unit : Nat) (fin : Bool) (dtl : List Byte) : Chip :=
  let k := noteKey code sev unit fin
  if c.field.linkUp then
    if c.field.taken.any (fun x => x.1 == k && x.2.1 == c.now) then (c.bump 0x2800 0x07).takeNote k true
    else (c.eventAs c.now code sev fin 5 unit 0 0 dtl).takeNote k false
  else if NMem.has c.field.notes k then (c.bump 0x2800 0x07).modField (fun f => { f with notes := NMem.set f.notes k 2 })
  else c.modField (fun f => { f with notes := NMem.set f.notes k 1 })

/-- The notifications held over an outage are recorded when the link is regained, each with its merge flag. -/
def Chip.releaseNotes (c : Chip) : Chip :=
  c.field.notes.foldl (fun c n =>
    (c.eventAs c.now (n.1 / 2048) (n.1 / 128 % 16) (n.1 / 64 % 2 == 1) 5 (n.1 % 64) 0 0 []).takeNote n.1 (n.2 == 2))
    (c.modField (fun f => { f with notes := [] }))

/-- The first tick boundary at least 1 ms after an instant (R257). -/
def settingTick (t : Instant) : Instant := (t + 1000000 + (tickNs - 1)) / tickNs * tickNs

/-! ### Input items -/

/-- The level word of all 48 inputs (R263). -/
def Chip.levelWord (c : Chip) : Word :=
  toWord ((c.field.di.map (·.level)).zipIdx.foldl (fun n p => n + bit01 p.1 * 2 ^ p.2) 0)

/-- Send the change record of an input, standing for the changes not sent before, and the level word. -/
def Chip.pushRecord (c : Chip) (d : Nat) (stamp : Instant) : Chip :=
  if c.field.linkUp then
    let x := c.di d
    let qc := c.supplyQc (diSupply d) true
    let p := c.stpPair d
    let c := c.modDi d (fun x => { x with crossed := x.changes })
    let c := c.pushItem ⟨.diRecord ⟨d % 48, by omega⟩, stamp, [recordWord qc (x.changes - x.crossed) x.level, p.w0, p.w1], qc, false⟩
    c.pushItem ⟨.diLevel, stamp, [c.levelWord], 0, false⟩
  else c

/-- The counter and the frequency of an input as latched at a tick boundary cross to the core (R264, R265). -/
def Chip.pushLatch (c : Chip) (d : Nat) (l : Instant × Nat × BitVec 32 × Nat) : Chip :=
  if h : d < 48 then
    let c := (c.wr (0x2810 + d) 0x03 l.2.1).wr (0x2810 + d) 0x06 l.2.2.1.toNat
    (c.pushItem ⟨.diCount ⟨d, h⟩, l.1, [toWord l.2.1], 0, false⟩).pushItem
      ⟨.diFreq ⟨d, h⟩, l.1, [toWord (l.2.2.2 * 2 ^ 44 + l.2.2.1.toNat)], l.2.2.2, false⟩
  else c

/-- A conversion of a loop input crosses to the core (R274). -/
def Chip.pushConversion (c : Chip) (a : Nat) (x : Instant × Word × Nat) : Chip :=
  if h : a < 8 then (c.wr (0x2860 + a) 0x05 x.2.1.toNat).pushItem ⟨.ai ⟨a, h⟩, x.1, [x.2.1], x.2.2, false⟩ else c

/-- The latest acceptance of any input: the stamp of the level word. -/
def Chip.levelAt (c : Chip) : Instant := c.field.di.foldl (fun t x => max t (x.acc.getD 0)) 0

/-- Send the supply word (Table 09-3) stamped at the end of its filter; RST is placed at the muster (log 22). -/
def Chip.pushSupply (c : Chip) (t : Instant) : Chip :=
  c.pushField ⟨.supply, t, [toWord (c.fld 0x2800 0x02 3 0)], 0, false⟩

/-- Counter mode of an input: edges counted and whether raw (0x2810+d.02). -/
def Chip.cntMode (c : Chip) (d : Nat) : Nat := c.fld (0x2810 + d) 0x02 1 0
def Chip.cntRaw (c : Chip) (d : Nat) : Bool := c.bit (0x2810 + d) 0x02 2
/-- Whether an edge to `level` counts in a mode (R264). -/
def edgeCounts (mode : Nat) (level : Bool) : Bool := if level then mode == 1 || mode == 3 else mode == 2 || mode == 3
/-- Count an edge: the counter wraps modulo 2^48. -/
def Chip.countEdge (c : Chip) (d : Nat) (raw level : Bool) : Chip :=
  if c.cntRaw d = raw ∧ edgeCounts (c.cntMode d) level = true then
    c.modDi d (fun x => { x with count := (x.count + 1) % 2 ^ 48 })
  else c

/-- Accept the level of an input (R262): `stamp` is the reported stamp, `acc` the acceptance instant. A change that is to be
recorded writes an event, or waits in the die's queue of the latest 128 (R266, R440). -/
def Chip.acceptLevel (c : Chip) (d : Nat) (stamp acc : Instant) : Chip :=
  let c := c.modDi d (fun x => { x with level := x.raw, run := none, stp := some stamp, acc := some acc, changes := x.changes + 1 })
  let l := (c.di d).level
  let c := c.countEdge d false l
  let c := c.pushRecord d acc
  if c.bit (0x2810 + d) 0x07 0 then
    let p := c.pairAt stamp
    if c.field.linkUp then c.eventAs acc 0x0940 sevInfo false 5 d 0 0 (leBytes (bit01 l) 1 ++ wordsLe [p.w0, p.w1])
    else c.modField (fun f => { f with events := (f.events ++ [(d, l, p)]).drop (f.events.length + 1 - 128) })
  else c

/-! ### Frequency (R265) -/

/-- Gate time of an input in nanoseconds; 0 is off. -/
def Chip.gateNs (c : Chip) (d : Nat) : Nat := c.rd (0x2810 + d) 0x05 * 1000000

/-- The measurement in progress has reached its end: a rising edge at or after t0 + gate. -/
def Chip.freqDue (c : Chip) (d : Nat) : Bool :=
  match (c.di d).fT0, (c.di d).lastRise with
  | some t0, some tn => decide (0 < c.gateNs d ∧ t0 + c.gateNs d ≤ tn)
  | _, _ => false

/-- End a frequency measurement: n / (tn − t0); above 100 kHz Questionable; its last edge starts the next. -/
def Chip.freqEnd (c : Chip) (d : Nat) : Chip :=
  match (c.di d).fT0, (c.di d).lastRise with
  | some t0, some tn =>
    if c.freqDue d then
      c.modDi d (fun x => { x with
        freqVal := ratReal32 (x.fN * 1000000000) (tn - t0), freqQ := if 100000 * (tn - t0) < x.fN * 1000000000 then 1 else 0,
        fT0 := some tn, fN := 0, fValid := x.fValid || c.fieldRuns })
    else c
  | _, _ => c

/-! ### Digital outputs -/

/-- Bits of the DO status word (Table 09-7). -/
abbrev stRBK : Nat := 0
abbrev stCMD : Nat := 1
abbrev stFLA : Nat := 2
abbrev stGRP : Nat := 3
abbrev stOVL : Nat := 4
abbrev stTHS : Nat := 5
abbrev stSHT : Nat := 6
abbrev stOPN : Nat := 7
abbrev stMIS : Nat := 8
abbrev stEXT : Nat := 9
abbrev stPLS : Nat := 10
abbrev stLAT : Nat := 11

/-- Bit b of the status of a channel as it stands in the die: DO n at key n, AO o at key 24 + o. -/
def Chip.liveBit (c : Chip) (k b : Nat) : Bool := (NMem.get c.field.live k).testBit b
def Chip.setLive (c : Chip) (k b : Nat) (v : Bool) : Chip :=
  c.modField (fun f => { f with live := NMem.set f.live k (setFieldOf (NMem.get f.live k) b b (bit01 v)) })
def Chip.doBit (c : Chip) (n b : Nat) : Bool := c.liveBit n b
def Chip.setDo (c : Chip) (n b : Nat) (v : Bool) : Chip := c.setLive n b v

/-- The level of the pin: what the switch drives, unless something outside drives it. -/
def Chip.pinLevel (c : Chip) (n : Nat) : Bool :=
  let x := c.doc n
  let drive := x.applied && !x.thermal && !c.doBit n stLAT
  if c.vMissing (doSupply n) then false else drive.xor x.pinOff

/-- Bring RBK, CMD and PLS of the status word up to date. -/
def Chip.syncDo (c : Chip) (n : Nat) : Chip :=
  ((c.setDo n stRBK (c.pinLevel n)).setDo n stCMD ((c.doc n).applied && !c.doBit n stLAT)).setDo n stPLS (c.doc n).pulse.isSome

/-- The die applies a level: a switching command where it changes. -/
def Chip.applyDo (c : Chip) (n : Nat) (l : Bool) : Chip :=
  let c := c.modDo n (fun x =>
    if x.applied = l then x else { x with applied := l, switched := c.now, pinOff := false })
  c.syncDo n

/-- Level mode or pulse mode of an output, and its pulse length in nanoseconds. -/
def Chip.pulseMode (c : Chip) (n : Nat) : Bool := c.rd (0x2840 + n) 0x01 == 1
def Chip.pulseNs (c : Chip) (n : Nat) : Nat := c.rd (0x2840 + n) 0x02 * 1000000

/-- A commanded level reaches an output (R58, R268-R270, R272): recorded always; not applied while a fail action is in force;
in pulse mode a 0-to-1 change starts a pulse, or is ignored and counted while one runs; one that is latched off is not applied. -/
def Chip.levelDo (c : Chip) (n : Nat) (l : Bool) : Chip :=
  let old := (c.doc n).cmd
  let c := c.modDo n (fun x => { x with cmd := l })
  if c.field.failing then c
  else if c.pulseMode n then
    if l && !old && !c.doBit n stLAT then
      match (c.doc n).pulse with
      | some _ => c.bump (0x2840 + n) 0x07
      | none => (c.modDo n (fun x => { x with pulse := some (c.now + c.pulseNs n), pendSafe := none })).applyDo n true
    else c
  else if (c.doc n).pulse.isSome then c.modDo n (fun x => { x with pendSafe := some l })
  else c.applyDo n l

/-- A delivery of R260: the level is delivered whether or not it changed; a pulse-mode output is not pulsed. -/
def Chip.deliverDo (c : Chip) (n : Nat) (l : Bool) : Chip :=
  if c.pulseMode n then
    let c := c.modDo n (fun x => { x with cmd := l })
    if c.field.failing || (c.doc n).pulse.isSome then c else c.applyDo n false
  else c.levelDo n l

/-- Clear the latch of an output: the recorded level is applied (R270). -/
def Chip.clearLatch (c : Chip) (n : Nat) : Chip :=
  if c.doBit n stLAT then
    ((c.setDo n stLAT false).modDo n (fun x => { x with shut := [], switched := c.now })).syncDo n
  else c

/-- The output takes a safe state or a fail action: at once, or at the end of a running pulse (R272). -/
def Chip.forceDo (c : Chip) (n : Nat) (l : Bool) : Chip :=
  match (c.doc n).pulse with
  | some _ => c.modDo n (fun x => { x with pendSafe := some l })
  | none => c.applyDo n l

/-- The safe state of an output (0x2840+n.03), which reaches the die only over its link; a fail action in force prevails. -/
def Chip.safeDo (c : Chip) (n : Nat) : Chip :=
  if c.field.linkUp && c.fieldAlive && !c.field.failing then
    let c := c.modDo n (fun x => { x with lastDisp := none })
    match c.rd (0x2840 + n) 0x03 with
    | 0 => (c.modDo n (fun x => { x with cmd := false })).forceDo n false
    | 1 => (c.modDo n (fun x => { x with cmd := true })).forceDo n true
    | _ => c
  else c

/-- The fail action of an output (0x2840+n.04): off or hold. -/
def Chip.failDo (c : Chip) (n : Nat) : Chip :=
  let c := c.setDo n stFLA true
  if c.rd (0x2840 + n) 0x04 = 0 then c.forceDo n false else c

/-- The end of a running pulse: off, then what waits for it (R269, R272). -/
def Chip.endPulse (c : Chip) (n : Nat) : Chip :=
  let w := (c.doc n).pendSafe
  let c := (c.modDo n (fun x => { x with pulse := none, pendSafe := none })).applyDo n false
  match w with
  | some l => c.applyDo n l
  | none => c

/-- A diagnostic bit is set: SHT, THS, OPN, MIS, LAT and GRP advance 0x2840+n.07 and are recorded (R270). -/
def Chip.diagDo (c : Chip) (n b code sev : Nat) : Chip :=
  if c.doBit n b then c
  else ((c.setDo n b true).bump (0x2840 + n) 0x07).notify code sev n false []

/-! ### Loop outputs -/

/-- ALM, FLA and CPL of the AO status word (R276). -/
abbrev aoFLA : Nat := 41
abbrev aoALM : Nat := 42
abbrev aoCPL : Nat := 43

def Chip.aoBit (c : Chip) (o b : Nat) : Bool := c.liveBit (24 + o) b
def Chip.setAo (c : Chip) (o b : Nat) (v : Bool) : Chip := c.setLive (24 + o) b v

/-- The alarm level (0x2868+o.03) in nA. -/
def Chip.alarmNa (c : Chip) (o : Nat) : Nat := if c.rd (0x2868 + o) 0x03 = 0 then 3500000 else 21500000

/-- The die commands a current, of which an output whose supply is missing delivers none (R258); `alarm` says that it is the alarm level, whose start and end are events (R278). -/
def Chip.driveAo (c : Chip) (o na : Nat) (alarm : Bool) : Chip :=
  let was := (c.aoch o).alarm
  let c := c.modAo o (fun x => { x with
    applied := na, alarm := alarm,
    delivered := if c.vMissing (aoSupply o) then 0 else if x.cpl then min x.delivered na else na,
    changedAt := if x.applied = na then x.changedAt else c.now })
  let c := c.setAo o aoALM alarm
  if alarm && !was then c.notify 0x0921 sevMinor o false []
  else if was && !alarm then c.notify 0x0921 sevMinor o true []
  else c

/-- The device commands a current: the die sources it, but on a standby it stays armed at 0 mA (Table 06-6, R190). -/
def Chip.applyAo (c : Chip) (o na : Nat) (alarm : Bool) : Chip :=
  let c := c.modAo o (fun x => { x with armed := (na, alarm) })
  if c.pairState = psStandbyReady then c else c.driveAo o na alarm

/-- A commanded AO word: the alarm level on Invalid or Stale, else the current, at most 24 mA (R276, R278). -/
def Chip.levelAo (c : Chip) (o na qc : Nat) : Chip :=
  if c.field.failing then c
  else if qc = 2 ∨ qc = 5 then c.applyAo o (c.alarmNa o) true
  else c.applyAo o (min na 24000000) false

/-- The safe state of an AO (0x2868+o.01). -/
def Chip.safeAo (c : Chip) (o : Nat) : Chip :=
  if c.field.linkUp && c.fieldAlive && !c.field.failing then
    let c := c.modAo o (fun x => { x with lastDisp := none })
    match c.rd (0x2868 + o) 0x01 with
    | 0 => c.applyAo o 0 false
    | 2 => c.applyAo o (c.alarmNa o) true
    | _ => c
  else c

/-- The fail action of an AO (0x2868+o.02): 0 mA or hold. -/
def Chip.failAo (c : Chip) (o : Nat) : Chip :=
  let c := c.setAo o aoFLA true
  if c.rd (0x2868 + o) 0x02 = 0 then c.driveAo o 0 false else c

/-- 2 ms have passed without a refresh: each output takes its fail action, FLA is set and 0x2800.05 advances (R280). -/
def Chip.failOutputs (c : Chip) : Chip :=
  let c := c.modField (fun f => { f with failing := true })
  let c := c.forAll (List.range 24) (fun c n => c.failDo n)
  let c := c.forAll (List.range 4) (fun c o => c.failAo o)
  (c.bump 0x2800 0x05).notify 0x0906 sevMajor 0 false []

/-! ### What classes hand to the die -/

/-- Outputs owed a delivery: bit n for DO n, bit 24 + o for AO o. -/
def allOutputs : Nat := 2 ^ 28 - 1

/-- The device dispatches level l to DO n (R58): applied where it differs from the last dispatched level, or is owed a
delivery; a dispatched 0 clears a latch (R270). A die that is not reached takes nothing. -/
def Chip.dispatchDo (c : Chip) (n : Nat) (l : Bool) : Chip :=
  let owed := c.field.deliver.testBit n
  let differs := (c.doc n).lastDisp != some l
  if c.field.linkUp && c.fieldAlive then
    let c := c.modDo n (fun x => { x with lastDisp := some l })
    let c := if l then c else c.clearLatch n
    if owed && !c.field.failing then
      (c.modField (fun f => { f with deliver := setFieldOf f.deliver n n 0 })).deliverDo n l
    else if differs then c.levelDo n l else c
  else c.modDo n (fun x => { x with lastDisp := some l })

/-- The device dispatches an AO word. -/
def Chip.dispatchAo (c : Chip) (o na qc : Nat) : Chip :=
  let owed := c.field.deliver.testBit (24 + o)
  let differs := (c.aoch o).lastDisp != some (na, qc)
  let c := c.modAo o (fun x => { x with lastDisp := some (na, qc) })
  if c.field.linkUp && c.fieldAlive then
    if (owed && !c.field.failing) || differs then
      (c.modField (fun f => { f with
        deliver := if f.failing then f.deliver else setFieldOf f.deliver (24 + o) (24 + o) 0 })).levelAo o na qc
    else c
  else c

/-- A class's owned outputs go to their safe state; its pending scheduled writes are discarded (R59, R272). -/
def Chip.safeOutputs (c : Chip) (n : Nat) : Chip :=
  match (c.cl n).cfg with
  | none => c
  | some g =>
    let c := c.forAll (g.doOut.map (·.1)) (fun c d => c.safeDo d)
    let c := c.forAll (g.aoOut.map (·.1)) (fun c o => c.safeAo o)
    c.modField (fun f => { f with sched := f.sched.filter (fun x => x.cls != n) })

end Sys2Proof.Machine
end

