-- ==== Sys2Proof/Machine/Items.lean ====
section
/-! DEFINITION. Input items at the region ports: their quality, what the state of their producers does to it, and the counting of changes
(R9, R10, R32, R49, Table 09-5). -/

namespace Sys2Proof.Machine

/-- Key of the quality that an item brought to a placement. -/
def baseKey (a : Nat) : Nat := 2 ^ 20 + a
/-- A CAN port. -/
def Chip.canp (c : Chip) (k : Nat) : CanPort := nth CanPort.reset c.net.can k

/-- Quality with which an item enters an image: at most Questionable when it was late (R49). -/
def itemQ (i : Item) : Nat := if i.late then qMin (qIn i.qc) 1 else qIn i.qc

/-- The words of a placement with the quality q of its source: in bits 47:44 of the first word; in bits 23:20 of every grid word, where
the lower-ranked of the two stands (R32, R226). -/
def embedQ (src : ItemSrc) (q : Nat) (ws : List Word) : List Word :=
  match src, ws with
  | .grid _, ws => ws.map (fun w => toWord (setFieldOf w.toNat 23 20 (qMin (fieldOf w.toNat 23 20) q)))
  | .diRecord _, w :: r | .diFreq _, w :: r | .ai _, w :: r | .supply, w :: r | .doStatus _, w :: r | .aoStatus _, w :: r
  | .computed _ _, w :: r => toWord (setFieldOf w.toNat 47 44 q) :: r
  | _, ws => ws

/-- The words of a sample: a reserved code is taken as Invalid (R10), that of a late one is lowered in its own field (R49). -/
def sampleWords (i : Item) : List Word :=
  match i.vals with
  | w :: r =>
    let q := qIn (fieldOf w.toNat 23 20)
    toWord (setFieldOf w.toNat 23 20 (if i.late then qMin q 1 else q)) :: r
  | [] => []

/-- Computed set s has wiring 2, with which its wrong sequence and missing neutral show Invalid (R246). -/
def Chip.threeWire (c : Chip) (s : Nat) : Bool := match c.meas.image with
  | some im => (match im.sets[s]? with
    | some f => f.wiring == 2
    | none => false)
  | none => false

/-- What the producer's state does to the quality of a source (R32, R222, R246, R258, R259, R309). -/
def Chip.sourceQ (c : Chip) (src : ItemSrc) : Nat :=
  let runs := c.fieldRuns && c.field.linkUp && !c.portFenced 0
  let inv (b : Bool) : Nat := if b then 0 else 2
  match src with
  | .diLevel => inv (runs && c.field.di.all (·.valid))
  | .diRecord d => inv (runs && (c.di d.val).valid)
  | .diCount d => inv (runs && (c.di d.val).valid)
  | .diFreq d => inv (runs && (c.di d.val).fValid)
  | .ai a => inv (runs && (c.aich a.val).valid)
  | .supply => inv (runs && c.field.supplyValid)
  | .doStatus _ | .aoStatus _ => inv (runs && c.field.statusValid)
  | .can p o => if (c.canp p.val).rx.any (fun r => r.obj.num == o && r.held) then 6 else 0
  | .computed s _ => qMin (if c.portFenced 15 then 6 else 0) (if (nth MSet.reset c.meas.sets s).fresh then 1 else 0)
  | .eventWord s => qMin (if c.portFenced 15 then 6 else 0) (if c.threeWire s then 2 else 0)
  | .grid _ | .capturePage => if c.portFenced 15 then 6 else 0
  | _ => 0

/-- Word 0 of a DI change record with its change count replaced (Table 09-5). -/
def withCount (w : Word) (n : Nat) : Word := toWord (setFieldOf w.toNat 39 32 (min n 255))

/-- Changes that the records taken together stand for (CNT of Table 09-5). -/
def changeCount (its : List Item) : Nat := (its.map (fun i => fieldOf (nth 0 i.vals 0).toNat 39 32)).sum

end Sys2Proof.Machine
end

