-- ==== Sys2Proof/Machine/Ledger.lean ====
section
/-! DEFINITION. The layouts of the ledger and of the undo buffer: the words of a slot (Table 05-2), which slot of the two is valid
(R151), and the bits of an undo entry (Tables 05-3 and 05-4). -/

namespace Sys2Proof.Machine

/-! ### Ledger slots (Table 05-2) -/

/-- Three return entries of 14 bits, the oldest lowest, from place i of a stack listed oldest first. -/
def retWord (l : List Nat) (i : Nat) : Nat :=
  nth 0 l i % 2 ^ 14 + nth 0 l (i + 1) % 2 ^ 14 * 2 ^ 14 + nth 0 l (i + 2) % 2 ^ 14 * 2 ^ 28
/-- The loop levels, the outer first. -/
def loopAt (x : Arch) (i : Nat) : LoopLvl := nth ⟨0, 0, 0⟩ x.loops.reverse i
/-- Start and end of a loop level (LP0, LP1). -/
def loopWord (l : LoopLvl) : Nat := l.start % 2 ^ 14 + l.stop % 2 ^ 14 * 2 ^ 14

/-- Word k of a ledger slot. -/
def slotWord (x : LedgerSlot) (k : Nat) : Word :=
  let a := x.arch
  let ret := a.ret.reverse
  if k < 63 then WMem.get a.g (k + 1)
  else toWord (match k with
    | 63 => a.p.toNat / 2 * 2 ^ 33 + ((a.rung.reverse).zipIdx.foldl (fun n p => n + bit01 p.1 * 2 ^ (16 + p.2)) 0) +
        a.rung.length % 32 * 2 ^ 11 + bit01 a.ba * 2 ^ 10
    | 64 => a.pc % 2 ^ 14 * 2 ^ 34 + a.loops.length % 4 * 2 ^ 32 + a.sig % 2 ^ 32
    | 65 => retWord ret 0
    | 66 => retWord ret 3
    | 67 => a.ret.length % 16 * 2 ^ 44 + retWord ret 6 % 2 ^ 28
    | 68 => loopWord (loopAt a 0)
    | 69 => loopWord (loopAt a 1)
    | 70 => (loopAt a 0).count
    | 71 => (loopAt a 1).count
    | 72 => x.isb
    | 73 => x.swn % 64
    | 74 => bit01 x.ent * 2 ^ 31 + x.msn % 2 ^ 31
    | _ => 0)

/-- The slot that 75 words hold. -/
def slotOf (f : Nat → Word) : LedgerSlot :=
  let v (k hi lo : Nat) : Nat := fieldOf (f k).toNat hi lo
  let rung := ((List.range (min 16 (v 63 15 11))).map (fun j => (f 63).getLsbD (16 + j))).reverse
  let entry (i : Nat) : Nat := v (65 + i / 3) (14 * (i % 3) + 13) (14 * (i % 3))
  let level (i : Nat) : LoopLvl := ⟨v (68 + i) 13 0, v (68 + i) 27 14, (f (70 + i)).toNat⟩
  { arch := {
      g := (List.range 63).foldl (fun m k => WMem.set m (k + 1) (f k)) []
      p := BitVec.ofNat 16 (v 63 47 33 * 2)
      ba := (f 63).getLsbD 10
      rung := rung
      ret := ((List.range (min 8 (v 67 47 44))).map entry).reverse
      loops := ((List.range (min 2 (v 64 33 32))).map level).reverse
      pc := v 64 47 34
      sig := v 64 31 0 }
    isb := (f 72).toNat
    swn := v 73 5 0
    ent := (f 74).getLsbD 31
    msn := v 74 30 0 }

/-- Slot 1 holds the later sequence number, compared modulo 2^31 (R151). -/
def slot1Valid (w : Work) : Bool :=
  let ahead := (w.slot1.msn % 2 ^ 31 + 2 ^ 31 - w.slot0.msn % 2 ^ 31) % 2 ^ 31
  decide (0 < ahead ∧ ahead < 2 ^ 30)
/-- The valid ledger slot of a work. -/
def validSlot (w : Work) : LedgerSlot := if slot1Valid w then w.slot1 else w.slot0
/-- Write the next ledger slot with the next sequence number; the two are written in turn (R151). -/
def writeSlot (w : Work) (x : LedgerSlot) : Work :=
  let x := { x with msn := ((validSlot w).msn + 1) % 2 ^ 31 }
  if slot1Valid w then { w with slot0 := x } else { w with slot1 := x }

/-! ### The ledger area of region memory (R151) -/

/-- Whether a region word lies in the ledger area: 8 positions of two slots of 128 words. -/
def inLedger (a : Nat) : Bool := decide (0xFF000 ≤ a ∧ a < 0xFF800)
/-- Position of the work whose ledger holds a word of the area. -/
def ledgerPos (a : Nat) : Nat := (a - 0xFF000) / 0x100
/-- The word that stands at a place of the ledger area. -/
def ledgerWord (w : Work) (a : Nat) : Word :=
  slotWord (if (a - 0xFF000) / 0x80 % 2 = 1 then w.slot1 else w.slot0) ((a - 0xFF000) % 0x80)
/-- Write a word of the ledger area. -/
def setLedgerWord (w : Work) (a : Nat) (v : Word) : Work :=
  let put (x : LedgerSlot) : LedgerSlot := slotOf (fun k => if k = (a - 0xFF000) % 0x80 then v else slotWord x k)
  if (a - 0xFF000) / 0x80 % 2 = 1 then { w with slot1 := put w.slot1 } else { w with slot0 := put w.slot0 }

/-! ### Undo entries (Tables 05-3 and 05-4) -/

/-- The 72 bits of an entry: SPC, ADR, OLD. -/
def undoBits : Undo → BitVec 72
  | .dword a old => 0b00#2 ++ BitVec.ofNat 20 a ++ 0#2 ++ old
  | .gword a old => 0b01#2 ++ BitVec.ofNat 20 a ++ 0#2 ++ old
  | .ioword a old => 0b10#2 ++ BitVec.ofNat 20 a ++ 0#2 ++ old
  | .sent e mask => 0b11#2 ++ 0b00#2 ++ BitVec.ofNat 18 e ++ 0#2 ++ BitVec.ofNat 48 mask
  | .consumed e => 0b11#2 ++ 0b01#2 ++ BitVec.ofNat 18 e ++ 0#2 ++ 0#48
  | .cleared e old => 0b11#2 ++ 0b10#2 ++ BitVec.ofNat 18 e ++ 0#2 ++ BitVec.ofNat 48 (bit01 old)
  | .mark off => 0b11#2 ++ 0b11#2 ++ BitVec.ofNat 18 off ++ 0#2 ++ 0#48

/-- The entry that 72 bits spell. -/
def undoOf (b : BitVec 72) : Undo :=
  let adr := (b.extractLsb' 50 20).toNat
  let old := b.extractLsb' 0 48
  match (b.extractLsb' 70 2).toNat with
  | 0 => .dword adr old
  | 1 => .gword adr old
  | 2 => .ioword adr old
  | _ => match (b.extractLsb' 68 2).toNat with
    | 0 => .sent (adr % 16) (old.toNat % 256)
    | 1 => .consumed (adr % 16)
    | 2 => .cleared (adr % 16) (old.getLsbD 0)
    | _ => .mark (adr % 2 ^ 14)

end Sys2Proof.Machine
end

