-- ==== Sys2Proof/Machine/Engine.lean ====
section
/-! DEFINITION. How an engine issues a bundle: the operations of a bundle collect what they will do, each reading the state
before the bundle; the last one issues the bundle, which takes effect whole or, on a program fault, not at all (R85-R108,
log 4, log 5). -/

namespace Sys2Proof.Machine

/-! ### What operations read -/


/-- Whether a region-memory word lies in the partition of a class, which is never of the ledger area (R93). -/
def inPart (k : Cls) (a : Nat) : Bool := match k.cfg with
  | some g => g.part.any (fun p => decide (p.1 ≤ a) && decide (a < p.1 + p.2)) && !inLedger a
  | none => false

/-- A region-window read: the word inside the partition, zero elsewhere (R93). -/
def Chip.gWord (c : Chip) (e a : Nat) : Word :=
  match c.classOf e with
  | some n => if inPart (c.cl n) a then WMem.get (c.region (e / 8)).gmem a else 0
  | none => 0

/-- Bits 47:0 of an I-space half-bundle (Table 04-14). -/
def Chip.iHalf (c : Chip) (e h : Nat) : Word :=
  toWord (NMem.get (nth [] c.ibank e) (h / 2) >>> (64 * (h % 2)))

/-- Whether a class owns an I/O word (R43). -/
def ownsIo (k : Cls) (a : Nat) : Bool := match k.cfg with
  | some g => g.owned.contains a
  | none => false

/-- The working value of an owned word: the last one written in this cycle, else the value last dispatched (R50). -/
def ioWorking (k : Cls) (a : Nat) : Word :=
  match k.cycle with
  | some cy => match cy.work.find? (fun p => p.1 == a) with
    | some p => p.2
    | none => WMem.get k.pub a
  | none => WMem.get k.pub a

/-- An I/O word as the cycle of a class reads it (R50, R96); a word the image does not map reads zero. -/
def ioRead (k : Cls) (a : Nat) : Word := if ownsIo k a then ioWorking k a else WMem.get k.img a

/-- The I/O word that engine position e reads. -/
def Chip.ioWord (c : Chip) (e a : Nat) : Word :=
  match c.classOf e with
  | some n => ioRead (c.cl n) a
  | none => 0

/-- The value of a form X bit operand. -/
def Chip.bitVal (c : Chip) (e : Nat) : BitOpnd → Bool
  | .io w b => (c.ioWord e w.toNat).getLsbD b.toNat
  | .dsp w b => (c.dWord e w.toNat).getLsbD b.toNat

/-- Replace one bit of a word, the other 47 unchanged (R96). -/
def putBit (w : Word) (i : Nat) (b : Bool) : Word := toWord (setFieldOf w.toNat i i (bit01 b))

/-- A write of an I/O word: an ownership violation where the class does not own it (R96). -/
def Chip.ioStore (c : Chip) (e a : Nat) (v : Word) : Except ProgFault (List Eff) :=
  match c.classOf e with
  | some n => if ownsIo (c.cl n) a then .ok [.io a v] else .error .ownership
  | none => .error .ownership

/-- A write of a form X bit. -/
def Chip.bitStore (c : Chip) (e : Nat) (b : Bool) : BitOpnd → Except ProgFault (List Eff)
  | .io w i => c.ioStore e w.toNat (putBit (c.ioWord e w.toNat) i.toNat b)
  | .dsp w i => .ok [.dmem w.toNat (putBit (c.dWord e w.toNat) i.toNat b)]

/-! ### Write collisions (R107) -/

/-- Where a write of memory or I/O space goes. -/
def Eff.place : Eff → Option (Nat × Nat)
  | .dmem a _ => some (0, a)
  | .gmem a _ => some (1, a)
  | .io a _ => some (2, a)
  | _ => none

/-- Two operations of one bundle write the same word. -/
def storesCollide (l : List Eff) : Bool :=
  let ps := l.filterMap Eff.place
  ps.any (fun p => decide (1 < ps.count p))

/-- The results that become visible to bundle i. -/
def dueAt (l : List Flight) (i : Nat) : List Flight := l.filter (fun f => f.due == i)

/-- A destination at which two results meet in one completion bundle. -/
def meets (l : List Flight) (f : Flight) : Bool :=
  decide (1 < (l.filter (fun g => g.due == f.due && g.dest == f.dest)).length)

/-- Put a result into its destination. -/
def landOne (a : Arch) (f : Flight) : Arch :=
  match f.dest with
  | .g n => { a with g := WMem.set a.g n f.val }
  | .p n => { a with p := BitVec.ofNat 16 (setFieldOf a.p.toNat n n f.val.toNat) }
  | .ba => { a with ba := f.val.getLsbD 0 }

/-- The results due at bundle i become visible, those that meet apart: they stay for the fault of bundle i (R107). -/
def land (w : Work) (i : Nat) : Work :=
  let due := (dueAt w.flights i).filter (fun f => !meets w.flights f)
  { w with arch := due.foldl landOne w.arch,
           flights := w.flights.filter (fun f => f.due != i || meets w.flights f) }

/-! ### The next bundle (R92, R103, R104, R134) -/

def bundles : Nat := 16384

/-- After the last bundle of a loop body: back to its start, or on; an outer body can end at the same bundle. -/
def loopNext (pc : Nat) : List LoopLvl → List LoopLvl × Nat
  | [] => ([], (pc + 1) % bundles)
  | l :: ls =>
    if pc = l.stop then (if 1 < l.count then ({ l with count := l.count - 1 } :: ls, l.start) else loopNext pc ls)
    else (l :: ls, (pc + 1) % bundles)

/-- Sequential issue, hardware loops included. -/
def seqPc (a : Arch) : Arch :=
  let r := loopNext a.pc a.loops
  { a with loops := r.1, pc := r.2 }

/-- Where issue goes after the bundle at PC with control operation `ctl`; the second delay bundle ends at the target. Of a branch in the
second-last bundle of a loop body with iterations left, the last bundle of the body is the first delay bundle and, as the loop goes back
without delay bundles (R104), the first bundle of the body is the second (DESIGN CHOICE, log 115). -/
def nextPc (w : Work) (ctl : Option Ctl) : Work :=
  let seq := { w with arch := seqPc w.arch }
  if 0 < w.delay then
    let seq := { seq with delay := w.delay - 1 }
    if w.delay = 1 then
      match w.target with
      | some t => { w with arch := { w.arch with pc := t }, delay := 0, target := none }
      | none => seq
    else seq
  else
    match ctl with
    | some (.branch d) => { seq with delay := 2, target := d }
    | some (.callTo (some d)) =>
      { seq with delay := 2, target := some d,
                 arch := { seq.arch with ret := (((w.arch.pc + 3) % bundles) :: w.arch.ret).take 8 } }
    | some (.callTo none) => { seq with delay := 2, target := none }
    | some (.retTo true) =>
      { seq with delay := 2, target := some (w.arch.ret.headD 0), arch := { seq.arch with ret := w.arch.ret.tail } }
    | some (.retTo false) => { seq with delay := 2, target := none }
    | some (.loopTo stop count) =>
      if count = 0 then { w with arch := { w.arch with pc := (stop + 1) % bundles } }
      else { w with arch := { w.arch with pc := (w.arch.pc + 1) % bundles,
                                          loops := (⟨(w.arch.pc + 1) % bundles, stop, count⟩ :: w.arch.loops).take 2 } }
    | _ => seq

/-! ### Effects of a bundle -/

/-- Add an undo entry, newest first. -/
def addUndo (w : Work) (u : Undo) : Work := { w with undo := u :: w.undo }

def hasUndo (w : Work) (p : Undo → Bool) : Bool := w.undo.any p

/-- The member index of an engine position in its class (R42). -/
def memberIndex (k : Cls) (e : Nat) : Nat := (clsTeam k).idxOf e

/-- One effect of the bundle that engine position e issues, with the undo entry of a first write (R153). -/
def Chip.effect (c : Chip) (e : Nat) (f : Eff) : Chip :=
  let w := c.work e
  let n := (c.classOf e).getD 16
  match f with
  | .res d dist v => c.modWork e (fun w => { w with flights := w.flights ++ [⟨w.issued + dist, d, v⟩] })
  | .dmem a v =>
    let old := c.dWord e a
    let c := c.modDbank e (fun m => WMem.set m a v)
    if hasUndo w (fun u => match u with | .dword a' _ => a' == a | _ => false) then c
    else c.modWork e (fun w => addUndo w (.dword a old))
  | .gmem a v =>
    let old := WMem.get (c.region (e / 8)).gmem a
    let c := c.modRegion (e / 8) (fun r => { r with gmem := WMem.set r.gmem a v })
    let c := c.modWork e (fun w => { w with lastGst := some w.issued })
    if hasUndo w (fun u => match u with | .gword a' _ => a' == a | _ => false) then c
    else c.modWork e (fun w => addUndo w (.gword a old))
  | .io a v =>
    let old := ioWorking (c.cl n) a
    let c := c.modCl n (fun k => { k with cycle := k.cycle.map (fun cy =>
      { cy with work := (a, v) :: cy.work.filter (fun p => p.1 != a) }) })
    if hasUndo w (fun u => match u with | .ioword a' _ => a' == a | _ => false) then c
    else c.modWork e (fun w => addUndo w (.ioword a old))
  | .mbMark off =>
    match (c.cl n).cycle with
    | some cy =>
      if cy.marks.contains off then c
      else (c.modCl n (fun k => { k with cycle := k.cycle.map (fun cy => { cy with marks := off :: cy.marks }) })).modWork e
        (fun w => addUndo w (.mark off))
    | none => c
  | .sched s => c.modCl n (fun k => { k with cycle := k.cycle.map (fun cy => { cy with sched := cy.sched ++ [s] }) })
  | .push => c.modWork e (fun w => { w with arch := { w.arch with rung := (w.arch.ba :: w.arch.rung).take 16 } })
  | .pop => c.modWork e (fun w => { w with arch := { w.arch with rung := w.arch.rung.tail } })
  | .rcl => c.modCl n (fun k => { k with cycle := k.cycle.map (fun cy => { cy with rcl := true }) })
  | .cnf => c.modCl n (fun k => { k with cycle := k.cycle.map (fun cy => { cy with cnf := true }) })
  | .sev t ev mask =>
    let c := c.modWork e (fun w => addUndo w (.sent ev mask))
    match w.sup with
    | (ev', mask') :: rest =>
      if ev' = ev ∧ mask' = mask then c.modWork e (fun w => { w with sup := rest })
      else
        let c := c.bump 0x2300 0x0C
        { c with evFlight := c.evFlight ++ (((clsTeam (c.cl n)).zipIdx.filter (fun p => mask.testBit p.2)).map
            (fun p => ⟨p.1, ev, t + 8⟩)) }
    | [] =>
      { c with evFlight := c.evFlight ++ (((clsTeam (c.cl n)).zipIdx.filter (fun p => mask.testBit p.2)).map
          (fun p => ⟨p.1, ev, t + 8⟩)) }
  | .clev ev => c.modWork e (fun w => addUndo { w with flags := NMem.set w.flags ev 0 } (.cleared ev (NMem.has w.flags ev)))

/-- An empty bundle. -/
def emptyBundle : OpenBundle := ⟨[], none, none, none, []⟩

/-- Hold a member that issues or waits (R28, R108). -/
def holdMember (w : Work) : Work :=
  match w.run with
  | .issuing => { w with run := .teamHeld, saved := .issuing }
  | .waitEvent x => { w with run := .teamHeld, saved := .waitEvent x }
  | .waitTk x => { w with run := .teamHeld, saved := .waitTk x }
  | _ => w

/-- A program fault of the bundle that engine position e was to issue (R27, R28, R108): the bundle has no effect, the engine
stops issue, the other members are held, and the region controller holds the fault. -/
def Chip.raise (c : Chip) (e : Nat) (f : ProgFault) : Chip :=
  let w := c.work e
  let c := c.modWork e (fun w => { w with
    bundle := emptyBundle, run := .faulted f, faultAt := c.now, atFault := w.issued,
    flights := w.flights.filter (fun g => g.due != w.issued) })
  match c.classOf e with
  | none => c
  | some n =>
    let c := ((clsTeam (c.cl n)).filter (· != e)).foldl (fun c m => c.modWork m holdMember) c
    c.modCl n (fun k => { k with held := match k.held with
      | some h => some h
      | none => some ⟨e, f, c.cy n, w.arch.pc, c.now⟩ })

/-- The program fault that the bundle of a work meets, if any: what its operations raised, two results that meet in it, or
two stores to one word. -/
def bundleFault (w : Work) : Option ProgFault :=
  match w.bundle.fault with
  | some f => some f
  | none =>
    if (dueAt w.flights w.issued) != [] then some .writeCollision
    else if storesCollide w.bundle.effs then some .writeCollision
    else none

/-- The end of cycle of a member (R54, R105): results in flight are discarded; when the last member is done, E is here. -/
def Chip.memberDone (c : Chip) (e : Nat) (t : Instant) : Chip :=
  let c := c.modWork e (fun w => { w with run := .done, flights := [] })
  match c.classOf e with
  | none => c
  | some n =>
    c.modCl n (fun k => { k with cycle := k.cycle.map (fun cy =>
      { cy with done := cy.done + 1, eocAt := if cy.done + 1 = (clsTeam k).length then some t else cy.eocAt }) })

/-- What the control operation of the issued bundle does beside the next PC. -/
def Chip.control (c : Chip) (e : Nat) (ctl : Option Ctl) : Chip :=
  match ctl with
  | some (.endCycle t) => c.memberDone e t
  | some (.waitEvent ev) =>
    if NMem.has (c.work e).flags ev then
      c.modWork e (fun w => addUndo { w with flags := NMem.set w.flags ev 0 } (.consumed ev))
    else c.modWork e (fun w => { w with run := .waitEvent ev })
  | some (.waitTk tk now) => if tk ≤ now then c else c.modWork e (fun w => { w with run := .waitTk tk })
  | _ => c

/-- Bits of the bundle at the PC of engine position e. -/
def Chip.bundleBits (c : Chip) (e : Nat) : Nat := NMem.get (nth [] c.ibank e) (c.work e).arch.pc

/-- The expected signature of a check point, from the image in force; none where the bundle at the PC is none (R143). -/
def Chip.expectedSig (c : Chip) (e : Nat) : Option Nat := match (c.region (e / 8)).image with
  | some im => ((im.checks.find? (fun p => p.1 == e)).bind (fun p => p.2.find? (fun q => q.1 == (c.work e).arch.pc))).map (·.2)
  | none => none

/-- The signature that the bundle at the PC brings is the one its check point expects (R143, R144). -/
def Chip.signatureOk (c : Chip) (e : Nat) : Bool := match c.expectedSig e with
  | some x => x == Config.sigStep (c.work e).arch.sig (c.bundleBits e)
  | none => true

/-- Issue the bundle of engine position e (R85, R101): its effects, the next PC, and the results that become visible to the
next bundle. Where its signature check fails no operation takes effect and the engine issues no more: it abdicates with the
HARDWARE_FAULT of source 3 (R144, log 120). -/
def Chip.commit (c : Chip) (e : Nat) : Chip :=
  let w := c.work e
  if c.signatureOk e = false then c.modWork e (fun w => { w with run := .mismatch, bundle := emptyBundle })
  else
    match bundleFault w with
    | some f => c.raise e f
    | none =>
      let pcw := c.bundleBits e
      let c := w.bundle.effs.foldl (fun c f => c.effect e f) c
      let c := c.modWork e (fun w' => nextPc { w' with
        arch := { w'.arch with sig := Config.sigStep w'.arch.sig pcw }, ended := some w'.arch.pc } w.bundle.ctl)
      let c := c.modWork e (fun w' => land { w' with
        bundle := emptyBundle, issued := w'.issued + 1, sinceMs := w'.sinceMs + 1 } (w'.issued + 1))
      c.control e w.bundle.ctl

/-! ### Issuing one operation -/

/-- What an operation does when its guard passes: effects and control. -/
structure Did where
  effs : List Eff
  ctl  : Option Ctl
  deriving DecidableEq, Repr

/-- Results and stores only. -/
def did (l : List Eff) : Except ProgFault Did := .ok ⟨l, none⟩

/-- An operation joins the bundle of its engine, whether or not it is the last (R86, R87): an illegal opcode is raised
whatever the guard; a squashed operation does nothing but, for a branch, call or return, keep its delay bundles. -/
def joinBundle (w : Work) (guard legal : Bool) (squashed : Option Ctl) (r : Except ProgFault Did) : Work :=
  let b := w.bundle
  if ¬ legal then { w with bundle := { b with fault := some .illegalOpcode } }
  else if guard then
    match r with
    | .ok d => { w with bundle := { b with effs := b.effs ++ d.effs, ctl := d.ctl.or b.ctl } }
    | .error f => { w with bundle := { b with fault := b.fault.or (some f) } }
  else { w with bundle := { b with ctl := squashed.or b.ctl } }

/-- The place of a slot in the order in which the operations of a bundle are commanded: C, M, A, B (log 4). -/
def slotRank : Slot → Nat
  | .c => 0 | .m => 1 | .a => 2 | .b => 3

/-- A bundle still takes an operation in a slot: each slot holds one (R85), in the order of commanding, so that an `imm`, which fills slot C
and leaves no control operation beside it, comes before every form I operation (R89, R90). -/
def slotFree (b : OpenBundle) (sl : Slot) : Bool := b.used.all (fun u => decide (slotRank u < slotRank sl))

/-- Issue an operation of engine position e in a slot: it joins the bundle, and the last operation of the bundle issues it. An engine
that does not issue, and a bundle whose slot is taken, take no operation (R85, R102, log 3, log 4). -/
def Chip.issueAs (c : Chip) (e : Nat) (sl : Slot) (last : Bool) (f : Work → Work) : Chip :=
  if (c.work e).run = .issuing ∧ slotFree (c.work e).bundle sl = true then
    let c := c.modWork e (fun w => f { w with bundle := { w.bundle with used := sl :: w.bundle.used } })
    if last then c.commit e else c
  else c

/-- Issue a guarded operation: `run` is computed from the state before the bundle. -/
def Chip.issue (c : Chip) (sl : Slot) (o : Op) (legal : Bool) (run : Work → Except ProgFault Did) : Chip :=
  c.issueAs o.eng.val sl o.last (fun w => joinBundle w (guardOk w o) legal none (run w))

/-- Issue a guarded control operation, illegal in a delay bundle (R103). -/
def Chip.issueCtl (c : Chip) (o : Op) (squashed : Option Ctl) (run : Work → Except ProgFault Did) : Chip :=
  c.issueAs o.eng.val .c o.last (fun w => joinBundle w (guardOk w o) (w.delay == 0) squashed (run w))

end Sys2Proof.Machine
end

