-- ==== Sys2Proof/Machine/SlotB.lean ====
section
/-! DEFINITION. Slot B: bits, rungs, edges, predicate moves, timers and counters (R113-R117), and the operations that no
slot assigns. -/

namespace Sys2Proof.Machine

/-- The outcome of a command. -/
abbrev Out := Host.Outcome State Fault Refusal

/-- The next slot that a bundle has free, in the order of commanding. -/
def nextSlot (b : OpenBundle) : Slot := match b.used with
  | [] => .c
  | .c :: _ => .m
  | .m :: _ => .a
  | _ => .b

/-- NOP: does nothing, in the next free slot (R87). -/
def execNop (e : Fin 32) (last : Bool) (s : State) : Out :=
  s.onChip (fun c => c.issueAs e.val (nextSlot (c.work e.val).bundle) last id)

/-- Whether an operation is a control operation in the sense of R103. -/
def isControl : Instr → Bool
  | .br .. | .call .. | .ret .. | .loop .. | .eoc .. | .imm .. => true
  | _ => false

/-- Whether 32 bits in a slot are an illegal opcode for the engine now (Table 03-15). -/
def isIllegal (k : Work) (e : Fin 32) (slot : Slot) (w : BitVec 32) : Bool :=
  match decodeOp e true (profD k) 0 slot w with
  | none => true
  | some i => isControl i && k.delay != 0

/-- ILLEGAL_OPCODE: raised at decode, whatever the guard (R87, R99); a word that is no illegal opcode is not this event. -/
def execIllegalOpcode (e : Fin 32) (last : Bool) (slot : Slot) (w : BitVec 32) (s : State) : Out :=
  s.onChip (fun c =>
    if isIllegal (c.work e.val) e slot w then
      c.issueAs e.val slot last (fun k => joinBundle k false false none (did []))
    else c)

/-- A ladder operation that computes BA from BA and a bit (Table 04-1). -/
def ladder (o : Op) (b : BitOpnd) (f : Bool → Bool → Bool) (s : State) : Out :=
  s.onChip (fun c => c.issue .b o (opndOk b) (fun w => did (resBA (f w.arch.ba (c.bitVal o.eng.val b)))))

def execLdBa (o : Op) (b : BitOpnd) (s : State) : Out := ladder o b (fun _ x => x) s
def execLdnBa (o : Op) (b : BitOpnd) (s : State) : Out := ladder o b (fun _ x => !x) s
def execAndBa (o : Op) (b : BitOpnd) (s : State) : Out := ladder o b (fun ba x => ba && x) s
def execAndnBa (o : Op) (b : BitOpnd) (s : State) : Out := ladder o b (fun ba x => ba && !x) s
def execOrBa (o : Op) (b : BitOpnd) (s : State) : Out := ladder o b (fun ba x => ba || x) s
def execOrnBa (o : Op) (b : BitOpnd) (s : State) : Out := ladder o b (fun ba x => ba || !x) s
def execXorBa (o : Op) (b : BitOpnd) (s : State) : Out := ladder o b (fun ba x => ba.xor x) s

/-- The stores of an operation as what it did. -/
def storing (r : Except ProgFault (List Eff)) : Except ProgFault Did :=
  match r with
  | .ok l => did l
  | .error f => .error f

/-- A ladder operation that writes a bit from BA; none writes nothing (Table 04-1). -/
def ladderOut (o : Op) (b : BitOpnd) (f : Bool → Option Bool) (s : State) : Out :=
  s.onChip (fun c => c.issue .b o (opndOk b) (fun w =>
    match f w.arch.ba with
    | some v => storing (c.bitStore o.eng.val v b)
    | none => did []))

def execOutBit (o : Op) (b : BitOpnd) (s : State) : Out := ladderOut o b (fun ba => some ba) s
def execOutnBit (o : Op) (b : BitOpnd) (s : State) : Out := ladderOut o b (fun ba => some !ba) s
def execSetBit (o : Op) (b : BitOpnd) (s : State) : Out := ladderOut o b (fun ba => if ba then some true else none) s
def execRstBit (o : Op) (b : BitOpnd) (s : State) : Out := ladderOut o b (fun ba => if ba then some false else none) s

/-- The top of the rung stack; an empty stack delivers 0 (R83). -/
def rungTop (w : Work) : Bool := w.arch.rung.headD false

def execPush (o : Op) (s : State) : Out := s.onChip (fun c => c.issue .b o true (fun _ => did [.push]))
def execPopa (o : Op) (s : State) : Out :=
  s.onChip (fun c => c.issue .b o true (fun w => did (resBA (w.arch.ba && rungTop w) ++ [.pop])))
def execPopo (o : Op) (s : State) : Out :=
  s.onChip (fun c => c.issue .b o true (fun w => did (resBA (w.arch.ba || rungTop w) ++ [.pop])))
def execNotba (o : Op) (s : State) : Out := s.onChip (fun c => c.issue .b o true (fun w => did (resBA !w.arch.ba)))

/-- An edge operation on a D-space bit: the bit is left holding BA as it was at issue (Table 04-2). -/
def edgeOp (o : Op) (a : BitVec 14) (b : BitVec 6) (f : Bool → Bool → Bool) (s : State) : Out :=
  s.onChip (fun c => c.issue .b o (bitOk b) (fun w =>
    did (resBA (f w.arch.ba (c.bitVal o.eng.val (.dsp a b))) ++
      [.dmem a.toNat (putBit (c.dWord o.eng.val a.toNat) b.toNat w.arch.ba)])))

def execRed (o : Op) (a : BitVec 14) (b : BitVec 6) (s : State) : Out := edgeOp o a b (fun ba x => ba && !x) s
def execFed (o : Op) (a : BitVec 14) (b : BitVec 6) (s : State) : Out := edgeOp o a b (fun ba x => x && !ba) s

def execBa2p (o : Op) (d : RegNo) (s : State) : Out := s.onChip (fun c => c.issue .b o true (fun w => did (resP d 1 w.arch.ba)))
def execP2ba (o : Op) (a : RegNo) (s : State) : Out :=
  s.onChip (fun c => c.issue .b o true (fun w => did (resBA (pRead w (predOf a)))))
def execAndp (o : Op) (a : RegNo) (s : State) : Out :=
  s.onChip (fun c => c.issue .b o true (fun w => did (resBA (w.arch.ba && pRead w (predOf a)))))
def execOrp (o : Op) (a : RegNo) (s : State) : Out :=
  s.onChip (fun c => c.issue .b o true (fun w => did (resBA (w.arch.ba || pRead w (predOf a)))))

/-- The tick number of the cycle's muster that timers count in, modulo 2^44 (R117). -/
def Chip.timerTick (c : Chip) (e : Nat) : Nat :=
  match c.classOf e with
  | some n => match (c.cl n).cycle with
    | some cy => tickNo cy.mPair.instant % 2 ^ 44
    | none => 0
  | none => 0

/-- A timer: the word at D-space address Ga is evaluated and written back, BA takes Q (R115-R117). -/
def timerOp (o : Op) (a b : RegNo) (u : BitVec 2) (f : TimerWord → Nat → Nat → Bool → TimerWord) (s : State) : Out :=
  s.onChip (fun c => c.issue .b o true (fun w =>
    let ad := (gRead w a).toNat % 2 ^ 15
    let t := f (TimerWord.ofWord (c.dWord o.eng.val ad)) (c.timerTick o.eng.val) (presetTicks (gRead w b) u) w.arch.ba
    did (resBA t.q ++ [.dmem ad t.toWord])))

def execTon (o : Op) (a b : RegNo) (u : BitVec 2) (s : State) : Out := timerOp o a b u evalTon s
def execTof (o : Op) (a b : RegNo) (u : BitVec 2) (s : State) : Out := timerOp o a b u evalTof s
def execTp (o : Op) (a b : RegNo) (u : BitVec 2) (s : State) : Out := timerOp o a b u evalTp s

/-- A counter: as a timer, with its own evaluation (R117). -/
def counterOp (o : Op) (a : RegNo) (f : Work → Word → Word × Bool) (s : State) : Out :=
  s.onChip (fun c => c.issue .b o true (fun w =>
    let ad := (gRead w a).toNat % 2 ^ 15
    let r := f w (c.dWord o.eng.val ad)
    did (resBA r.2 ++ [.dmem ad r.1])))

def execCtu (o : Op) (a b : RegNo) (s : State) : Out := counterOp o a (fun w x => evalCtu x (gRead w b) w.arch.ba) s
def execCtd (o : Op) (a _b : RegNo) (s : State) : Out := counterOp o a (fun w x => evalCtd x w.arch.ba) s

/-- `cld`: with BA = 1 the count becomes Gb, saturated; IN and BA stay (Table 04-3). The word is written back in any case
(R115). -/
def execCld (o : Op) (a b : RegNo) (s : State) : Out :=
  s.onChip (fun c => c.issue .b o true (fun w =>
    let ad := (gRead w a).toNat % 2 ^ 15
    let x := c.dWord o.eng.val ad
    let v := if w.arch.ba then ctrWord (ctrIn x) (min (gRead w b).toNat (2 ^ 47 - 1)) else x
    did [.dmem ad v]))

end Sys2Proof.Machine
end

