-- ==== Sys2Proof/Machine/SlotA.lean ====
section
/-! DEFINITION. Slot A: integer operations, compares, multiply and divide (R118-R123). -/

namespace Sys2Proof.Machine

/-- An operation with one result in a general register. -/
def opG (o : Op) (legal : Bool) (dist : Nat) (d : RegNo) (f : Work → Word) (s : State) : Out :=
  s.onChip (fun c => c.issue .a o legal (fun w => did (resG d dist (f w))))
/-- A compare into a predicate, at distance 2 (R121). -/
def opP (o : Op) (legal : Bool) (d : RegNo) (f : Work → Bool) (s : State) : Out :=
  s.onChip (fun c => c.issue .a o legal (fun w => did (resP d 2 (f w))))
/-- The modifier of a form R operation; form I has none. -/
def modOf (b : Src) (m : BitVec 2) : BitVec 2 := match b with
  | .reg _ => m
  | .imm _ => 0

def execAdd (o : Op) (d a : RegNo) (b : Src) (s : State) : Out := opG o true 1 d (fun w => gRead w a + srcVal w true b) s
def execSub (o : Op) (d a : RegNo) (b : Src) (s : State) : Out := opG o true 1 d (fun w => gRead w a - srcVal w true b) s
def execAnd (o : Op) (d a : RegNo) (b : Src) (s : State) : Out := opG o true 1 d (fun w => gRead w a &&& srcVal w false b) s
def execOr (o : Op) (d a : RegNo) (b : Src) (s : State) : Out := opG o true 1 d (fun w => gRead w a ||| srcVal w false b) s
def execXor (o : Op) (d a : RegNo) (b : Src) (s : State) : Out := opG o true 1 d (fun w => gRead w a ^^^ srcVal w false b) s
def execAndn (o : Op) (d a b : RegNo) (s : State) : Out := opG o true 1 d (fun w => gRead w a &&& ~~~ gRead w b) s
def execAdds (o : Op) (d a b : RegNo) (m : BitVec 2) (s : State) : Out :=
  opG o true 1 d (fun w => addSat m (gRead w a) (gRead w b)) s
def execSubs (o : Op) (d a b : RegNo) (m : BitVec 2) (s : State) : Out :=
  opG o true 1 d (fun w => subSat m (gRead w a) (gRead w b)) s
def execMin (o : Op) (d a : RegNo) (b : Src) (m : BitVec 2) (s : State) : Out :=
  opG o true 1 d (fun w => minW (isU (modOf b m)) (gRead w a) (srcVal w true b)) s
def execMax (o : Op) (d a : RegNo) (b : Src) (m : BitVec 2) (s : State) : Out :=
  opG o true 1 d (fun w => maxW (isU (modOf b m)) (gRead w a) (srcVal w true b)) s
def execSel (o : Op) (d a b : RegNo) (s : State) : Out :=
  opG o true 1 d (fun w => if w.arch.ba then gRead w a else gRead w b) s
def execAbs (o : Op) (d a : RegNo) (s : State) : Out := opG o true 1 d (fun w => absW (gRead w a)) s
def execNot (o : Op) (d a : RegNo) (s : State) : Out := opG o true 1 d (fun w => ~~~ gRead w a) s
def execCnt (o : Op) (d a : RegNo) (s : State) : Out := opG o true 1 d (fun w => toWord (popCount (gRead w a))) s
def execClz (o : Op) (d a : RegNo) (s : State) : Out := opG o true 1 d (fun w => toWord (leadZeros (gRead w a))) s
def execShl (o : Op) (d a : RegNo) (b : Src) (s : State) : Out := opG o true 1 d (fun w => shlW (gRead w a) (srcVal w false b)) s
def execShr (o : Op) (d a : RegNo) (b : Src) (s : State) : Out := opG o true 1 d (fun w => shrW (gRead w a) (srcVal w false b)) s
def execSar (o : Op) (d a : RegNo) (b : Src) (s : State) : Out := opG o true 1 d (fun w => sarW (gRead w a) (srcVal w false b)) s
def execRol (o : Op) (d a : RegNo) (b : Src) (s : State) : Out := opG o true 1 d (fun w => rolW (gRead w a) (srcVal w false b)) s
def execRor (o : Op) (d a : RegNo) (b : Src) (s : State) : Out := opG o true 1 d (fun w => rorW (gRead w a) (srcVal w false b)) s
def execExt (o : Op) (d a : RegNo) (b : Src) (m : BitVec 2) (s : State) : Out :=
  opG o true 1 d (fun w => extW (modOf b m == 1) (gRead w a) (srcVal w false b)) s
def execIns (o : Op) (d a : RegNo) (b : Src) (s : State) : Out :=
  opG o true 1 d (fun w => insW (gRead w d) (gRead w a) (srcVal w false b)) s

/-- EID (Table 03-3): class, region, member index, engine number of the work. -/
def eidWord (w : Work) (e : Nat) : Word := toWord (w.eidCls * 2 ^ 10 + e / 8 * 2 ^ 8 + w.eidMix * 2 ^ 5 + e)

/-- A special register read at instant t (Table 03-2). -/
def Chip.special (c : Chip) (e : Nat) (t : Instant) (sr : Nat) : Word :=
  match c.classOf e with
  | none => if sr = 4 then eidWord (c.work e) e else if sr = 5 then toWord (c.work e).prf else 0
  | some n =>
    let m := match (c.cl n).cycle with
      | some cy => (cy.m, cy.mPair)
      | none => (t, ⟨0, 0⟩)
    match sr with
    | 0 => toWord (c.cy n)
    | 1 => m.2.w0
    | 2 => m.2.w1
    | 3 => toWord (t - m.1)
    | 4 => eidWord (c.work e) e
    | 5 => toWord (c.work e).prf
    | _ => 0

/-- MFS (R79): a number from 6 is an illegal opcode. -/
def execMfs (o : Op) (t : Instant) (d sr : RegNo) (s : State) : Out :=
  s.onChip (fun c => (c.at_ t).issue .a o (decide (sr.toNat < 6)) (fun _ => did (resG d 1 (c.special o.eng.val t sr.toNat))))
def execMov (o : Op) (d : RegNo) (i : BitVec 8) (s : State) : Out := opG o true 1 d (fun w => immVal w true i) s

def execCmpEq (o : Op) (d a : RegNo) (b : Src) (s : State) : Out := opP o true d (fun w => gRead w a == srcVal w true b) s
def execCmpNe (o : Op) (d a : RegNo) (b : Src) (s : State) : Out := opP o true d (fun w => gRead w a != srcVal w true b) s
def execCmpLt (o : Op) (d a : RegNo) (b : Src) (s : State) : Out :=
  opP o true d (fun w => decide ((gRead w a).toInt < (srcVal w true b).toInt)) s
def execCmpLe (o : Op) (d a : RegNo) (b : Src) (s : State) : Out :=
  opP o true d (fun w => decide ((gRead w a).toInt ≤ (srcVal w true b).toInt)) s
def execCmpLtu (o : Op) (d a : RegNo) (b : Src) (s : State) : Out :=
  opP o true d (fun w => decide ((gRead w a).toNat < (srcVal w true b).toNat)) s
def execCmpLeu (o : Op) (d a b : RegNo) (s : State) : Out :=
  opP o true d (fun w => decide ((gRead w a).toNat ≤ (gRead w b).toNat)) s
def execCmpGt (o : Op) (d a : RegNo) (i : BitVec 8) (s : State) : Out :=
  opP o true d (fun w => decide ((immVal w true i).toInt < (gRead w a).toInt)) s
def execCmpGe (o : Op) (d a : RegNo) (i : BitVec 8) (s : State) : Out :=
  opP o true d (fun w => decide ((immVal w true i).toInt ≤ (gRead w a).toInt)) s
def execCmpGtu (o : Op) (d a : RegNo) (i : BitVec 8) (s : State) : Out :=
  opP o true d (fun w => decide ((immVal w true i).toNat < (gRead w a).toNat)) s
def execCmpF (o : Op) (d a b : RegNo) (m : BitVec 2) (s : State) : Out :=
  opP o true d (fun w => fpTest m (fpOf f32 (sRead w a)) (fpOf f32 (sRead w b))) s
def execCmpD (o : Op) (d a b : RegNo) (m : BitVec 2) (s : State) : Out :=
  opP o (pairOk a && pairOk b) d (fun w => fpTest m (fpOf f64 (dRead w a)) (fpOf f64 (dRead w b))) s

def execMul (o : Op) (d a : RegNo) (b : Src) (s : State) : Out := opG o true 3 d (fun w => gRead w a * srcVal w true b) s
def execMulh (o : Op) (d a b : RegNo) (s : State) : Out := opG o true 3 d (fun w => mulHiS (gRead w a) (gRead w b)) s
def execMulhU (o : Op) (d a b : RegNo) (s : State) : Out := opG o true 3 d (fun w => mulHiU (gRead w a) (gRead w b)) s

/-- A divide: a zero divisor is a program fault with the trap on (R123, R124). -/
def opDiv (o : Op) (legal : Bool) (zero : Work → Bool) (res : Work → List Eff) (s : State) : Out :=
  s.onChip (fun c => c.issue .a o legal (fun w =>
    if zero w && divTrap w then .error .divideByZero else did (res w)))

def execDiv (o : Op) (d a b : RegNo) (s : State) : Out :=
  opDiv o true (fun w => gRead w b == 0) (fun w => resG d 24 (divS (gRead w a) (gRead w b))) s
def execDivU (o : Op) (d a b : RegNo) (s : State) : Out :=
  opDiv o true (fun w => gRead w b == 0) (fun w => resG d 24 (divUn (gRead w a) (gRead w b))) s
def execRem (o : Op) (d a b : RegNo) (s : State) : Out :=
  opDiv o true (fun w => gRead w b == 0) (fun w => resG d 24 (remS (gRead w a) (gRead w b))) s
def execRemU (o : Op) (d a b : RegNo) (s : State) : Out :=
  opDiv o true (fun w => gRead w b == 0) (fun w => resG d 24 (remUn (gRead w a) (gRead w b))) s

end Sys2Proof.Machine
end

