-- ==== Sys2Proof/Machine/SlotReal.lean ====
section
/-! DEFINITION. Slot A: single- and double-precision real operations and conversions (R124-R126). -/

namespace Sys2Proof.Machine

/-- A single-precision operation of two operands. -/
def opS (o : Op) (dist : Nat) (d a b : RegNo) (f : Nat → Nat → Nat) (s : State) : Out :=
  s.onChip (fun c => c.issue .a o true (fun w => did (resS d dist (f (sRead w a) (sRead w b)))))
/-- A double-precision operation of two operands, on pairs. -/
def opD (o : Op) (dist : Nat) (d a b : RegNo) (f : Nat → Nat → Nat) (s : State) : Out :=
  s.onChip (fun c => c.issue .a o (pairOk d && pairOk a && pairOk b) (fun w => did (resD d dist (f (dRead w a) (dRead w b)))))

def execFadd (o : Op) (d a b : RegNo) (s : State) : Out := opS o 4 d a b (fun x y => fpAdd f32 (fpOf f32 x) (fpOf f32 y)) s
def execFsub (o : Op) (d a b : RegNo) (s : State) : Out :=
  opS o 4 d a b (fun x y => fpAdd f32 (fpOf f32 x) (fpNeg (fpOf f32 y))) s
def execFmul (o : Op) (d a b : RegNo) (s : State) : Out := opS o 4 d a b (fun x y => fpMul f32 (fpOf f32 x) (fpOf f32 y)) s
def execFdiv (o : Op) (d a b : RegNo) (s : State) : Out :=
  opDiv o true (fun w => fpIsZero (fpOf f32 (sRead w b)))
    (fun w => resS d 24 (fpDiv f32 (fpOf f32 (sRead w a)) (fpOf f32 (sRead w b)))) s
def execFmin (o : Op) (d a b : RegNo) (s : State) : Out := opS o 4 d a b (fpMin f32) s
def execFmax (o : Op) (d a b : RegNo) (s : State) : Out := opS o 4 d a b (fpMax f32) s
def execFabs (o : Op) (d a : RegNo) (s : State) : Out := opS o 4 d a a (fun x _ => fpAbsBits f32 x) s
def execFneg (o : Op) (d a : RegNo) (s : State) : Out := opS o 4 d a a (fun x _ => fpNegBits f32 x) s
def execCvtFi (o : Op) (d a : RegNo) (m : BitVec 2) (s : State) : Out :=
  s.onChip (fun c => c.issue .a o true (fun w => did (resS d 4 (fpOfInt f32 (intOf m (gRead w a))))))
def execCvtIf (o : Op) (d a : RegNo) (m : BitVec 2) (s : State) : Out :=
  opG o true 4 d (fun w => fpToInt m (fpOf f32 (sRead w a))) s

def execDadd (o : Op) (d a b : RegNo) (s : State) : Out := opD o 6 d a b (fun x y => fpAdd f64 (fpOf f64 x) (fpOf f64 y)) s
def execDsub (o : Op) (d a b : RegNo) (s : State) : Out :=
  opD o 6 d a b (fun x y => fpAdd f64 (fpOf f64 x) (fpNeg (fpOf f64 y))) s
def execDmul (o : Op) (d a b : RegNo) (s : State) : Out := opD o 6 d a b (fun x y => fpMul f64 (fpOf f64 x) (fpOf f64 y)) s
def execDdiv (o : Op) (d a b : RegNo) (s : State) : Out :=
  opDiv o (pairOk d && pairOk a && pairOk b) (fun w => fpIsZero (fpOf f64 (dRead w b)))
    (fun w => resD d 24 (fpDiv f64 (fpOf f64 (dRead w a)) (fpOf f64 (dRead w b)))) s
def execDmin (o : Op) (d a b : RegNo) (s : State) : Out := opD o 6 d a b (fpMin f64) s
def execDmax (o : Op) (d a b : RegNo) (s : State) : Out := opD o 6 d a b (fpMax f64) s
def execDabs (o : Op) (d a : RegNo) (s : State) : Out := opD o 6 d a a (fun x _ => fpAbsBits f64 x) s
def execDneg (o : Op) (d a : RegNo) (s : State) : Out := opD o 6 d a a (fun x _ => fpNegBits f64 x) s
def execCvtDi (o : Op) (d a : RegNo) (m : BitVec 2) (s : State) : Out :=
  s.onChip (fun c => c.issue .a o (pairOk d) (fun w => did (resD d 6 (fpOfInt f64 (intOf m (gRead w a))))))
def execCvtId (o : Op) (d a : RegNo) (m : BitVec 2) (s : State) : Out :=
  opG o (pairOk a) 6 d (fun w => fpToInt m (fpOf f64 (dRead w a))) s
def execCvtSd (o : Op) (d a : RegNo) (s : State) : Out :=
  s.onChip (fun c => c.issue .a o (pairOk d) (fun w => did (resD d 6 (fpBits f64 (fpOf f32 (sRead w a))))))
def execCvtDs (o : Op) (d a : RegNo) (s : State) : Out :=
  s.onChip (fun c => c.issue .a o (pairOk a) (fun w => did (resS d 6 (fpBits f32 (fpOf f64 (dRead w a))))))

end Sys2Proof.Machine
end

