-- ==== Sys2Proof/Machine/Profile.lean ====
section
/-! DEFINITION. The profile page of slot A: time pairs in profile E, packed decimal in profile D (R127, R128). -/

namespace Sys2Proof.Machine

/-- An operation of one profile alone is an illegal opcode in the other (Table 03-15). -/
def Chip.issueIn (c : Chip) (sl : Slot) (d : Bool) (o : Op) (legal : Bool) (run : Work → Except ProgFault Did) : Chip :=
  c.issue sl o (legal && (profD (c.work o.eng.val) == d)) run

/-! ### Time pairs (R6, R127) -/

/-- Time pair plus duration: LI, ACC and flags of the pair, NS normalised, clamped at the epoch and at 2^48 − 1 s. -/
def tAdd (p : TimePair) (d : Int) : TimePair :=
  let low := p.w1.toNat % 2 ^ 18 / 16 * 16
  let z : Int := (p.instant : Int) + d
  if z < 0 then ⟨0, toWord low⟩
  else if (2 ^ 48 : Int) * 1000000000 ≤ z then ⟨toWord (2 ^ 48 - 1), toWord (999999999 * 2 ^ 18 + low)⟩
  else TimePair.of z.toNat low
/-- Duration between two time pairs, saturated at ±(2^47 − 1) ns. -/
def tSub (p q : TimePair) : Word :=
  let z : Int := (p.instant : Int) - q.instant
  if z > 2 ^ 47 - 1 then ofIntWord (2 ^ 47 - 1) else if z < -(2 ^ 47 - 1) then ofIntWord (-(2 ^ 47 - 1)) else ofIntWord z
/-- The order of R6: word 0, then NS. -/
def tBefore (p q : TimePair) : Bool := decide (p.w0.toNat < q.w0.toNat ∨ (p.w0 = q.w0 ∧ p.ns < q.ns))
def tSame (p q : TimePair) : Bool := decide (p.w0 = q.w0 ∧ p.ns = q.ns)

def execTadd (o : Op) (d a b : RegNo) (s : State) : Out :=
  s.onChip (fun c => c.issueIn .a false o (pairOk d && pairOk a) (fun w => did (resT d 1 (tAdd (tRead w a) (gRead w b).toInt))))
def execTsub (o : Op) (d a b : RegNo) (s : State) : Out :=
  s.onChip (fun c => c.issueIn .a false o (pairOk a && pairOk b) (fun w => did (resG d 1 (tSub (tRead w a) (tRead w b)))))
def execTcmpLt (o : Op) (d a b : RegNo) (s : State) : Out :=
  s.onChip (fun c => c.issueIn .a false o (pairOk a && pairOk b) (fun w => did (resP d 2 (tBefore (tRead w a) (tRead w b)))))
def execTcmpLe (o : Op) (d a b : RegNo) (s : State) : Out :=
  s.onChip (fun c => c.issueIn .a false o (pairOk a && pairOk b) (fun w => did (resP d 2 (!tBefore (tRead w b) (tRead w a)))))
def execTcmpEq (o : Op) (d a b : RegNo) (s : State) : Out :=
  s.onChip (fun c => c.issueIn .a false o (pairOk a && pairOk b) (fun w => did (resP d 2 (tSame (tRead w a) (tRead w b)))))

/-! ### Packed decimal (R128) -/

/-- The value of a BCD12 word: the sum of nibble k × 10^k, every nibble at its binary value. -/
def bcdVal (w : Word) : Nat := ((List.range 12).map (fun k => (w.toNat >>> (4 * k)) % 16 * 10 ^ k)).sum
/-- The BCD12 word of a number below 10^12. -/
def bcdOf (n : Nat) : Word := toWord ((List.range 12).map (fun k => n / 10 ^ k % 10 * 2 ^ (4 * k))).sum

/-- A decimal operation with one result. -/
def opB (o : Op) (dist : Nat) (d : RegNo) (f : Work → Word) (s : State) : Out :=
  s.onChip (fun c => c.issueIn .a true o true (fun w => did (resG d dist (f w))))

def execBadd (o : Op) (d a b : RegNo) (s : State) : Out :=
  opB o 1 d (fun w => bcdOf ((bcdVal (gRead w a) + bcdVal (gRead w b)) % 10 ^ 12)) s
def execBsub (o : Op) (d a b : RegNo) (s : State) : Out :=
  opB o 1 d (fun w => bcdOf ((((bcdVal (gRead w a) : Int) - bcdVal (gRead w b)) % 10 ^ 12).toNat)) s
def execBcy (o : Op) (d a b : RegNo) (s : State) : Out :=
  s.onChip (fun c => c.issueIn .a true o true (fun w =>
    did (resP d 2 (decide (10 ^ 12 ≤ bcdVal (gRead w a) + bcdVal (gRead w b))))))
def execBbw (o : Op) (d a b : RegNo) (s : State) : Out :=
  s.onChip (fun c => c.issueIn .a true o true (fun w => did (resP d 2 (decide (bcdVal (gRead w a) < bcdVal (gRead w b))))))
def execBdaj (o : Op) (d a : RegNo) (s : State) : Out := opB o 2 d (fun w => bcdOf (bcdVal (gRead w a) % 10 ^ 12)) s
def execB2d (o : Op) (d a : RegNo) (s : State) : Out :=
  opB o 24 d (fun w => if 10 ^ 12 ≤ (gRead w a).toNat then toWord 0x999999999999 else bcdOf (gRead w a).toNat) s
def execD2b (o : Op) (d a : RegNo) (s : State) : Out := opB o 24 d (fun w => toWord (bcdVal (gRead w a))) s

/-- Digit shifts of the value reduced modulo 10^12; 12 or more digits give 0. -/
def digitShl (a k : Word) : Word := if 12 ≤ k.toNat then 0 else bcdOf (bcdVal a % 10 ^ 12 * 10 ^ k.toNat % 10 ^ 12)
def digitShr (a k : Word) : Word := if 12 ≤ k.toNat then 0 else bcdOf (bcdVal a % 10 ^ 12 / 10 ^ k.toNat)
def execBshl (o : Op) (d a : RegNo) (b : Src) (s : State) : Out := opB o 1 d (fun w => digitShl (gRead w a) (srcVal w false b)) s
def execBshr (o : Op) (d a : RegNo) (b : Src) (s : State) : Out := opB o 1 d (fun w => digitShr (gRead w a) (srcVal w false b)) s

end Sys2Proof.Machine
end

