-- ==== Sys2Proof/Machine/SlotM.lean ====
section
/-! DEFINITION. Slot M: loads and stores, I/O words and bits, mailboxes, scheduled output writes (R129-R132). -/

namespace Sys2Proof.Machine

/-- A load: the word at an address of a space of 2^k units, at its distance. -/
def opLoad (o : Op) (k dist : Nat) (d a : RegNo) (b : Src) (rd : Chip → Nat → Word) (s : State) : Out :=
  s.onChip (fun c => c.issue .m o true (fun w => did (resG d dist (rd c (addrOf w k a b)))))

def execLdD (o : Op) (d a : RegNo) (b : Src) (s : State) : Out := opLoad o 15 3 d a b (fun c ad => c.dWord o.eng.val ad) s
def execStD (o : Op) (v a : RegNo) (b : Src) (s : State) : Out :=
  s.onChip (fun c => c.issue .m o true (fun w => did [.dmem (addrOf w 15 a b) (gRead w v)]))
def execLdG (o : Op) (d a : RegNo) (b : Src) (s : State) : Out := opLoad o 20 8 d a b (fun c ad => c.gWord o.eng.val ad) s

/-- A region-window store: outside the class's partition an ownership violation (R93). -/
def Chip.gStore (c : Chip) (e a : Nat) (v : Word) : Except ProgFault Did :=
  match c.classOf e with
  | some n => if inPart (c.cl n) a then did [.gmem a v] else .error .ownership
  | none => .error .ownership

def execStG (o : Op) (v a : RegNo) (b : Src) (s : State) : Out :=
  s.onChip (fun c => c.issue .m o true (fun w => c.gStore o.eng.val (addrOf w 20 a b) (gRead w v)))
def execLdi (o : Op) (d a : RegNo) (b : Src) (s : State) : Out := opLoad o 15 3 d a b (fun c ad => c.iHalf o.eng.val ad) s
def execInW (o : Op) (d a : RegNo) (b : Src) (s : State) : Out := opLoad o 20 4 d a b (fun c ad => c.ioWord o.eng.val ad) s
def execOutW (o : Op) (v a : RegNo) (b : Src) (s : State) : Out :=
  s.onChip (fun c => c.issue .m o true (fun w => storing (c.ioStore o.eng.val (addrOf w 20 a b) (gRead w v))))

/-- A bit address in a register: word and bit of I/O space (R97). -/
def bitAddr (w : Work) (a : RegNo) : Nat × Nat := ((gRead w a).toNat % 2 ^ 26 / 64, (gRead w a).toNat % 64)

/-- A bit index from 48 to 63 reads 0 (R97). -/
def execInB (o : Op) (d a : RegNo) (s : State) : Out :=
  s.onChip (fun c => c.issue .m o true (fun w =>
    let p := bitAddr w a
    did (resG d 4 (if p.2 < 48 ∧ (c.ioWord o.eng.val p.1).getLsbD p.2 = true then 1 else 0))))
/-- A bit index from 48 to 63 writes nothing (R97). -/
def execOutB (o : Op) (v a : RegNo) (s : State) : Out :=
  s.onChip (fun c => c.issue .m o true (fun w =>
    let p := bitAddr w a
    if p.2 < 48 then storing (c.ioStore o.eng.val p.1 (putBit (c.ioWord o.eng.val p.1) p.2 ((gRead w v).getLsbD 0)))
    else did []))

/-- The items of a source that have reached the port and are not in the frozen image. -/
def arrived (k : Cls) (src : ItemSrc) : List Item := k.items.filter (fun i => i.src == src)

/-- The words of a placement as the latest value at the port gives them, where it gives word `i`; of samples it gives the first word (DESIGN
CHOICE, log 121). -/
def Chip.latestWord (c : Chip) (k : Cls) (p : Place) (i : Nat) : Option Word :=
  let its := sortBy (fun (x y : Item) => decide (x.stamp ≤ y.stamp)) (arrived k p.src)
  match its.getLast? with
  | some x => (embedQ p.src (qMin (itemQ x) (c.sourceQ p.src)) (if p.src.isSamples then sampleWords x else x.vals))[i]?
  | none => none

/-- The words of a remote record, or of its age, as the latest record at the port gives them. -/
def Chip.latestRemote (c : Chip) (k : Cls) (x : RemoteMod) (a : Nat) : Option Word :=
  let its := sortBy (fun (x y : Item) => decide (x.stamp ≤ y.stamp)) (arrived k (.remote x.module))
  match its.getLast? with
  | some i =>
    if x.addr ≤ a ∧ a < x.addr + x.words then i.vals[a - x.addr]?
    else if a = x.ageAddr then some (c.pairAt i.stamp).w0
    else if a = x.ageAddr + 1 then some (c.pairAt i.stamp).w1
    else none
  | none => none

/-- A direct read (R130): of an input item the latest value at the port with its quality, where nothing newer is there the frozen one with the
quality that its source has now; for any other word what `in.w` returns. -/
def Chip.directRead (c : Chip) (k : Cls) (a : Nat) : Word :=
  match k.cfg with
  | none => ioRead k a
  | some g =>
    match g.inputs.find? (fun p => decide (p.addr ≤ a) && decide (a < p.addr + placeLen p)) with
    | none => (g.remote.findSome? (fun x => c.latestRemote k x a)).getD (ioRead k a)
    | some p =>
      let q := qMin (NMem.get k.imgQ (baseKey p.addr)) (c.sourceQ p.src)
      let v := (c.latestWord k p (a - p.addr)).getD (if a = p.addr then (embedQ p.src q [ioRead k a]).headD 0 else ioRead k a)
      match p.src with
      | .diRecord _ => if a = p.addr then withCount v (changeCount (arrived k p.src)) else v
      | _ => v

def execInX (o : Op) (d a : RegNo) (i : BitVec 8) (s : State) : Out :=
  s.onChip (fun c => c.issue .m o true (fun w =>
    let v := match c.classOf o.eng.val with
      | some n => c.directRead (c.cl n) (addrOf w 20 a (.imm i))
      | none => 0
    did (resG d 4 v)))

/-- The I/O word that a mailbox operation names: an offset of 14 bits from 0x0_4000 (R131). -/
def boxWord (w : Work) (a : RegNo) (b : Src) : Nat := 0x4000 + addrOf w 14 a b

/-- The mailbox that holds an I/O word, with its producing class. -/
def Chip.boxAt (c : Chip) (a : Nat) : Option (Nat × Mailbox) :=
  (List.range 16).findSome? (fun n => match (c.cl n).cfg with
    | some g => (g.boxes.find? (fun b => decide (b.base ≤ a) && decide (a < b.base + b.words))).map (fun b => (n, b))
    | none => none)

/-- `mbput`: a write like `out.w` that also marks the mailbox. -/
def execMbput (o : Op) (v a : RegNo) (b : Src) (s : State) : Out :=
  s.onChip (fun c => c.issue .m o true (fun w =>
    let ad := boxWord w a b
    match c.ioStore o.eng.val ad (gRead w v) with
    | .ok l => match c.boxAt ad with
      | some (_, x) => did (l ++ [.mbMark (x.base - 0x4000)])
      | none => did l
    | .error f => .error f))
def execMbget (o : Op) (d a : RegNo) (b : Src) (s : State) : Out :=
  s.onChip (fun c => c.issue .m o true (fun w => did (resG d 4 (c.ioWord o.eng.val (boxWord w a b)))))

/-- A mailbox header word (Table 04-15). -/
def boxHeader (cls q : Nat) (fr : Bool) (cy : Nat) : Word := toWord (cls * 2 ^ 44 + q * 2 ^ 40 + bit01 fr * 2 ^ 39 + cy % 2 ^ 39)

/-- The frozen header of a mailbox that lost its class at an activation, found from one of its words (R215). -/
def Chip.orphanHeader (c : Chip) (m a : Nat) : Word :=
  match ((c.regions.flatMap (·.orphans)).find? (fun x => x.addr == a)).bind (·.box) with
  | some b => WMem.get (c.cl m).hdrs b.1
  | none => 0

/-- The header that engine position e reads of the mailbox holding word a: its own mailbox as it stands, another class's as
frozen at the muster, that of a mailbox without a class as Held; a word in no mailbox reads zero. -/
def Chip.headerAt (c : Chip) (e a : Nat) : Word :=
  match c.boxAt a, c.classOf e with
  | some (n, b), some m =>
    if n = m then
      boxHeader n 0 (match (c.cl n).cycle with
        | some cy => cy.marks.contains (b.base - 0x4000)
        | none => false) (c.cy n)
    else WMem.get (c.cl m).hdrs b.base
  | none, some m => c.orphanHeader m a
  | _, _ => 0

def execMbhdr (o : Op) (d a : RegNo) (i : BitVec 8) (s : State) : Out :=
  s.onChip (fun c => c.issue .m o true (fun w => did (resG d 4 (c.headerAt o.eng.val (boxWord w a (.imm i))))))

/-- Whether the descriptor of a scheduled write names an output that the class owns (R132, Table 04-16). -/
def descOwned (k : Cls) (x : Word) : Bool :=
  let knd := fieldOf x.toNat 47 46
  let ch := fieldOf x.toNat 36 32
  match k.cfg with
  | none => false
  | some g =>
    if knd = 0 then decide (ch < 24) && g.doOut.any (fun p => p.1 == ch)
    else if knd = 1 then decide (ch < 4) && g.aoOut.any (fun p => p.1 == ch)
    else false

/-- NS truncated to a multiple of 25 ns (R132). -/
def truncT (p : TimePair) : Instant := p.w0.toNat * 1000000000 + p.ns / 25 * 25

/-- The record of a scheduled write (R132). -/
def schedOf (p : TimePair) (x : Word) (n e : Nat) (m : Instant) : Sched :=
  let ao := fieldOf x.toNat 47 46 == 1
  ⟨truncT p, ao, fieldOf x.toNat 36 32, if ao then fieldOf x.toNat 31 0 else x.toNat % 2, n, e, m⟩

def execSow (o : Op) (a b : RegNo) (s : State) : Out :=
  s.onChip (fun c => c.issue .m o (pairOk a) (fun w =>
    match c.classOf o.eng.val with
    | none => .error .ownership
    | some n =>
      if descOwned (c.cl n) (gRead w b) then
        did [.sched (schedOf (tRead w a) (gRead w b) n o.eng.val (match (c.cl n).cycle with | some cy => cy.m | none => 0))]
      else .error .ownership))

end Sys2Proof.Machine
end

