-- ==== Sys2Proof/Machine/SlotC.lean ====
section
/-! DEFINITION. Slot C: branches, loops, end of cycle, long immediates, events and waits, digit moves; and what comes about
in the region controller: arrival of events, end of timed waits, milestones (R133-R141, R146-R152). -/

namespace Sys2Proof.Machine

/-- A control operation that does one thing to the flow. -/
def flow (ctl : Ctl) : Except ProgFault Did := .ok ⟨[], some ctl⟩

/-- Where a branch or call goes: the bundle named, or bits 13:0 of a register (R133). -/
def targetOf (w : Work) : Target → Nat
  | .bundle t => t.toNat
  | .reg a => (gRead w a).toNat % 2 ^ 14

def execBr (o : Op) (t : Target) (s : State) : Out :=
  s.onChip (fun c => c.issueCtl o (some (.branch none)) (fun w => flow (.branch (some (targetOf w t)))))
def execCall (o : Op) (t : Target) (s : State) : Out :=
  s.onChip (fun c => c.issueCtl o (some (.callTo none)) (fun w => flow (.callTo (some (targetOf w t)))))
def execRet (o : Op) (s : State) : Out :=
  s.onChip (fun c => c.issueCtl o (some (.retTo false)) (fun _ => flow (.retTo true)))

/-- The iteration count of a loop (Table 04-17). -/
def countOf (w : Work) : LoopCount → Nat
  | .count k => k.toNat
  | .reg a => (gRead w a).toNat

def execLoop (o : Op) (t : BitVec 14) (k : LoopCount) (s : State) : Out :=
  s.onChip (fun c => c.issueCtl o none (fun w => flow (.loopTo t.toNat (countOf w k))))
def execEoc (o : Op) (t : Instant) (s : State) : Out :=
  s.onChip (fun c => (c.at_ t).issueCtl o none (fun _ => flow (.endCycle t)))
def execRcl (o : Op) (s : State) : Out := s.onChip (fun c => c.issue .c o true (fun _ => did [.rcl]))
def execCnf (o : Op) (s : State) : Out := s.onChip (fun c => c.issue .c o true (fun _ => did [.cnf]))

/-- IMM (R89, R90): no guard; every form I operation of slots A and M of the bundle takes X:IMM8. In a delay bundle it is an illegal opcode, as R103
lists it, though R90 says that an `imm` never faults (DEDUCED, log 138). -/
def execImm (e : Fin 32) (last sx : Bool) (x : BitVec 28) (s : State) : Out :=
  s.onChip (fun c => c.issueAs e.val .c last (fun w =>
    if w.delay = 0 then { w with bundle := { w.bundle with imm := some (sx, x) } }
    else { w with bundle := { w.bundle with fault := some .illegalOpcode } }))

/-- The event that a destination field names: its low 4 bits (R136). -/
def eventNo (d : RegNo) : Nat := d.toNat % 16

def execWfe (o : Op) (d : RegNo) (s : State) : Out :=
  s.onChip (fun c => c.issueIn .c false o true (fun _ => flow (.waitEvent (eventNo d))))
def execSev (o : Op) (t : Instant) (d : RegNo) (mask : BitVec 8) (s : State) : Out :=
  s.onChip (fun c => (c.at_ t).issueIn .c false o true (fun _ => did [.sev t (eventNo d) mask.toNat]))
def execClev (o : Op) (d : RegNo) (s : State) : Out :=
  s.onChip (fun c => c.issueIn .c false o true (fun _ => did [.clev (eventNo d)]))

/-- Nanoseconds since the muster of the cycle that engine position e executes. -/
def Chip.tkAt (c : Chip) (e : Nat) (t : Instant) : Int :=
  match c.classOf e with
  | some n => match (c.cl n).cycle with
    | some cy => (t : Int) - cy.m
    | none => 0
  | none => 0

/-- WTU: hold until TK ≥ Ga + imm, both taken as signed numbers of ns (log 16). -/
def execWtu (o : Op) (t : Instant) (a : RegNo) (i : BitVec 8) (s : State) : Out :=
  s.onChip (fun c => (c.at_ t).issueIn .c false o true (fun w =>
    flow (.waitTk ((gRead w a).toInt + i.toInt) (c.tkAt o.eng.val t))))

/-- Digits of a moved into d: n digits from digit p of a to digit q of d, none beyond digit 11 (R141). -/
def digitMove (d a : Word) (p q n : Nat) : Word :=
  let k := min n (min (12 - p) (12 - q))
  if k = 0 then d
  else toWord (setFieldOf d.toNat (4 * (q + k) - 1) (4 * q) (a.toNat >>> (4 * p)))

def execDmv (o : Op) (d a b : RegNo) (s : State) : Out :=
  s.onChip (fun c => c.issueIn .c true o true (fun w =>
    let x := (gRead w b).toNat
    did (resG d 1 (digitMove (gRead w d) (gRead w a) (fieldOf x 3 0) (fieldOf x 7 4) (fieldOf x 11 8)))))

/-! ### Region controller -/

/-- An event reaches a member: a member held on it goes on, the flag consumed; otherwise the flag is set (R138). -/
def eventIn (w : Work) (ev : Nat) : Work :=
  if w.run = .waitEvent ev then addUndo { w with run := .issuing } (.consumed ev)
  else { w with flags := NMem.set w.flags ev 1 }

/-- EVENT_ARRIVAL: event k of those under way reaches its target, at or after 8 ns from its `sev` (R138). -/
def execEventArrival (t : Instant) (k : Nat) (s : State) : Out :=
  s.onChip (fun c =>
    match c.evFlight[k]? with
    | some f =>
      if f.at_ ≤ t then
        { (c.at_ t).modWork f.target (fun w => eventIn w f.event) with evFlight := c.evFlight.eraseIdx k }
      else c
    | none => c)

/-- WTU_WAIT_END: TK has reached the operand; issue resumes (R106). -/
def execWtuWaitEnd (t : Instant) (e : Fin 32) (s : State) : Out :=
  s.onChip (fun c =>
    match (c.work e.val).run with
    | .waitTk tk => if tk ≤ c.tkAt e.val t then (c.at_ t).modWork e.val (fun w => { w with run := .issuing }) else c
    | _ => c)

/-- A milestone of a work is due (R147). -/
def Chip.milestoneDue (c : Chip) (e : Nat) : Bool :=
  let w := c.work e
  decide (c.rd 0x2300 (0x01 + e / 8) ≤ w.sinceMs + 256) || decide (7160 ≤ w.undo.length)

/-- The bundle that issued last is a milestone point that the image marks, and a check point (R143, R146). -/
def Chip.atMarkedPoint (c : Chip) (e : Nat) : Bool := match (c.region (e / 8)).image, (c.work e).ended with
  | some im, some b => im.points.any (fun p => p.1 == e && p.2.contains b) &&
      im.checks.any (fun p => p.1 == e && p.2.any (fun q => q.1 == b))
  | _, _ => false

/-- A bundle boundary at which nothing is in flight, no store is incomplete and no delay bundle is open (R146). -/
def atMilestonePoint (w : Work) : Bool :=
  w.flights == [] && w.delay == 0 && w.bundle == emptyBundle &&
    (match w.lastGst with
      | some i => decide (i + 8 ≤ w.issued)
      | none => true)

/-- Scheduled writes of this cycle that a work recorded (SWN, Table 05-2). -/
def Chip.schedBy (c : Chip) (e : Nat) : Nat :=
  match c.classOf e with
  | some n => match (c.cl n).cycle with
    | some cy => (cy.sched.filter (fun x => x.work == e)).length
    | none => 0
  | none => 0

/-- MILESTONE (R146-R148): the architectural state goes into the next ledger slot, the undo buffer starts afresh. -/
def execMilestone (t : Instant) (e : Fin 32) (s : State) : Out :=
  s.onChip (fun c =>
    let w := c.work e.val
    if w.run = .issuing ∧ c.milestoneDue e.val = true ∧ atMilestonePoint w = true ∧ c.atMarkedPoint e.val = true then
      let swn := c.schedBy e.val
      let c := (c.at_ t).modWork e.val (fun w =>
        { writeSlot w ⟨w.arch, w.issued, swn, false, 0⟩ with undo := [], sinceMs := 0 })
      c.bump 0x2300 0x07
    else c)

end Sys2Proof.Machine
end

