-- ==== Sys2Proof/Machine/Field.lean ====
section
/-! DEFINITION. The commands of the field die (09). -/

namespace Sys2Proof.Machine

/-! ### Supplies, reset and rediscovery (R258-R260, R440) -/

/-- Event code of a supply condition (Table 09-10). -/
def supplyCode (s2 missing : Bool) : Nat := 0x0901 + supplyBit s2 missing
/-- Severity of a supply condition. -/
def supplySev (missing : Bool) : Nat := if missing then sevMajor else sevMinor

/-- "Missing" is set: the bits that the masked detections drive clear (R258). -/
def Chip.maskOutputs (c : Chip) (s2 : Bool) : Chip :=
  let c := c.forAll ((List.range 24).filter (fun n => doSupply n == s2)) (fun c n =>
    ((c.modField (fun f => { f with live := NMem.set f.live n (NMem.get f.live n &&& 0xC27) })).modDo n
      (fun x => { x with pinOff := false })).syncDo n)
  c.forAll ((List.range 4).filter (fun o => aoSupply o == s2)) (fun c o =>
    (c.setAo o aoCPL false).modAo o (fun x => { x with cpl := false, cplAt := c.now, delivered := 0, changedAt := c.now }))

/-- "Missing" clears: the outputs resume their levels and currents; detection stays masked for 10 ms. -/
def Chip.resumeOutputs (c : Chip) (s2 : Bool) : Chip :=
  let c := c.modField (fun f => if s2 then { f with mask2 := c.now + 10000000 } else { f with mask1 := c.now + 10000000 })
  let c := c.forAll ((List.range 24).filter (fun n => doSupply n == s2)) (fun c n => c.syncDo n)
  c.forAll ((List.range 4).filter (fun o => aoSupply o == s2)) (fun c o =>
    c.modAo o (fun x => { x with delivered := x.applied, changedAt := c.now }))

/-- FIELD_SUPPLY_CHANGE at the end of the 1 ms filter of a condition (R258). -/
def execFieldSupplyChange (t : Instant) (s2 missing set : Bool) (s : State) : Host.Outcome State Fault Refusal :=
  s.onChip (fun c =>
    if c.fieldAlive = true ∧ c.bit 0x2800 0x02 (supplyBit s2 missing) ≠ set then
      let c := ((c.at_ t).setBit 0x2800 0x02 (supplyBit s2 missing) set)
      let c := if missing then (if set then c.maskOutputs s2 else c.resumeOutputs s2) else c
      let c := c.notify (supplyCode s2 missing) (supplySev missing) (bit01 s2) (!set) []
      let c := c.pushSupply t
      c.forAll ((List.range 48).filter (fun d => diSupply d == s2)) (fun c d => c.pushRecord d t)
    else c)

/-- Output commands of sealed cycles that the core has queued toward the die: owned outputs whose level or word differs from
the last dispatched, or is owed a delivery. -/
def Chip.queuedCommands (c : Chip) : Nat :=
  ((List.range 16).map (fun n =>
    let k := c.cl n
    match k.cfg, k.cycle with
    | some g, some cy =>
      if cy.sealed then
        (g.doOut.filter (fun p => c.field.deliver.testBit p.1 || (c.doc p.1).lastDisp != some ((ioWorking k p.2.1).getLsbD p.2.2))).length +
          (g.aoOut.filter (fun p =>
            let w := (ioWorking k p.2).toNat
            c.field.deliver.testBit (24 + p.1) || (c.aoch p.1).lastDisp != some (fieldOf w 31 0, fieldOf w 47 44))).length
      else 0
    | _, _ => 0)).sum

/-- FIELD_DIE_RESET (R259, R409): every output off, what is queued or held is lost and counted, the crossing is closed until the
rediscovery, every item Invalid until it is fresh again; PD14 goes off with its supplies (Table 15-2). -/
def execFieldDieReset (t : Instant) (s : State) : Host.Outcome State Fault Refusal :=
  s.onChip (fun c =>
    if c.fieldAlive then
      let c := c.at_ t
      let lost := c.field.sched.length + c.queuedCommands
      let c := c.bumpBy 0x2800 0x06 lost
      let c := c.forAll ((List.range 4).filter (fun o => (c.aoch o).alarm)) (fun c o => c.notify 0x0921 sevMinor o true [])
      let c := (c.bump 0x2800 0x04).notify 0x0905 sevMajor 0 false []
      let c := c.modField (fun f => { f with
        inReset := true, linkUp := false, live := [], resetAt := some t, supplyValid := false, statusValid := false, failing := false, sched := [], events := [],
        di := f.di.map (fun x => { x with run := none, count := 0, resetDue := none, fT0 := none, fN := 0, lastRise := none,
                                          valid := false, fValid := false, lats := [] })
        dos := f.dos.map (fun x => { x with applied := false, pulse := none, pendSafe := none, shut := [],
                                            thermal := false, switched := t, pinOff := false })
        ai := f.ai.map (fun x => { x with valid := false, convs := [] })
        ao := f.ao.map (fun x => { x with applied := 0, delivered := 0, changedAt := t, cpl := false, cplAt := t,
                                          alarm := false, readback := 0 }) })
      let c := (c.setBit 0x2800 0x02 4 true).modPower (fun p => { p with domains := p.domains &&& 0xBFFF#16 })
      if c.fieldRuns then c.wr 0x2800 0x01 1 else c
    else c)

/-- FIELD_DIE_RESET_END (R259): a supply is back, and with it PD14 (Table 15-2). -/
def execFieldDieResetEnd (t : Instant) (s : State) : Host.Outcome State Fault Refusal :=
  s.onChip (fun c =>
    if c.field.inReset then
      ((c.at_ t).modField (fun f => { f with inReset := false, lastRefresh := t })).modPower (fun p => { p with domains := p.domains ||| 0x4000#16 })
    else c)

/-- FIELD_DIE_REDISCOVERED (R259, R260, R409): the die runs again, the crossing opens, and every output is owed a delivery. -/
def execFieldDieRediscovered (t : Instant) (s : State) : Host.Outcome State Fault Refusal :=
  s.onChip (fun c =>
    if c.field.inReset = false ∧ c.rd 0x2800 0x01 = 1 then
      (((c.at_ t).modField (fun f => { f with discAt := t, linkUp := true, lastRefresh := t, deliver := allOutputs })).wr 0x2800 0x01 2).releaseNotes
    else c)

/-! ### Digital inputs (R262-R266) -/

/-- The run of a level different from the accepted one has lasted the debounce time by t: the level is accepted (R262). -/
def Chip.acceptDue (c : Chip) (d : Nat) (t : Instant) : Chip :=
  let x := c.di d
  match x.run with
  | some e =>
    let acc := e + c.rd (0x2810 + d) 0x01 * 1000
    if c.fieldAlive = true ∧ x.raw ≠ x.level ∧ acc ≤ t then (c.at_ t).acceptLevel d e acc else c
  | none => c

/-- DI_EDGE: a filtered edge, stamped at the ball and truncated to 25 ns (log 21). With debounce off it is accepted at once;
otherwise it starts a stable run. Raw edges count and time the frequency. -/
def execDiEdge (t : Instant) (d : Fin 48) (level : Bool) (s : State) : Host.Outcome State Fault Refusal :=
  s.onChip (fun c =>
    if c.fieldAlive = true ∧ (c.di d.val).raw ≠ level then
      let e := t / 25 * 25
      let c := (c.acceptDue d.val t).at_ t
      let c := c.modDi d.val (fun x => { x with raw := level, run := some e })
      let c := c.countEdge d.val true level
      let c := if level ∧ 0 < c.gateNs d.val then
          let c := c.freqEnd d.val
          c.modDi d.val (fun x => match x.fT0 with
            | none => { x with fT0 := some e, fN := 0, lastRise := some e }
            | some _ => { x with fN := x.fN + 1, lastRise := some e })
        else c
      if c.rd (0x2810 + d.val) 0x01 = 0 then
        (if (c.di d.val).level ≠ level then c.acceptLevel d.val e e else c.modDi d.val (fun x => { x with run := none }))
      else c
    else c)

/-- DI_ACCEPT: the run of a level different from the accepted one has lasted the debounce time (R262). -/
def execDiAccept (t : Instant) (d : Fin 48) (s : State) : Host.Outcome State Fault Refusal := s.onChip (fun c => c.acceptDue d.val t)

/-- CHANGE_RECORD_READ: the record with the changes since the previous read of this entry on any path (R263). -/
def execChangeRecordRead (m : Msg) (d : Fin 48) (s : State) : Host.Outcome State Fault Refusal :=
  s.onChip (fun c => c.readOwn m (0x2810 + d.val) 0x08 0 18 (fun c => (c.modDi d.val (fun x => { x with readCnt := x.changes }), c.changeRecord d.val)))

/-- What one input latches at a tick boundary: counter reset due, counter, frequency, freshness (R259, R264, R265). -/
def Chip.latchDi (c : Chip) (d : Nat) (t : Instant) : Chip :=
  let c := match (c.di d).resetDue with
    | some r => if r ≤ t then c.modDi d (fun x => { x with count := 0, resetDue := none }) else c
    | none => c
  let x := c.di d
  let l : Instant × Nat × BitVec 32 × Nat := (t, x.count, x.freqVal, x.freqQ)
  let fresh := c.field.linkUp && c.fieldRuns && decide (c.field.discAt < t)
  let c := c.modDi d (fun x => { x with lats := x.lats.drop (x.lats.length - 1) ++ [l], valid := x.valid || fresh })
  if c.field.linkUp then c.pushLatch d l else c

/-- The DO status word with its quality (Table 09-7). -/
def Chip.doStatusWord (c : Chip) (n : Nat) : Word :=
  toWord (c.supplyQc (doSupply n) false * 2 ^ 44 + fieldOf (NMem.get c.field.live n) 11 0)

/-- The AO status word with its quality and the readback of the last conversion (R276). -/
def Chip.aoStatusWord (c : Chip) (o : Nat) : Word :=
  toWord (c.supplyQc (aoSupply o) true * 2 ^ 44 + fieldOf (NMem.get c.field.live (24 + o)) 43 41 * 2 ^ 41 + (c.aoch o).readback % 2 ^ 32)

/-- The readback conversion that ends at a whole millisecond: the current delivered, or a free reading where it changed
within the millisecond (log 8). -/
def Chip.convertAo (c : Chip) (o : Nat) (t : Instant) : Chip :=
  if t % 1000000 = 0 then
    if (c.aoch o).changedAt + 1000000 ≤ t then c.modAo o (fun x => { x with readback := x.delivered })
    else (c.modAo o (fun x => { x with readback := Config.freeReading c.free % 2 ^ 32 })).draw
  else c

/-- FIELD_TICK_LATCH (R264, R265, R270, R276): at a tick boundary the die latches counters, frequencies and status words. -/
def execFieldTickLatch (t : Instant) (s : State) : Host.Outcome State Fault Refusal :=
  s.onChip (fun c =>
    if isTick t = true ∧ c.fieldAlive = true then
      let c := c.at_ t
      let c := c.forAll (List.range 48) (fun c d => c.latchDi d t)
      let c := c.forAll (List.range 4) (fun c o => c.convertAo o t)
      if c.field.linkUp then
        let c := c.forAll (List.range 24) (fun c n =>
          let w := c.doStatusWord n
          let c := c.wr (0x2840 + n) 0x06 w.toNat
          if h : n < 24 then c.pushItem ⟨.doStatus ⟨n, h⟩, t, [w], fieldOf w.toNat 47 44, false⟩ else c)
        let c := c.forAll (List.range 4) (fun c o =>
          let w := c.aoStatusWord o
          let c := c.wr (0x2868 + o) 0x05 w.toNat
          if h : o < 4 then c.pushItem ⟨.aoStatus ⟨o, h⟩, t, [w], fieldOf w.toNat 47 44, false⟩ else c)
        let c := c.modField (fun f => { f with statusValid := f.statusValid || (c.fieldRuns && decide (f.discAt < t)) })
        if c.fieldRuns = true ∧ c.field.supplyValid = false ∧ c.field.discAt + 1000000 ≤ t then
          (c.modField (fun f => { f with supplyValid := true })).pushSupply (c.field.discAt + 1000000)
        else c
      else c
    else c)

/-- COUNTER_RESET: the counter is set to 0 at the tick boundary of R257 (R264). -/
def execCounterReset (a : Acc) (d : Fin 48) (v : Nat) (s : State) : Host.Outcome State Fault Refusal :=
  s.onChip (fun c => c.writeNum a (0x2810 + d.val) 0x04 v (fun c _ =>
    .ok (c.modDi d.val (fun x => { x with resetDue := some (settingTick a.t) }))))

/-- FREQUENCY_MEASUREMENT_END (R265). -/
def execFrequencyMeasurementEnd (t : Instant) (d : Fin 48) (s : State) : Host.Outcome State Fault Refusal :=
  s.onChip (fun c => if c.fieldAlive = true ∧ c.freqDue d.val = true then (c.at_ t).freqEnd d.val else c)

/-- FREQUENCY_TIMEOUT: no rising edge for 110 s; the value is 0 Hz (R265). -/
def execFrequencyTimeout (t : Instant) (d : Fin 48) (s : State) : Host.Outcome State Fault Refusal :=
  s.onChip (fun c =>
    if c.fieldAlive = true ∧ 0 < c.gateNs d.val ∧ ((c.di d.val).lastRise.getD c.field.discAt) + 110000000000 ≤ t then
      (c.at_ t).modDi d.val (fun x => { x with
        freqVal := 0, freqQ := 0, fT0 := none, fN := 0, fValid := x.fValid || c.fieldRuns })
    else c)

/-! ### Digital outputs (R269-R271) -/

/-- PULSE_END (R269). -/
def execPulseEnd (t : Instant) (n : Fin 24) (s : State) : Host.Outcome State Fault Refusal :=
  s.onChip (fun c => match (c.doc n.val).pulse with
    | some e => if e ≤ t then (c.at_ t).endPulse n.val else c
    | none => c)

/-- The switch of an output conducts. -/
def Chip.conducts (c : Chip) (n : Nat) : Bool := (c.doc n).applied && !(c.doc n).thermal && !c.doBit n stLAT
/-- Detection on an output works: the die lives and its supply is not masked (R258). -/
def Chip.detects (c : Chip) (n : Nat) : Bool := c.fieldAlive && !c.masked (doSupply n)

/-- DO_CURRENT_LIMIT: SHT (R270). -/
def execDoCurrentLimit (t : Instant) (n : Fin 24) (s : State) : Host.Outcome State Fault Refusal :=
  s.onChip (fun c =>
    let c' := c.at_ t
    if c'.detects n.val = true ∧ c'.conducts n.val = true then c'.diagDo n.val stSHT 0x0910 sevMinor else c)

/-- DO_THERMAL_SHUTDOWN: the switch turns off; the third within 1 s latches it (R270). -/
def execDoThermalShutdown (t : Instant) (n : Fin 24) (s : State) : Host.Outcome State Fault Refusal :=
  s.onChip (fun c =>
    let c' := c.at_ t
    if c'.fieldAlive = true ∧ c'.conducts n.val = true then
      let c' := c'.modDo n.val (fun x => { x with
        thermal := true, switched := t, shut := (x.shut.filter (fun u => decide (t < u + 1000000000))) ++ [t] })
      let c' := c'.diagDo n.val stTHS 0x0911 sevMajor
      let c' := if 3 ≤ (c'.doc n.val).shut.length then c'.diagDo n.val stLAT 0x0911 sevMajor else c'
      c'.syncDo n.val
    else c)

/-- DO_THERMAL_RECOVERY: cooled by 15 °C, the switch turns on again unless latched off (R270). -/
def execDoThermalRecovery (t : Instant) (n : Fin 24) (s : State) : Host.Outcome State Fault Refusal :=
  s.onChip (fun c =>
    if (c.doc n.val).thermal then ((c.at_ t).modDo n.val (fun x => { x with thermal := false, switched := t })).syncDo n.val else c)

/-- DO_OVERLOAD: OVL (R270). -/
def execDoOverload (t : Instant) (n : Fin 24) (s : State) : Host.Outcome State Fault Refusal :=
  s.onChip (fun c =>
    let c' := c.at_ t
    if c'.detects n.val = true ∧ c'.conducts n.val = true then c'.setDo n.val stOVL true else c)

/-- DO_GROUP_CURRENT: GRP on every output of the group of 12 (R270). -/
def execDoGroupCurrent (t : Instant) (upper : Bool) (s : State) : Host.Outcome State Fault Refusal :=
  s.onChip (fun c =>
    let c' := c.at_ t
    if c'.fieldAlive = true ∧ c'.masked upper = false then
      c'.forAll ((List.range 24).filter (fun n => doSupply n == upper)) (fun c n => c.diagDo n stGRP 0x0914 sevMinor)
    else c)

/-- Pair-parallel mode of an output (R271). -/
def Chip.pairParallel (c : Chip) (n : Nat) : Bool := c.rd (0x2840 + n) 0x05 == 1

/-- A pin held high while the output is commanded off, in pair-parallel mode (R271). -/
def Chip.heldHigh (c : Chip) (n : Nat) : Chip :=
  ((c.modDo n (fun x => { x with pinOff := true })).setDo n stEXT true).syncDo n

/-- DO_OPEN_LOAD: OPN while off; EXT in its place in pair-parallel mode (R270, R271). -/
def execDoOpenLoad (t : Instant) (n : Fin 24) (s : State) : Host.Outcome State Fault Refusal :=
  s.onChip (fun c =>
    let c' := c.at_ t
    if c'.detects n.val = true ∧ (c'.doc n.val).applied = false then
      if c'.pairParallel n.val then c'.heldHigh n.val else c'.diagDo n.val stOPN 0x0912 sevMinor
    else c)

/-- DO_READBACK_MISMATCH: no earlier than 2 ms after a switching command; EXT in its place for a pin held high in
pair-parallel mode (R270, R271). -/
def execDoReadbackMismatch (t : Instant) (n : Fin 24) (s : State) : Host.Outcome State Fault Refusal :=
  s.onChip (fun c =>
    let c' := c.at_ t
    if c'.detects n.val = true ∧ (c'.doc n.val).switched + 2000000 ≤ t then
      if c'.pairParallel n.val = true ∧ (c'.doc n.val).applied = false then c'.heldHigh n.val
      else ((c'.modDo n.val (fun x => { x with pinOff := true })).diagDo n.val stMIS 0x0913 sevMajor).syncDo n.val
    else c)

/-- DO_DIAGNOSTIC_CLEAR: a diagnostic bit whose condition has been gone for 10 ms clears; THS not before the switch has cooled (R270). -/
def execDoDiagnosticClear (t : Instant) (n : Fin 24) (bit : Fin 12) (s : State) : Host.Outcome State Fault Refusal :=
  s.onChip (fun c =>
    if stGRP ≤ bit.val ∧ bit.val ≤ stEXT ∧ c.doBit n.val bit.val = true ∧ (bit.val = stTHS → (c.doc n.val).thermal = false) then
      let c := (c.at_ t).setDo n.val bit.val false
      let c := if bit.val = stMIS ∨ bit.val = stEXT then c.modDo n.val (fun x => { x with pinOff := false }) else c
      c.syncDo n.val
    else c)

/-- LATCH_RESET: a write to 0x2840+n.08 clears the latch at the tick boundary of R257. -/
def execLatchReset (a : Acc) (n : Fin 24) (v : Nat) (s : State) : Host.Outcome State Fault Refusal :=
  s.onChip (fun c => c.writeNum a (0x2840 + n.val) 0x08 v (fun c _ =>
    .ok (c.modField (fun f => { f with pendSet := f.pendSet ++ [(0x2840 + n.val, 0x08, v, settingTick a.t)] }))))

/-! ### Loop inputs (R273-R275) -/

/-- The reading limited to 0-25 mA (R273). -/
def limitNa (z : Int) : Nat := if z < 0 then 0 else if 25000000 < z then 25000000 else z.toNat

/-- The corrected current: 4 mA + span × (raw + zero − 4 mA), limited (R273, R274). -/
def Chip.corrected (c : Chip) (a : Nat) (raw : Int) : Nat :=
  limitNa (4000000 + real32Times (BitVec.ofNat 32 (c.rd (0x2860 + a) 0x03))
    ((limitNa raw : Int) + (c.rdw (0x2860 + a) 0x02).toInt - 4000000))

/-- NES and QC of a corrected current (Table 09-8). -/
def ne43 (i : Nat) (fault : Bool) : Nat × Nat :=
  if fault then (5, 2)
  else if i ≤ 3600000 then (3, 2)
  else if i < 3800000 then (1, 1)
  else if i ≤ 20500000 then (0, 0)
  else if i < 21000000 then (2, 1)
  else (4, 2)

/-- The event of a failure NES (Table 09-8). -/
def nesEvent (nes : Nat) : Nat := if nes = 3 then 0x0930 else if nes = 4 then 0x0931 else 0x0932

/-- One conversion as the failure events of a channel see it: a failure starts its event at once; an event ends after 100 ms
without its failure (R274). -/
def Chip.failAi (c : Chip) (a : Nat) (nes : Nat) : Chip :=
  let failed := 3 ≤ nes
  let old := (c.aich a).fails
  let kept := (old.map (fun p => if p.1 = nes then (p.1, 0) else (p.1, p.2 + 1)))
  let ended := kept.filter (fun p => decide (100 ≤ p.2))
  let live := kept.filter (fun p => decide (p.2 < 100))
  let starts := failed ∧ ¬ old.any (fun p => p.1 == nes)
  let c := c.modAi a (fun x => { x with fails := if starts then live ++ [(nes, 0)] else live })
  let c := c.forAll (ended.map (·.1)) (fun c k => c.notify (nesEvent k) sevMinor a true [])
  if starts then (c.bump (0x2860 + a) 0x06).notify (nesEvent nes) sevMinor a false [] else c

/-- The AI word (R274). -/
def aiWord (qc nes i : Nat) : Word := toWord (qc * 2 ^ 44 + nes * 2 ^ 41 + i)

/-- AI_CONVERSION: the conversion that ends at a whole millisecond (R274). `supplyLimit` says that the channel's loop supply
is in current limit. -/
def execAiConversion (t : Instant) (ch : Fin 8) (raw : Int) (supplyLimit : Bool) (s : State) : Host.Outcome State Fault Refusal :=
  s.onChip (fun c =>
    if t % 1000000 = 0 ∧ c.fieldAlive = true then
      let c := c.at_ t
      let a := ch.val
      let i := c.corrected a raw
      let rawMode := c.rd (0x2860 + a) 0x07 = 1
      let nq := if rawMode then (0, if 24000000 < limitNa raw then 1 else 0) else ne43 i supplyLimit
      let test := match (c.aich a).trim with
        | some (_, b, _) => if b < t then 3 else 0
        | none => 0
      let qc := qMin (qMin nq.2 (c.supplyQc (aiSupply a) false)) test
      let w := aiWord qc nq.1 i
      let c := c.modAi a (fun x => { x with
        word := w, qc := qc, convs := x.convs.drop (x.convs.length - 1) ++ [(t, w, qc)],
        valid := x.valid || (c.fieldRuns && decide (c.field.discAt + 1000000 ≤ t)),
        trim := x.trim.map (fun q => if q.2.1 + 1000000 < t ∧ q.2.2.1.length < 16 then
          (q.1, q.2.1, q.2.2.1 ++ [(limitNa raw : Int)], q.2.2.2) else q) })
      let c := c.failAi a nq.1
      if c.field.linkUp then c.pushConversion a (t, w, qc) else c
    else c)

/-- A trim operation is accepted for a channel (R275): it begins at the tick boundary of R257. -/
def Chip.beginTrim (c : Chip) (a act : Nat) (t : Instant) (org csn : Nat) : Chip :=
  c.modAi a (fun x => { x with trim := some (act, settingTick t, [], org, csn) })

def execZeroTrim (a : Acc) (ch : Fin 8) (s : State) : Host.Outcome State Fault Refusal :=
  s.onChip (fun c => c.writeNum a (0x2860 + ch.val) 0x04 1 (fun c w => .ok (c.beginTrim ch.val 1 a.t w.org w.csn)))
def execSpanTrim (a : Acc) (ch : Fin 8) (s : State) : Host.Outcome State Fault Refusal :=
  s.onChip (fun c => c.writeNum a (0x2860 + ch.val) 0x04 2 (fun c w => .ok (c.beginTrim ch.val 2 a.t w.org w.csn)))
def execClearTrims (a : Acc) (ch : Fin 8) (s : State) : Host.Outcome State Fault Refusal :=
  s.onChip (fun c => c.writeNum a (0x2860 + ch.val) 0x04 3 (fun c w => .ok (c.beginTrim ch.val 3 a.t w.org w.csn)))

/-- The trims that an action computes from the sum of 16 raw conversions, or none out of range (R275). -/
def Chip.trimResult (c : Chip) (a act : Nat) (sum : Int) : Option (Int × BitVec 32) :=
  let zero := (c.rdw (0x2860 + a) 0x02).toInt
  let span := BitVec.ofNat 32 (c.rd (0x2860 + a) 0x03)
  match act with
  | 1 =>
    let num : Int := 64000000 - sum
    if -3200000 ≤ num ∧ num ≤ 3200000 then some (wholeOf num 16, span) else none
  | 2 =>
    let den : Int := sum + 16 * zero - 64000000
    if 0 < den ∧ 98 * den ≤ 25600000000 ∧ 25600000000 ≤ 102 * den then some (zero, ratReal32 256000000 den.toNat) else none
  | _ => some (0, 0x3F800000)

/-- TRIM_COMPLETE: the trim is put in force with an audit record, or leaves the trims unchanged with a minor event (R275). -/
def execTrimComplete (t : Instant) (ch : Fin 8) (s : State) : Host.Outcome State Fault Refusal :=
  s.onChip (fun c =>
    let a := ch.val
    match (c.aich a).trim with
    | some (act, b, raws, org, csn) =>
      if b ≤ t ∧ (act = 3 ∨ 16 ≤ raws.length) then
        let c := (c.at_ t).modAi a (fun x => { x with trim := none })
        match c.trimResult a act raws.sum with
        | some (z, sp) =>
          ((c.wr (0x2860 + a) 0x02 (ofIntWord z).toNat).wr (0x2860 + a) 0x03 sp.toNat).eventAs t 0x0934 sevAudit false 5 a org csn []
        | none => c.eventAs t 0x0933 sevMinor false 5 a org csn []
      else c
    | none => c)

/-! ### Loop outputs (R277, R278) -/

/-- A change of the compliance flag crosses as a status word with its own stamp (R277, R279). -/
def Chip.complianceAo (c : Chip) (o : Nat) (t : Instant) (cpl : Bool) (delivered : Nat) : Chip :=
  let c := (c.modAo o (fun x => { x with cpl := cpl, cplAt := t, delivered := delivered, changedAt := t })).setAo o aoCPL cpl
  if h : o < 4 then c.pushField ⟨.aoStatus ⟨o, h⟩, t, [c.aoStatusWord o], c.supplyQc (aoSupply o) true, false⟩ else c

/-- AO_COMPLIANCE_LIMIT: the stage is at its limit, short of the command; CPL is set (R277). -/
def execAoComplianceLimit (t : Instant) (o : Fin 4) (delivered : Nat) (s : State) : Host.Outcome State Fault Refusal :=
  s.onChip (fun c =>
    let c' := c.at_ t
    let x := c.aoch o.val
    if c'.fieldAlive = true ∧ c'.masked (aoSupply o.val) = false ∧ x.cpl = false ∧ delivered < x.applied then
      c'.complianceAo o.val t true delivered
    else c)

/-- AO_SHORTFALL_PERSIST: 100 ms of shortfall; event 0x0920 starts (R277). -/
def execAoShortfallPersist (t : Instant) (o : Fin 4) (s : State) : Host.Outcome State Fault Refusal :=
  s.onChip (fun c =>
    let x := c.aoch o.val
    if x.cpl = true ∧ x.short = false ∧ x.cplAt + 100000000 ≤ t then
      (((c.at_ t).modAo o.val (fun x => { x with short := true })).bump (0x2868 + o.val) 0x06).notify 0x0920 sevMinor o.val false []
    else c)

/-- AO_COMPLIANCE_CLEAR: the stage has left its limit with the current within 20 µA of the command (R277). -/
def execAoComplianceClear (t : Instant) (o : Fin 4) (delivered : Nat) (s : State) : Host.Outcome State Fault Refusal :=
  s.onChip (fun c =>
    let x := c.aoch o.val
    if x.cpl = true ∧ delivered ≤ x.applied + 20000 ∧ x.applied ≤ delivered + 20000 then
      (c.at_ t).complianceAo o.val t false delivered
    else c)

/-- AO_SHORTFALL_END: CPL clear for 100 ms; event 0x0920 ends (R277). -/
def execAoShortfallEnd (t : Instant) (o : Fin 4) (s : State) : Host.Outcome State Fault Refusal :=
  s.onChip (fun c =>
    let x := c.aoch o.val
    if x.short = true ∧ x.cpl = false ∧ x.cplAt + 100000000 ≤ t then
      ((c.at_ t).modAo o.val (fun x => { x with short := false })).notify 0x0920 sevMinor o.val true []
    else c)

/-- AO_REFRESH_TIMEOUT: a pair-parallel output goes to 0 mA 150 µs after the last refresh (R278). -/
def execAoRefreshTimeout (t : Instant) (o : Fin 4) (s : State) : Host.Outcome State Fault Refusal :=
  s.onChip (fun c =>
    if c.fieldAlive = true ∧ c.rd (0x2868 + o.val) 0x04 = 1 ∧ c.field.lastRefresh + 150000 ≤ t then
      ((c.at_ t).driveAo o.val 0 false).modField (fun f => { f with deliver := setFieldOf f.deliver (24 + o.val) (24 + o.val) 1 })
    else c)

/-! ### Refresh and fail action (R280) -/

/-- FIELD_REFRESH at a tick boundary while the field port is not fenced; it ends a fail action (R260, R280). -/
def execFieldRefresh (t : Instant) (s : State) : Host.Outcome State Fault Refusal :=
  s.onChip (fun c =>
    if isTick t = true ∧ c.fieldRuns = true ∧ c.field.linkUp = true ∧ c.field.inReset = false then
      let c := (c.at_ t).modField (fun f => { f with lastRefresh := t })
      if c.field.failing then
        let c := c.modField (fun f => { f with failing := false, deliver := allOutputs })
        let c := c.forAll (List.range 24) (fun c n => c.setDo n stFLA false)
        c.forAll (List.range 4) (fun c o => c.setAo o aoFLA false)
      else c
    else c)

/-- FAIL_ACTION: 2 ms without a refresh (R280). -/
def execFailAction (t : Instant) (s : State) : Host.Outcome State Fault Refusal :=
  s.onChip (fun c =>
    if c.fieldAlive = true ∧ c.field.failing = false ∧ c.field.lastRefresh + 2000000 ≤ t then
      (c.at_ t).failOutputs
    else c)

/-- The write of a held scheduled write: a DO level, or an AO current with QC Good (R132, R268, R276). -/
def Chip.applySched (c : Chip) (x : Sched) : Chip :=
  if x.ao then (if c.field.failing then c else c.levelAo x.ch x.val 0) else c.levelDo x.ch (x.val % 2 == 1)

/-- SCHEDULED_WRITE_APPLY: the die applies what it holds at its time T, in time order; at one instant a later cycle prevails
(R58, R59, R268). -/
def execScheduledWriteApply (t : Instant) (s : State) : Host.Outcome State Fault Refusal :=
  s.onChip (fun c =>
    if c.fieldAlive then
      let due := sortBy (fun x y => decide (x.t < y.t ∨ (x.t = y.t ∧ x.m ≤ y.m)))
        (c.field.sched.filter (fun x => decide (x.t ≤ t)))
      match due with
      | [] => c
      | _ =>
        let c := (c.at_ t).modField (fun f => { f with sched := f.sched.filter (fun x => decide (t < x.t)) })
        due.foldl (fun c x => c.applySched x) c
    else c)

/-! ### Settings (R257) -/

/-- The value of an entry as last accepted, in force or not. -/
def Chip.latestSet (c : Chip) (ix sub : Nat) : Nat :=
  match (c.field.pendSet.filter (fun p => p.1 == ix && p.2.1 == sub)).getLast? with
  | some p => p.2.2.1
  | none => c.rd ix sub

/-- Field configuration entries: the rw entries of Tables 09-11 to 09-15. -/
def isFieldCfg (ix sub : Nat) : Bool :=
  decide (0x2800 ≤ ix ∧ ix ≤ 0x286B) && (match entryOf ix sub with
    | some e => e.acc == .rw
    | none => false)

/-- Inputs that measure frequency, as last accepted. -/
def Chip.freqInputs (c : Chip) : Nat := ((List.range 48).filter (fun d => c.latestSet (0x2810 + d) 0x05 != 0)).length

/-- Whether a field configuration write is refused in state: mode, pulse length or pair-parallel mode of an output whose
owner runs (R257), a 17th frequency input (R265), hold and pair-parallel mode of an AO together (R278). -/
def Chip.fieldRefused (c : Chip) (ix sub v : Nat) : Bool :=
  if 0x2840 ≤ ix ∧ ix < 0x2858 then (sub == 1 || sub == 2 || sub == 5) && c.busyClass (c.ownerDo (ix - 0x2840))
  else if 0x2868 ≤ ix ∧ ix < 0x286C then
    (sub == 4 && (c.busyClass (c.ownerAo (ix - 0x2868)) || (v == 1 && c.latestSet ix 0x02 == 1))) ||
      (sub == 2 && v == 1 && c.latestSet ix 0x04 == 1)
  else if 0x2810 ≤ ix ∧ ix < 0x2840 then
    sub == 5 && v != 0 && c.latestSet ix 0x05 == 0 && decide (16 ≤ c.freqInputs)
  else false

/-- The effect of a field configuration write: stored, in force at the tick boundary of R257. -/
def Chip.fieldCfg (c : Chip) (t : Instant) (ix sub v len : Nat) : Except Nat Chip :=
  if c.fieldRefused ix sub v then .error abState
  else c.stored ix sub (beBytes v len) (fun c =>
    c.modField (fun f => { f with pendSet := f.pendSet ++ [(ix, sub, v &&& regMask ix sub, settingTick t)] }))

/-- FIELD_CONFIG_WRITE. -/
def execFieldConfigWrite (a : Acc) (ix sub v : Nat) (s : State) : Host.Outcome State Fault Refusal :=
  s.onChip (fun c =>
    if isFieldCfg ix sub then c.writeNum a ix sub v (fun c _ => c.fieldCfg a.t ix sub v a.len) else c)

/-- Trim mode: entered through 0x2800.09 or while TRIM_N is low (R275, 0x2800.08). -/
def Chip.syncTrim (c : Chip) : Chip :=
  let low := c.bit 0x2E00 0x0B 7
  c.wr 0x2800 0x08 (bit01 (low || c.bit 0x2800 0x09 0) + 2 * bit01 low)

end Sys2Proof.Machine
end

