-- ==== Sys2Proof/Machine/Net.lean ====
section
/-! DEFINITION. Station networks, CAN and time (10). -/

namespace Sys2Proof.Machine

/-! ### Units -/

def Chip.ethp (c : Chip) (p : Nat) : EthPort := nth EthPort.reset c.net.eth p
def Chip.modEth (c : Chip) (p : Nat) (f : EthPort → EthPort) : Chip := c.modNet (fun n => { n with eth := modNth EthPort.reset f n.eth p })
def Chip.modCan (c : Chip) (k : Nat) (f : CanPort → CanPort) : Chip := c.modNet (fun n => { n with can := modNth CanPort.reset f n.can k })

/-! ### Ethernet ports (R283-R289) -/

/-- Whether port p belongs to a redundant bus. -/
def Chip.redundant (c : Chip) (p : Nat) : Bool := if 2 ≤ p then !c.net.prOff else !c.net.stAlone

/-- The slave port of a doubly attached clock: the first port of the time-source bus whose path stands; the other one is passive (Table 10-5). -/
def Chip.choosePath (c : Chip) : Chip :=
  let p := (busPorts (c.rd 0x2A00 0x0E == 1)).find? (fun p => c.portOn p && !c.bit (0x2910 + p) 0x03 6)
  c.modTb (fun b => { b with slave := if b.gm.isSome then p else none })

/-- A LAN is reported lost (R286, R287): bit 6 of the link status and event 0x0A03; a clock whose slave port it was takes the other one. -/
def Chip.pathLost (c : Chip) (p : Nat) : Chip :=
  if c.bit (0x2910 + p) 0x03 6 then c
  else
    let c := (c.setBit (0x2910 + p) 0x03 6 true).event 0x0A03 sevMinor 7 p []
    if c.net.tb.slave = some p then c.choosePath else c

/-- ETHERNET_LINK_CHANGE (R283, R286, R313): a redundant port at 10 Mb/s or half duplex is held link-down, and where its link was up the LAN is
lost. `speed` is 0 for 10, 1 for 100, 2 for 1 000 Mb/s. -/
def execEthernetLinkChange (t : Instant) (p : Fin 4) (up : Bool) (speed : Fin 3) (full master : Bool) (abilities : Nat)
    (s : State) : Host.Outcome State Fault Refusal :=
  s.onChip (fun c =>
    let c := c.at_ t
    let ix := 0x2910 + p.val
    let lost := c.redundant p.val && c.bit ix 0x03 0
    if up then
      let bad := c.redundant p.val && (speed.val == 0 || !full)
      let st := (if bad then 2 ^ 5 + (c.rd ix 0x03 &&& 2 ^ 6) else 1) + speed.val * 2 + bit01 full * 8 + bit01 master * 16
      let c := ((c.wr ix 0x03 st).wr ix 0x04 (abilities % 2 ^ 32)).modEth p.val (fun e => { e with lastSup := t })
      if bad then
        let c := c.event 0x0A01 sevMinor 7 p.val []
        if lost then c.pathLost p.val else c
      else c
    else
      let c := c.wr ix 0x03 (c.rd ix 0x03 &&& 2 ^ 6)
      if lost then c.pathLost p.val else c)

/-- The entry forget time in nanoseconds (0x2900.0C). -/
def Chip.forgetNs (c : Chip) : Nat := c.rd 0x2900 0x0C * 1000000

/-- Whether a port has seen a source and sequence number within the forget time. -/
def Chip.seenOn (c : Chip) (p src seq : Nat) (t : Instant) : Bool :=
  (c.ethp p).seen.any (fun q => q.1 == src && q.2.1 == seq && decide (t ≤ q.2.2 + c.forgetNs))

/-- Remember a frame on a port, older entries forgotten. -/
def Chip.markSeen (c : Chip) (p src seq : Nat) (t : Instant) : Chip :=
  c.modEth p (fun e => { e with
    seen := (e.seen.filter (fun q => decide (t ≤ q.2.2 + c.forgetNs))) ++ [(src, seq, t)] })

/-- The other port of a bus. -/
def otherPort (p : Nat) : Nat := if p % 2 = 0 then p + 1 else p - 1

/-- The own address of the bus of a port (0x2900.04, .05). -/
def ownMac (p : Nat) : Nat := if 2 ≤ p then Config.ownProcess else Config.ownStation
/-- The pair publication address in force of the bus of a port. -/
def Chip.pubMac (c : Chip) (p : Nat) : Nat := if 2 ≤ p then c.net.pubP else c.net.pubS

/-- The bit of Table 01-12 of the port that carries the traffic of Ethernet port p: its own, or that of the SerDes port that replaced it. -/
def Chip.ethBit (c : Chip) (p : Nat) : Nat := if nth 0 c.net.serdes p = 0 then 4 + p else 7 + nth 0 c.net.serdes p

/-- One more frame of a remote module's record, through port p of Table 01-12, valid at t (R51): frames come in order from the first; the last
one completes the record, whose stamp it gives. A reserved code is taken as Invalid and counted (R10). -/
def Chip.takeRecord (c : Chip) (p : Nat) (t : Instant) (r : RecPart) : Chip :=
  let old := match c.net.recs.find? (fun x => x.module == r.module) with
    | some x => x.parts
    | none => []
  let parts := if r.part = 0 then [r] else if old.length = r.part ∧ old.all (fun x => x.parts == r.parts) = true then old ++ [r] else []
  let rest := c.net.recs.filter (fun x => x.module != r.module)
  if parts.length = r.parts then
    let c := (c.modNet (fun n => { n with recs := rest })).bumpBy 0x2600 0x0A (parts.filter (fun x => decide (6 < x.qc))).length
    c.pushFrom p ⟨.remote r.module, t, parts.flatMap (·.words), qMins (parts.map (fun x => qIn x.qc)), false⟩
  else c.modNet (fun n => { n with recs := if parts = [] then rest else rest ++ [⟨r.module, parts⟩] })

/-- A frame is for this node: to its own address, to its pair publication address, or to a group (R287). -/
def Chip.addressed (c : Chip) (p dst : Nat) : Bool := dst.testBit 40 || dst == ownMac p || dst == c.pubMac p

/-- The next hop of a reply to an IPv4 address: the address itself within the own network, else the gateway (0x2900.09, .0A). -/
def Chip.nextHop (c : Chip) (ip : Nat) : Nat :=
  let w := c.net.ip
  if ip &&& w.2.1 = w.1 &&& w.2.1 then ip else w.2.2

/-- What a received frame does once it is no duplicate; one for another node does nothing here. LLDP keeps the neighbour, supervision restarts the path, frames of
R314 are discarded, ARP and ICMP echo requests for the station address are answered and peer-delay requests too (R289, R302); GOOSE, sampled
values, PTP and dictionary messages come with commands of their own. -/
def Chip.takeFrame (c : Chip) (p : Nat) (t : Instant) (f : EthFrame) : Chip :=
  let mine (ip : Nat) : Bool := decide (p < 2) && ip != 0 && ip == c.net.ip.1
  if c.addressed p f.dst then
    match f.kind with
    | .lldp tlvs => c.modEth p (fun e => { e with neighbour := tlvs.take 512 })
    | .supervision n => (c.modEth p (fun e => { e with
        lastSup := t, nodes := if e.nodes.contains n then e.nodes else e.nodes ++ [n] })).setBit (0x2910 + p) 0x03 6 false
    | .notInDevice => c.bump (0x2910 + p) 0x0A
    | .dictionary => if 2 ≤ p then c.bump (0x2910 + p) 0x0A else c
    | .arp ip => if 2 ≤ p then c.bump (0x2910 + p) 0x0A else if mine ip then c.emitOwn false (busPorts false) (.arpReply f.src) else c
    | .icmpEcho ip src => if 2 ≤ p then c.bump (0x2910 + p) 0x0A else if mine ip then
        c.emitOwn false (busPorts false) (.echoReply f.src (c.nextHop src)) else c
    | .pdelayReq => c.emitOwn (decide (2 ≤ p)) [p] (.pdelayResp p f.src)
    | .remote r => c.takeRecord (c.ethBit p) t r
    | _ => c
  else c

/-- Whether a kind stays on its link: LLDP and peer-delay messages are never forwarded. -/
def isLocal : EthKind → Bool
  | .lldp _ | .pdelayReq => true
  | _ => false
/-- A PTP event message that the transparent clock corrects as it forwards it (R287, R298). -/
def isEvent : EthKind → Bool
  | .ptpEvent => true
  | _ => false

/-- Forward a frame to the other ring port; to a PTP event the peer-to-peer transparent clock adds its residence time and the delay of the link it
came by, whose sum is free (R287). -/
def Chip.forwardFrame (c : Chip) (p : Nat) (f : EthFrame) : Chip :=
  let q := otherPort p
  if isEvent f.kind then (c.emit [q] (.forward q (some (Config.freeWord c.free).toNat) f)).draw else c.emit [q] (.forward q none f)

/-- ETHERNET_FRAME_RECEIVED (R285-R289, R314): an FCS error is discarded; duplicates of a redundant bus are discarded by
source and sequence number; an HSR port forwards what is for others and removes what is its own. -/
def execEthernetFrameReceived (t : Instant) (p : Fin 4) (f : EthFrame) (s : State) : Host.Outcome State Fault Refusal :=
  s.onChip (fun c =>
    if c.portOn p.val then
      let c := (c.at_ t).sendMessages
      let t := portStamp t
      let ix := 0x2910 + p.val
      if f.fcsOk then
        let c := (c.bump ix 0x08).modEth p.val (fun e => { e with rxStamp := t })
        match f.tag with
        | none => c.takeFrame p.val t f
        | some (seq, lan) =>
          if c.redundant p.val then
            let hsr := decide (2 ≤ p.val)
            let own := hsr && (f.src == ownMac p.val || f.src == c.pubMac p.val)
            if own then c
            else
              let c := if hsr = false ∧ lan ≠ (if p.val = 0 then 0xA else 0xB) then c.bump ix 0x0C else c
              let here := c.seenOn p.val f.src seq t
              let there := c.seenOn (otherPort p.val) f.src seq t
              let c := c.markSeen p.val f.src seq t
              let c := if hsr && !here && !isLocal f.kind && f.dst != ownMac p.val then
                  c.forwardFrame p.val f else c
              if here || there then c.bump ix 0x0B else c.takeFrame p.val t f
          else c.takeFrame p.val t f
      else c.bump ix 0x0A
    else c)

/-- PRP_SUPERVISION_TRANSMIT: every 2 000 ms from the own address while the station bus is redundant (R286, R288). -/
def execPrpSupervisionTransmit (t : Instant) (s : State) : Host.Outcome State Fault Refusal :=
  s.onChip (fun c =>
    let due := match c.net.supAt with
      | some u => decide (u + 2000000000 ≤ t)
      | none => true
    if due = true ∧ c.net.stAlone = false then
      ((c.at_ t).sendMessages.modNet (fun n => { n with supAt := some t })).emitOwn false (busPorts false) (.supervision false)
    else c)

/-- A node of the bus of port p is known by its supervision frames (R286). -/
def Chip.nodeKnown (c : Chip) (p : Nat) : Bool := !(c.ethp p).nodes.isEmpty || !(c.ethp (otherPort p)).nodes.isEmpty

/-- PRP_PATH_LOSS: no supervision frame of a known node for 3 intervals on a port whose link is up (R286). -/
def execPrpPathLoss (t : Instant) (p : Fin 4) (s : State) : Host.Outcome State Fault Refusal :=
  s.onChip (fun c =>
    if c.portOn p.val = true ∧ c.redundant p.val = true ∧ c.nodeKnown p.val = true ∧ (c.ethp p.val).lastSup + 6000000000 ≤ t then
      (c.at_ t).pathLost p.val
    else c)

/-- LLDP_TRANSMIT: every 30 s on a port (R289). -/
def execLldpTransmit (t : Instant) (p : Fin 4) (s : State) : Host.Outcome State Fault Refusal :=
  s.onChip (fun c =>
    let due := match (c.ethp p.val).lldpAt with
      | some u => decide (u + 30000000000 ≤ t)
      | none => true
    if due = true ∧ c.portOn p.val = true then
      ((c.at_ t).sendMessages.modEth p.val (fun e => { e with lldpAt := some t })).emitOwn (decide (2 ≤ p.val)) [p.val] (.lldp p.val)
    else c)

/-! ### GOOSE (R290-R293) -/

/-- Error bound in nanoseconds of an ACC code; none for 0xFE and codes without one. -/
def accBound (acc : Nat) : Option Nat := (accuracyCodes.find? (fun p => p.2 == acc)).map (·.1)

/-- The accuracy field: the fraction bits whose resolution is coarser than the error bound, or 31 (R290). -/
def gooseAccuracy (acc : Nat) : Nat := match accBound acc with
  | some b => ((List.range 30).filter (fun k => decide (b * 2 ^ (k + 1) < 1000000000))).length
  | none => 31

/-- The T field of a frame from the time pair of its dispatch and the UTC offset (R290). -/
def gooseTime (off : Int) (p : TimePair) : GooseTime :=
  let w := p.w1.toNat
  let syn := w.testBit 7
  ⟨((p.instant : Int) - off * 1000000000).toNat, fieldOf w 17 16 != 3, !syn && !w.testBit 6, !syn, gooseAccuracy (fieldOf w 15 8)⟩

/-- The VLAN tag of publications (0x2900.0B). -/
def Chip.pubTag (c : Chip) : Nat := c.rd 0x2900 0x0B

/-- Send one frame of a dataset on its buses, `tal` ns to live; each bus has its own sequence number. The T field of a repetition is converted
with the UTC offset at its emission (DESIGN CHOICE, log 131). -/
def Chip.gooseSend (c : Chip) (ds tal : Nat) (x : GooseTx) (g : GooseCfg) : Chip :=
  let one (c : Chip) (b : Bool) : Chip :=
    let q := c.nextPubSeq b
    q.2.emit (busPorts b) (.goose (if b then c.net.pubP else c.net.pubS) c.pubTag ds x.stNum x.sqNum tal
      (gooseTime (c.rdw 0x2A00 0x0D).toInt x.tPair) x.test false x.vals b q.1)
  let c := if g.station then one c false else c
  if g.process then one c true else c

/-- Tmin and Tmax in nanoseconds (0x2900.14, .15). -/
def Chip.tMin (c : Chip) : Nat := c.rd 0x2900 0x14 * 1000000
def Chip.tMax (c : Chip) : Nat := c.rd 0x2900 0x15 * 1000000

/-- stNum advances modulo 2^32, wrapping to 1 (R290). -/
def nextSt (n : Nat) : Nat := if n + 1 < 2 ^ 32 then n + 1 else 1
/-- sqNum wraps from 2^32 − 1 to 1 (R290). -/
def nextSq (n : Nat) : Nat := if n + 1 < 2 ^ 32 then n + 1 else 1

/-- A dispatch of the owning class at D, as one dataset sees it (R290): a changed member advances stNum and starts a new
schedule. -/
def Chip.gooseAt (c : Chip) (i : Nat) (read : Nat → Word) (d : TimePair) : Chip :=
  match c.net.tx[i]? with
  | some x =>
    match x.cfg with
    | some g =>
      let vals := g.members.map read
      if x.stNum ≠ 0 ∧ x.vals = vals then c
      else
        let test := match g.testBit with
          | some (a, b) => (read a).getLsbD b
          | none => false
        let x := { x with stNum := nextSt x.stNum, sqNum := 0, vals := vals, test := test, tPair := d,
                          interval := c.tMin, nextAt := some (d.instant + c.tMin) }
        (c.modNet (fun n => { n with tx := upd (fun _ => x) n.tx i })).gooseSend g.num (2 * c.tMin) x g
    | none => c
  | none => c

/-- All datasets of a class, in ascending dataset number (R291). -/
def Chip.goosePublish (c : Chip) (n : Nat) (read : Nat → Word) (d : TimePair) : Chip :=
  let mine := (List.range c.net.tx.length).filter (fun i => match c.net.tx[i]? with
    | some x => (match x.cfg with
      | some g => g.cls == n
      | none => false)
    | none => false)
  mine.foldl (fun c i => c.gooseAt i read d) c

/-- Whether the chip emits publications: alone or active, or the standby in hot shadow (Tables 06-4, 06-6). -/
def Chip.emitsPub (c : Chip) : Bool := c.acts || c.pairState == psStandbyReady

/-- A dispatch of class n at or before u is still to come, or its frames wait for the partner's hash: it may change the dataset (R290, R291). -/
def Chip.dispatchAhead (c : Chip) (n : Nat) (u : Instant) : Bool :=
  c.pair.heldFrames.any (fun p => p.2 == n && decide (p.1.instant ≤ u)) || match (c.cl n).cycle with
  | some cy => decide (cy.d ≤ u) && (match cy.eocAt with
    | some e => decide (e + 4000 ≤ cy.d)
    | none => false)
  | none => false

/-- GOOSE_REPETITION: the frame due is sent, sqNum advances, the interval doubles up to Tmax; at the instant of a dispatch of the owner that
dispatch comes first (R290). -/
def execGooseRepetition (t : Instant) (ds : Fin 64) (s : State) : Host.Outcome State Fault Refusal :=
  s.onChip (fun c =>
    match c.net.tx.findIdx? (fun x => match x.cfg with
      | some g => g.num == ds.val
      | none => false) with
    | none => c
    | some i =>
      match c.net.tx[i]? with
      | none => c
      | some x =>
        match x.cfg, x.nextAt with
        | some g, some u =>
          if u ≤ t ∧ c.emitsPub = true ∧ c.dispatchAhead g.cls u = false then
            let c := c.at_ t
            let iv := min (2 * x.interval) c.tMax
            let x := { x with sqNum := nextSq x.sqNum, interval := iv, nextAt := some (u + iv) }
            (c.modNet (fun n => { n with tx := upd (fun _ => x) n.tx i })).gooseSend g.num (2 * iv) x g
          else c
        | _, _ => c)

def Chip.modSub (c : Chip) (k : Nat) (f : GooseSt → GooseSt) : Chip := c.modNet (fun n => { n with subs := modNth GooseSt.reset f n.subs k })

/-- The items of a subscription go toward the regions through port p of Table 01-12 with a quality from the table, each with the lower-ranked of
it and its own attribute (R293). -/
def Chip.pushGoose (c : Chip) (p k : Nat) (stamp : Instant) (q : Nat) : Chip :=
  let x := c.goosub k
  (x.vals.zipIdx).foldl (fun c v =>
    let qc := qMin q (qIn (nth 0 x.quals v.2))
    c.pushFrom p ⟨.goose k v.2, stamp, [v.1], qc, false⟩) c

/-- The subscription whose filter a frame meets: destination address, APPID and gocbRef (R292). -/
def Chip.subOf (c : Chip) (f : GooseRx) : Option Nat := c.net.subs.findIdx? (fun x => match x.cfg with
  | some g => g.dst == f.dst && g.appId == f.appId && g.cbRef == f.cbRef
  | none => false)

/-- Whether (stNum, sqNum) comes after the last accepted pair, or is a publisher's restart (R292). -/
def gooseAfter (st sq st' sq' : Nat) : Bool :=
  let d := (st' + 2 ^ 32 - st) % 2 ^ 32
  (decide (0 < d) && decide (d < 2 ^ 31)) || (d == 0 && decide (sq < sq')) || (st' == 1 && sq' == 0)

/-- GOOSE_FRAME: a GOOSE frame from port p with its port stamp, after duplicates are removed; the filter discards one that meets no subscription (R292, R293, Table
10-3). An accepted frame brings its numbers to the classes (Table 02-1); reserved codes among its quality attributes are counted in 0x2600.0A, as no chapter names a counter for them
(R10; DESIGN CHOICE, log 132). -/
def execGooseFrame (t : Instant) (p : Fin 4) (f : GooseRx) (s : State) : Host.Outcome State Fault Refusal :=
  s.onChip (fun c =>
    match c.portOn p.val, c.subOf f with
    | true, some k =>
      let x := c.goosub k
      let bit := c.ethBit p.val
      (match x.cfg with
      | none => c
      | some g =>
        let c := c.at_ t
        let t := portStamp t
        if f.sim && !g.sim then c
        else if x.any && !gooseAfter x.stNum x.sqNum f.stNum f.sqNum then c.bump 0x2900 0x13
        else
          let jump := (f.stNum + 2 ^ 32 - x.stNum) % 2 ^ 32
          let missed := x.any && decide (1 < jump) && !(f.stNum == 1 && f.sqNum == 0)
          let c := if missed then c.bump 0x2900 0x17 else c
          let fresh := !x.any || f.stNum != x.stNum
          let c := c.modSub k (fun y => { y with stNum := f.stNum, sqNum := f.sqNum, any := true, expiry := some (t + f.tal * 1000000) })
          let c := c.pushFrom bit ⟨.gooseNums k, t, [toWord f.stNum, toWord f.sqNum], 0, false⟩
          if f.ndsCom || f.confRev != g.confRev then
            ((c.bump 0x2900 0x12).modSub k (fun y => { y with state := 4 })).pushGoose bit k t 2
          else if fresh || x.state != 2 then
            let c := c.bumpBy 0x2600 0x0A (f.quals.filter (fun q => decide (6 < q))).length
            (c.modSub k (fun y => if fresh || x.state != 3 then { y with state := 2, vals := f.vals, quals := f.quals }
              else { y with state := 2 })).pushGoose bit k t (if f.test then 3 else 0)
          else c)
    | _, _ => c)

/-- GOOSE_TAL_EXPIRY: no accepted frame within timeAllowedToLive; the items are Stale from the expiry (R293). -/
def execGooseTalExpiry (t : Instant) (sub : Fin 256) (s : State) : Host.Outcome State Fault Refusal :=
  s.onChip (fun c =>
    match (c.goosub sub.val).expiry with
    | some e =>
      if e ≤ t then
        ((c.at_ t).modSub sub.val (fun y => { y with expiry := none, state := 3 })).pushGoose 16 sub.val e 5
      else c
    | none => c)

/-! ### The timebase (R295-R302) -/

/-- Any class in state 2 or 3 of Table 02-12 (R297). -/
def Chip.anyBusy (c : Chip) : Bool := (List.range 16).any (fun n => decide (c.clState n = csRunning ∨ c.clState n = csRestarting))
/-- Any class that has started: it has dispatched, or runs (R297). -/
def Chip.anyStarted (c : Chip) : Bool := c.anyBusy || c.cls.any (·.everDisp)

/-- Set the timebase state. -/
def Chip.setTb (c : Chip) (st : Nat) : Chip := c.wr 0x2A00 0x01 st

/-- The timebase leaves Free-running or Holdover for Acquiring, or starts over. -/
def Chip.acquire (c : Chip) : Chip := (c.setTb 1).modTb (fun b => { b with goodSync := 0, badSync := 0 })

/-- The timebase enters holdover at t (R296): counted in 0x2A00.12. -/
def Chip.holdover (c : Chip) (t : Instant) : Chip := ((c.setTb 3).bump 0x2A00 0x12).modTb (fun b => { b with holdAt := t })

/-- The rate of slew stays within the limit of 0x2A00.10, in 10⁻⁹ (R297). -/
def Chip.slewLimited (c : Chip) (r : Int) : Int :=
  let m : Int := c.rd 0x2A00 0x10 * 1000
  if m < r then m else if r < -m then -m else r

/-- Step the timebase to the grandmaster's instant. -/
def Chip.stepTo (c : Chip) (master : Instant) : Chip := (c.at_ master).modTb (fun b => { b with stepReq := false })

/-- PTP_SYNC: `offset` to the grandmaster in ns, mean path delay, and the grandmaster's instant (R296, R297, R302). -/
def execPtpSync (t : Instant) (offset : Int) (pathDelay : Nat) (master : Instant) (s : State) : Host.Outcome State Fault Refusal :=
  s.onChip (fun c =>
    match c.net.tb.gm with
    | none => c
    | some _ =>
      let c := (((c.at_ t).wr 0x2A00 0x03 (ofIntWord offset).toNat).wr 0x2A00 0x11 pathDelay)
      let st := c.rd 0x2A00 0x01
      if st = 4 then c
      else
        let c := if c.net.tb.stepReq && !c.anyBusy then c.stepTo master else c
        let good := decide (offset.natAbs ≤ 1000)
        let c := c.modTb (fun b => { b with
          goodSync := if good then b.goodSync + 1 else 0, badSync := if good then 0 else b.badSync + 1,
          acc := accuracyOf (Config.servoError c.free), slew := c.slewLimited (Config.servoRate c.free) })
        let c := c.draw
        if st = 2 then (if 16 ≤ c.net.tb.badSync then c.acquire else c)
        else if st = 1 ∧ 16 ≤ c.net.tb.goodSync then
          let first := !c.net.tb.firstLock
          let c := (c.setTb 2).modTb (fun b => { b with firstLock := true })
          if first && !c.anyStarted then c.stepTo master else c
        else c)

/-- The order of best master selection: priority1, clockClass, accuracy, variance, priority2, identity (R298: the algorithm of
the selected profile; log 11). -/
def betterThan (a b : Announce) : Bool :=
  let ka := [a.priority1, a.clockClass, a.accuracy, a.variance, a.priority2, a.identity]
  let kb := [b.priority1, b.clockClass, b.accuracy, b.variance, b.priority2, b.identity]
  match (ka.zip kb).find? (fun p => p.1 != p.2) with
  | some p => decide (p.1 < p.2)
  | none => false

/-- The device's own data set as a master-capable clock: clockClass 248 while free-running, 187 in holdover (Table 10-5). -/
def Chip.ownAnnounce (c : Chip) : Announce :=
  ⟨Config.ownStation, c.rd 0x2A00 0x0A, c.rd 0x2A00 0x08, if c.rd 0x2A00 0x01 = 3 then 187 else 248,
    0xFE, 0xFFFF, c.rd 0x2A00 0x09, 0, 0, false, false, false⟩

/-- The best of the candidates, or none where the device itself is better (clock type 1). -/
def Chip.bestMaster (c : Chip) (l : List Announce) : Option Announce :=
  match l with
  | [] => none
  | a :: r =>
    let b := r.foldl (fun x y => if betterThan y x then y else x) a
    if c.rd 0x2A00 0x07 = 1 ∧ betterThan c.ownAnnounce b = true then none else some b

/-- The end of the UTC day of an instant, in station time: the day by the old offset, its end by the new one. -/
def dayEnd (t : Instant) (off new : Int) : Instant :=
  let utc := (t : Int) / 1000000000 - off
  ((utc / 86400 + 1) * 86400 + new).toNat * 1000000000

/-- Take the selected grandmaster over (R296, R298, R301): identity, steps, leap flags; an announced change of the UTC offset
waits for the end of the UTC day, and one no longer announced is dropped (log 30). -/
def Chip.takeMaster (c : Chip) (t : Instant) (g : Option Announce) : Chip :=
  let old := c.net.tb.gm.map (·.identity)
  let c := c.modTb (fun b => { b with gm := g })
  match g with
  | none => ((c.wr 0x2A00 0x04 0).wr 0x2A00 0x05 0).modTb (fun b => { b with slave := none })
  | some a =>
    let c := c.choosePath
    let li := if a.leap61 then 1 else if a.leap59 then 2 else 0
    let c := ((c.wr 0x2A00 0x04 a.identity).wr 0x2A00 0x05 (a.steps + 1)).modTb (fun b => { b with lastAnn := some t, li := li })
    let off := (c.rdw 0x2A00 0x0D).toInt
    let c := if a.utcValid ∧ a.utcOffset ≠ off ∧ li ≠ 0 then
        c.modTb (fun b => { b with pendUtc := some (dayEnd t off a.utcOffset, a.utcOffset) })
      else if a.utcValid ∧ li ≠ 0 ∧ c.net.tb.pendUtc = none then
        let new := off + (if a.leap61 then 1 else -1)
        c.modTb (fun b => { b with pendUtc := some (dayEnd t off new, new) })
      else if li = 0 then c.modTb (fun b => { b with pendUtc := none })
      else c
    let st := c.rd 0x2A00 0x01
    if st = 4 then c
    else if st = 0 ∨ st = 3 ∨ old ≠ some a.identity then c.acquire
    else c

/-- The announce interval of both profiles (log 23). -/
def announceNs : Nat := 1000000000

/-- No grandmaster is left: a locked timebase enters holdover, and an acquiring one runs free (R296; the exit from Acquiring is in no row of Table
10-4: DESIGN CHOICE, log 133). -/
def Chip.loseMaster (c : Chip) (t : Instant) : Chip :=
  let st := c.rd 0x2A00 0x01
  let c := c.takeMaster t none
  if st = 2 then c.holdover t else if st = 1 then c.setTb 0 else c

/-- PTP_ANNOUNCE on a bus, in the configured domain (R298): on the time-source bus it is taken into grandmaster selection, where a better one takes
over and a grandmaster that the device itself now beats is given up; the other bus's instance keeps it. -/
def execPtpAnnounce (t : Instant) (bus : Bool) (a : Announce) (s : State) : Host.Outcome State Fault Refusal :=
  s.onChip (fun c =>
    if a.domain = c.rd 0x2A00 0x0A then
      let c := c.at_ t
      if bus = (c.rd 0x2A00 0x0E == 1) then
        let l := (c.net.tb.ann.filter (fun x => x.identity != a.identity)) ++ [a]
        let c := c.modTb (fun b => { b with ann := l })
        match c.bestMaster l, c.net.tb.gm with
        | some g, some old => if g.identity = a.identity ∨ g.identity ≠ old.identity then c.takeMaster t (some g) else c
        | some g, none => c.takeMaster t (some g)
        | none, some _ => c.loseMaster t
        | none, none => c
      else c.modTb (fun b => { b with other := b.other.filter (fun x => x.1.identity != a.identity) ++ [(a, t)] })
    else c)

/-- ANNOUNCE_TIMEOUT: 3 announce intervals without an Announce of the selected grandmaster; another that qualifies is taken, else it is lost
(R296). -/
def execAnnounceTimeout (t : Instant) (s : State) : Host.Outcome State Fault Refusal :=
  s.onChip (fun c =>
    match c.net.tb.gm, c.net.tb.lastAnn with
    | some g, some u =>
      if u + 3 * announceNs ≤ t then
        let l := c.net.tb.ann.filter (fun x => x.identity != g.identity)
        let c := (c.at_ t).modTb (fun b => { b with ann := l })
        match c.bestMaster l with
        | some a => c.takeMaster t (some a)
        | none => c.loseMaster t
      else c
    | _, _ => c)

/-- HOLDOVER_EXPIRY (R296). -/
def execHoldoverExpiry (t : Instant) (s : State) : Host.Outcome State Fault Refusal :=
  s.onChip (fun c =>
    if c.rd 0x2A00 0x01 = 3 ∧ c.net.tb.holdAt + c.rd 0x2A00 0x0C * 1000000000 ≤ t then (c.at_ t).setTb 0 else c)

/-- STEP_REQUEST: refused while a class runs or restarts (R297). -/
def execStepRequest (a : Acc) (v : Nat) (s : State) : Host.Outcome State Fault Refusal :=
  s.onChip (fun c => c.writeNum a 0x2A00 0x0F v (fun c _ =>
    if c.anyBusy then .error abState else .ok (c.modTb (fun b => { b with stepReq := true }))))

/-- UTC_OFFSET_CHANGE: at the end of the announced UTC day the offset changes and is stored (R301, Table 12-3). -/
def execUtcOffsetChange (t : Instant) (s : State) : Host.Outcome State Fault Refusal :=
  s.onChip (fun c =>
    match c.net.tb.pendUtc with
    | some (u, off) =>
      if u ≤ t then
        let w := (ofIntWord off).toNat
        ((((c.at_ t).wr 0x2A00 0x0D w).persist 6 0 0 (leBytes w 6)).modTb (fun b => { b with pendUtc := none })).modCal
          (fun k => { k with leapDue := true })
      else c
    | none => c)

/-- The instance of a bus is master (Table 10-5): a boundary clock on the other bus; a master-capable clock where no better one is heard, on the other
bus within 3 announce intervals. Never on a chip that does not act (R302). -/
def Chip.ptpMaster (c : Chip) (t : Instant) (bus : Bool) : Bool :=
  let typ := c.rd 0x2A00 0x07
  let source := bus == (c.rd 0x2A00 0x0E == 1)
  let heard := (c.net.tb.other.filter (fun x => decide (t ≤ x.2 + 3 * announceNs))).map (·.1)
  c.acts && ((typ == 2 && !source) || (typ == 1 && (if source then c.net.tb.gm.isNone else (c.bestMaster heard).isNone)))

/-- PTP_TRANSMIT of the instance of a bus: a peer-delay request; as master also Sync, in two-step mode with its Follow_Up, and Announce in the
profile chosen; each with a number of the own counter (R288, R298, R302, Table 10-5). -/
def execPtpTransmit (t : Instant) (bus : Bool) (s : State) : Host.Outcome State Fault Refusal :=
  s.onChip (fun c =>
    let c := (c.at_ t).sendMessages
    let two := c.rd 0x2A00 0x0B == 1
    let prof := c.rd 0x2A00 0x06
    let cls := match c.net.tb.gm with
      | some g => if c.rd 0x2A00 0x01 = 3 then 187 else g.clockClass
      | none => if c.rd 0x2A00 0x01 = 3 then 187 else 248
    let master := c.ptpMaster t bus
    let c := c.emitOwn bus (busPorts bus) (.pdelayReq bus)
    if master then
      let c := c.emitOwn bus (busPorts bus) (.sync bus two)
      let c := if two then c.emitOwn bus (busPorts bus) (.followUp bus) else c
      c.emitOwn bus (busPorts bus) (.announce bus cls prof)
    else c)

/-! ### CAN (R303-R312) -/

/-- Mode of a CAN port: 0 off, 1 normal, 2 listen-only; listen-only whatever its configuration on a chip that does not act (R304); off
while PD10 is (R403). -/
def Chip.canMode (c : Chip) (k : Nat) : Nat :=
  if c.power.domains.getLsbD 10 then (if c.acts then c.fld (0x2920 + k) 0x01 1 0 else 2) else 0
/-- The fence bit of a CAN port (Table 01-12). -/
def canFence (k : Nat) : Nat := 10 + k
/-- A CAN port receives: not off, not fenced, not bus-off, the field die's transceivers alive. -/
def Chip.canReceives (c : Chip) (k : Nat) : Bool :=
  decide (c.canMode k = 1 ∨ c.canMode k = 2) && !c.portFenced (canFence k) && !(c.canp k).busOff && c.fieldAlive
def Chip.canSends (c : Chip) (k : Nat) : Bool := decide (c.canMode k = 1) && c.canReceives k
/-- A port takes a frame that started at `sof`: it receives, or it was turned off or fenced after that and completes the frame (R309). -/
def Chip.canTakes (c : Chip) (k : Nat) (sof : Instant) : Bool :=
  c.canReceives k || ((match (c.canp k).cut with
    | some u => decide (sof < u)
    | none => false) && !(c.canp k).busOff && c.fieldAlive)

/-- The words of a CAN receive item (log 24): identifier, format and length; start-of-frame stamp; counter; data, six bytes a
word, first byte most significant. -/
def canWords (f : CanFrame) (p : TimePair) (counter : Nat) : List Word :=
  let data := (List.range ((f.data.length + 5) / 6)).map (fun i =>
    let part := (f.data.drop (6 * i)).take 6
    toWord (beNat (part ++ List.replicate (6 - part.length) 0)))
  [toWord (bit01 f.extended * 2 ^ 39 + f.data.length * 2 ^ 32 + f.ident), p.w0, p.w1, toWord counter] ++ data

/-- An identifier and its format match a receive object (R305). -/
def canMatch (f : CanFrame) (o : CanObj) : Bool := f.extended == o.ext && f.ident &&& o.mask == o.ident &&& o.mask

/-- A frame takes its place in receive object i of port k: one that replaces a frame which no muster has taken is counted. The object's item has
the instant of validity as its stamp and carries the start-of-frame stamp (Table 02-1). -/
def Chip.takeCan (c : Chip) (k : Fin 4) (t sof : Instant) (f : CanFrame) (counter i : Nat) : Chip :=
  match (c.canp k.val).rx[i]? with
  | none => c
  | some r =>
    let c := if r.frame.isSome && !r.taken then c.bump (0x2920 + k.val) 0x0B else c
    let c := c.modCan k.val (fun x => { x with rx := upd (fun r => { r with
      frame := some f, stamp := sof, counter := counter % 2 ^ 48, taken := false, held := !c.canReceives k.val }) x.rx i })
    c.pushItem ⟨.can k r.obj.num, t, canWords f (c.pairAt sof) counter, 0, false⟩

/-- Arbitration: the number by which identifiers contend, the lowest first; at equal base bits the 11-bit format wins. -/
def canKeyOf (ext : Bool) (ident : Nat) : Nat := if ext then ident / 2 ^ 18 * 2 ^ 19 + 2 ^ 18 + ident % 2 ^ 18 else ident * 2 ^ 19
def canKey (o : CanObj) : Nat := canKeyOf o.ext o.ident

/-- Object x may start a frame at `sof`: it is queued by then, and no other that is queued by then goes before it (R305). -/
def Chip.canStarts (c : Chip) (k : Nat) (x : CanTxSt) (sof : Instant) : Bool :=
  x.queued && decide (x.queuedAt ≤ sof) &&
    (c.canp k).tx.all (fun y => !(y.queued && decide (y.queuedAt ≤ sof) && decide (canKey y.obj < canKey x.obj)))

/-- The objects of port k of which a frame may have started before u. -/
def Chip.canMayRun (c : Chip) (k : Nat) (u : Instant) : List Nat :=
  (List.range (c.canp k).tx.length).filter (fun i => match (c.canp k).tx[i]? with
    | some y => decide (y.queuedAt < u) && c.canStarts k y y.queuedAt
    | none => false)

/-- Which own frame is under way at u, where a dispatch, the end of a port's sending or a boundary asks before any command has told: none, or one that
may have started, by a free choice, as the traffic of the other nodes decides it (log 134). Its object waits no more. -/
def Chip.settleWire (c : Chip) (k : Nat) (u : Instant) : Chip :=
  let l := if (c.canp k).wire.isNone && c.canSends k then c.canMayRun k u else []
  if l = [] then c
  else
    let x := (Config.freeWord c.free).toNat % (l.length + 1)
    match l[x]? with
    | some i => (c.modCan k (fun p => { p with
        wire := some ⟨some i, (nth default p.tx i).vals, u⟩, tx := upd (fun y => { y with queued := false }) p.tx i })).draw
    | none => c.draw

/-- The own frame under way lost arbitration or met an error: it is retried (R305), or discarded where the port no longer sends (R309). A retry that
a later dispatch of its object has replaced in the meantime is counted as replaced; a reference message that the next one has overtaken is
discarded (R307). -/
def Chip.wireBack (c : Chip) (k : Nat) : Chip :=
  match (c.canp k).wire with
  | none => c
  | some w =>
    let send := c.canSends k
    let c := c.modCan k (fun p => { p with wire := none })
    match w.obj with
    | none => if send && !(c.canp k).refDue then c.modCan k (fun p => { p with refDue := true }) else c.bump (0x2920 + k) 0x0C
    | some i =>
      if (nth default (c.canp k).tx i).queued then c.bump (0x2920 + k) 0x0B
      else if send then c.modCan k (fun p => { p with tx := upd (fun y => { y with queued := true }) p.tx i })
      else c.bump (0x2920 + k) 0x0C

/-- The error counters TEC and REC of 0x2920+c.07 once a frame has been sent or received (R308): the errors that the port has met since its last frame
are no commands, and their number is free (log 134); TEC rises by 8 and REC by 1 for each; a success lowers them by 1, and a REC above 127 to a value of
119 to 127. Above 127 the port is error-passive. -/
def Chip.countErrors (c : Chip) (k : Nat) (sent : Bool) : Chip :=
  let ix := 0x2920 + k
  let e := (Config.freeWord c.free).toNat
  let tec := min 255 (c.fld ix 0x07 15 8 + 8 * (e % 32))
  let recv := min 255 (c.fld ix 0x07 23 16 + e / 32 % 256)
  let tec := if sent then tec - 1 else tec
  let recv := if sent then recv else if 127 < recv then 119 + e / 2 ^ 13 % 9 else recv - 1
  (((c.setFld ix 0x07 15 8 tec).setFld ix 0x07 23 16 recv).setFld ix 0x07 1 0 (if 127 < tec ∨ 127 < recv then 1 else 0)).draw

/-- The CAN counter as a command gives it: 48 bits, free-running (R306). -/
def Chip.canClock (c : Chip) (counter : Nat) : Chip := c.modNet (fun n => { n with canCount := counter % 2 ^ 48 })

/-- CAN_FRAME_RECEIVED: a frame that becomes valid at t and started at `sof`; every object that matches takes it (R305), and a frame of a remote
module's record joins that (R51). A port without FD receives no FD frame. An own frame that was under way is retried. -/
def execCanFrameReceived (x : FrameAt) (k : Fin 4) (f : CanFrame) (counter : Nat) (s : State) : Host.Outcome State Fault Refusal :=
  s.onChip (fun c =>
    if c.canTakes k.val x.sof = true ∧ (f.fd = true → c.bit (0x2920 + k.val) 0x01 2 = true) then
      let c := ((((c.at_ x.t).bump (0x2920 + k.val) 0x0A).canClock counter).countErrors k.val false).wireBack k.val
      let hits := (List.range (c.canp k.val).rx.length).filter (fun i => match (c.canp k.val).rx[i]? with
        | some r => canMatch f r.obj
        | none => false)
      let c := c.forAll hits (fun c i => c.takeCan k x.t x.sof f counter i)
      match f.record with
      | some r => c.takeRecord (canFence k.val) x.t r
      | none => c
    else c)

/-- A dispatch of the owning class as the CAN transmit objects see it: a changed object is queued; one whose frame has not
started is replaced, which is counted (R305); a frame under way goes on with its own values. -/
def Chip.canPublish (c : Chip) (n : Nat) (read : Nat → Word) (d : Instant) : Chip :=
  (List.range 4).foldl (fun c k =>
    (List.range (c.canp k).tx.length).foldl (fun c i =>
      let y := nth default (c.canp k).tx i
      let vals := y.obj.words.map read
      if y.obj.cls = n ∧ y.vals ≠ vals then
        let c := if y.queued then c.settleWire k d else c
        let send := c.canSends k
        let c := if (nth default (c.canp k).tx i).queued ∧ send then c.bump (0x2920 + k) 0x0B else c
        c.modCan k (fun x => { x with tx := upd (fun y => { y with vals := vals, queued := send, queuedAt := d }) x.tx i })
      else c) c) c

/-- Distance of the farthest node of one frame in metres: (δ − tn) / (2 tp), rounded, within 0 to 2 000 (R312, log 8). `edge` is the time from the end
of the own ACK slot to the recessive edge in counts of 12.5 ns, in which the port measures it (1.25 m at the default tp); δ is it less the own transceiver
loop delay. -/
def Chip.canDistance (c : Chip) (k edge : Nat) : Nat :=
  let tn := c.rd (0x2920 + k) 0x0F
  let p := real32Parts (BitVec.ofNat 32 (c.rd (0x2920 + k) 0x10))
  let num : Int := 25 * (edge : Int) - 2 * (c.rd (0x2920 + k) 0x11 + tn)
  let m := p.1.toNat
  if num ≤ 0 ∨ m = 0 then 0
  else if 0 ≤ p.2 then min 2000 (wholeOf num (4 * m * 2 ^ p.2.toNat)).toNat
  else min 2000 (wholeOf (num * 2 ^ (-p.2).toNat) (4 * m)).toNat

/-- A frame of port k completes with acknowledgement: the edge after its ACK slot gives a distance, of which the largest of the last 16 is reported
(R312). -/
def Chip.canAcked (c : Chip) (k counter edge : Nat) : Chip :=
  let ds := (c.canDistance k edge :: (c.canp k).dists).take 16
  (((c.modCan k (fun p => { p with wire := none, dists := ds })).wr (0x2920 + k) 0x0E (ds.foldl max 0)).canClock counter).countErrors k true

/-- The frame of object i, with these values and its start of frame at `sof`, completes. -/
def Chip.canSent (c : Chip) (k i : Nat) (vals : List Word) (sof : Instant) (counter edge : Nat) : Chip :=
  let c := (c.modCan k (fun p => { p with
    tx := upd (fun y => { y with doneAt := sof, counter := counter % 2 ^ 48 }) p.tx i })).canAcked k counter edge
  c.modNet (fun n => { n with sent := n.sent ++ [.can k (nth default (c.canp k).tx i).obj.num vals] })

/-- The own frame under way is the one that object `obj` started at `sof`; a start of frame tells the reference message. -/
def Chip.onWire (c : Chip) (k obj : Nat) (sof : Instant) : Option CanWire :=
  (c.canp k).wire.filter (fun w => match w.obj with
    | none => w.since == sof
    | some i => decide (sof ≤ w.since) && (nth default (c.canp k).tx i).obj.num == obj)

/-- CAN_FRAME_TRANSMITTED: transmit object `obj`, whose frame started at `sof`, or the reference message that started then, completes with
acknowledgement; also on a port that has been turned off or fenced since (R305-R309, R312). Another own frame that was thought under way is retried. -/
def execCanFrameTransmitted (x : FrameAt) (k : Fin 4) (obj counter edge : Nat) (s : State) : Host.Outcome State Fault Refusal :=
  s.onChip (fun c =>
    match c.onWire k.val obj x.sof with
    | some w =>
      (match w.obj with
      | some i => (c.at_ x.t).canSent k.val i w.vals x.sof counter edge
      | none => (c.at_ x.t).canAcked k.val counter edge)
    | none =>
      let d := c.wireBack k.val
      match (d.canp k.val).tx.findIdx? (fun y => y.obj.num == obj && d.canStarts k.val y x.sof) with
      | some i =>
        if d.canSends k.val then
          let c := (d.at_ x.t).modCan k.val (fun p => { p with tx := upd (fun y => { y with queued := false }) p.tx i })
          c.canSent k.val i (nth default (c.canp k.val).tx i).vals x.sof counter edge
        else c
      | none => c)

/-- Length of the basic cycle in nanoseconds (0x2920+c.09). -/
def Chip.basicNs (c : Chip) (k : Nat) : Nat := c.rd (0x2920 + k) 0x09 * 1000000

/-- The cycle count of a boundary (Table 10-7): (s × 1 000 / L + k) mod 2^32. -/
def Chip.cycleCount (c : Chip) (k : Nat) (t : Instant) : Nat := (t / c.basicNs k) % 2 ^ 32

/-- The 16 bytes of a reference message, numbers least significant byte first (Table 10-7). -/
def refPayload (sof : TimePair) (n : Nat) : List Byte := leBytes sof.w0.toNat 6 ++ leBytes sof.w1.toNat 6 ++ leBytes n 4

/-- Start the reference message of the basic cycle under way with its start of frame at t, by the identifier of 0x2920+c.08, with bit-rate
switching where a data rate is configured. The counter has advanced by a free amount since its last reading (R306). -/
def Chip.sendRef (c : Chip) (k : Nat) (t : Instant) : Chip :=
  let ix := 0x2920 + k
  let c := c.canClock (c.net.canCount + (Config.freeWord c.free).toNat)
  ((c.modCan k (fun x => { x with refDue := false, wire := some ⟨none, [], t⟩ })).modNet (fun n => { n with
    sent := n.sent ++ [.canRef k (c.fld ix 0x08 29 0) (c.rd ix 0x03 != 0) (refPayload (c.pairAt t) (c.cycleCount k t)) c.net.canCount] })).draw

/-- The reference message starts at t at once: no own frame is under way or waits before it, and the bus is idle, which the other nodes
decide (log 134). -/
def Chip.refStarts (c : Chip) (k : Nat) (t : Instant) : Bool :=
  let key := canKeyOf (c.bit (0x2920 + k) 0x08 29) (c.fld (0x2920 + k) 0x08 28 0)
  c.canSends k && (c.canp k).wire.isNone &&
    (c.canp k).tx.all (fun y => !(y.queued && (decide (y.queuedAt < t) || decide (canKey y.obj < key)))) && (Config.freeWord c.free).getLsbD 0

/-- CAN_REFERENCE_MESSAGE of a time master with FD (R307). At every boundary of the basic cycle one is due, and one that has not started by then is
discarded; it starts there where the bus is idle. At any other instant the command says that the one that waits, or a retry, starts then, with that
instant as its own. -/
def execCanReferenceMessage (t : Instant) (k : Fin 4) (s : State) : Host.Outcome State Fault Refusal :=
  s.onChip (fun c =>
    let ix := 0x2920 + k.val
    if c.canMode k.val = 1 ∧ c.bit ix 0x08 30 = true ∧ c.bit ix 0x01 2 = true ∧ 0 < c.basicNs k.val then
      let retry := (c.canp k.val).wire.any (fun w => w.obj.isNone)
      if t % c.basicNs k.val = 0 then
        let c := c.at_ t
        let c := if (c.canp k.val).refDue then c.bump ix 0x0C else c
        let c := (c.modCan k.val (fun x => { x with refDue := true })).settleWire k.val t
        if c.refStarts k.val t then c.sendRef k.val t else c.draw
      else if ((c.canp k.val).refDue = true ∨ retry = true) ∧ c.canSends k.val = true then ((c.at_ t).wireBack k.val).sendRef k.val t
      else c
    else c)

/-- CAN_COUNTER_LATCH: the counter at a whole second of station time (R306, 0x2900.30). -/
def execCanCounterLatch (t : Instant) (counter : Nat) (s : State) : Host.Outcome State Fault Refusal :=
  s.onChip (fun c =>
    if t % 1000000000 = 0 then
      ((c.at_ t).canClock counter).modNet (fun n => { n with canLatch := ((c.at_ t).pairAt t, counter % 2 ^ 48) }) else c)

/-- Transmit frames that wait on a port, a reference message among them. -/
def Chip.canQueued (c : Chip) (k : Nat) : Nat := ((c.canp k).tx.filter (·.queued)).length + bit01 (c.canp k).refDue

/-- Discard the queued transmit frames of a port, counted in 0x2920+c.0C (R308, R309). -/
def Chip.dropQueue (c : Chip) (k : Nat) : Chip :=
  (c.bumpBy (0x2920 + k) 0x0C (c.canQueued k)).modCan k (fun x => { x with
    tx := x.tx.map (fun y => { y with queued := false }), refDue := false })

/-- CAN_BUS_OFF (R308): every transmit frame is discarded, the one under way too. TEC stands beyond its 8 bits; what they show is free. -/
def execCanBusOff (t : Instant) (k : Fin 4) (s : State) : Host.Outcome State Fault Refusal :=
  s.onChip (fun c =>
    if (c.canp k.val).busOff = false ∧ c.canMode k.val = 1 then
      let ix := 0x2920 + k.val
      let c := ((c.at_ t).wireBack k.val).dropQueue k.val
      let c := c.modCan k.val (fun x => { x with busOff := true, waiting := c.rd ix 0x05 == 1 })
      let c := (c.setFld ix 0x07 15 8 ((Config.freeWord c.free).toNat % 256)).draw
      ((c.setFld ix 0x07 1 0 2).bump ix 0x0D).event 0x0A10 sevMajor 8 k.val []
    else c)

/-- CAN_BUS_OFF_RECOVERY: after 128 occurrences of 11 recessive bits the port rejoins, with manual recovery only once
commanded (R308); error active, its error counters at 0. -/
def execCanBusOffRecovery (t : Instant) (k : Fin 4) (s : State) : Host.Outcome State Fault Refusal :=
  s.onChip (fun c =>
    if (c.canp k.val).busOff = true ∧ (c.canp k.val).waiting = false then
      let c := (c.at_ t).modCan k.val (fun x => { x with busOff := false })
      c.wr (0x2920 + k.val) 0x07 (c.rd (0x2920 + k.val) 0x07 &&& 2 ^ 24)
    else c)

/-- CAN_RECOVERY_COMMAND: manual recovery starts at the tick boundary of R315. -/
def execCanRecoveryCommand (a : Acc) (k : Fin 4) (v : Nat) (s : State) : Host.Outcome State Fault Refusal :=
  s.onChip (fun c => c.writeNum a (0x2920 + k.val) 0x06 v (fun c _ =>
    .ok (c.modField (fun f => { f with pendSet := f.pendSet ++ [(0x2920 + k.val, 0x06, v, settingTick a.t)] }))))

/-- A CAN port that is off, listen-only or fenced completes the frame under way and discards what it has queued; off or fenced, its objects are Held
until a fresh frame (R309). -/
def Chip.syncCan (c : Chip) (k : Nat) : Chip :=
  let off := c.canMode k = 0 ∨ c.portFenced (canFence k) = true
  let c := if c.canMode k = 1 ∧ c.portFenced (canFence k) = false then c else c.dropQueue k
  let c := c.setBit (0x2920 + k) 0x07 24 (c.power.domains.getLsbD 10 && !c.acts)
  c.modCan k (fun x => { x with
    cut := if off then some (x.cut.getD c.now) else none, rx := if off then x.rx.map (fun r => { r with held := true }) else x.rx })

/-! ### Cable test (R311) -/

/-- CABLE_TEST_REQUEST: refused in state while the link is up; it begins at the tick boundary of R315. -/
def execCableTestRequest (a : Acc) (p : Fin 4) (v : Nat) (s : State) : Host.Outcome State Fault Refusal :=
  s.onChip (fun c => c.writeNum a (0x2910 + p.val) 0x06 v (fun c _ =>
    if c.bit (0x2910 + p.val) 0x03 0 then .error abState
    else .ok (c.modField (fun f => { f with pendSet := f.pendSet ++ [(0x2910 + p.val, 0x06, v, settingTick a.t)] }))))

/-- CABLE_TEST_COMPLETE: the length, or the kind of fault and its distance; a replaced port's length is unknown. -/
def execCableTestComplete (t : Instant) (p : Fin 4) (kind : Fin 5) (dist length : Nat) (s : State) : Host.Outcome State Fault Refusal :=
  s.onChip (fun c =>
    if (c.ethp p.val).testing then
      let c := (c.at_ t).modEth p.val (fun e => { e with testing := false })
      if c.net.replaced.testBit p.val then (c.wr (0x2910 + p.val) 0x05 0xFFFF).wr (0x2910 + p.val) 0x07 4
      else
        let faulty := decide (1 ≤ kind.val ∧ kind.val ≤ 3)
        (c.wr (0x2910 + p.val) 0x05 (if kind.val = 0 ∧ length ≤ 150 then length else 0xFFFF)).wr (0x2910 + p.val) 0x07
          (kind.val + (if faulty then dist % 256 else 0) * 256)
    else c)

/-! ### Settings that come into force at a tick boundary (R257, R309, R315) -/

/-- An output is commanded to its alarm level, or on a standby would be. -/
def Chip.aoAlarmed (c : Chip) (o : Nat) : Bool := if c.pairState = psStandbyReady then (c.aoch o).armed.2 else (c.aoch o).alarm

/-- A setting comes into force. -/
def Chip.putInForce (c : Chip) (p : Nat × Nat × Nat × Instant) : Chip :=
  let ix := p.1
  let sub := p.2.1
  let v := p.2.2.1
  if 0x2840 ≤ ix ∧ ix < 0x2858 ∧ sub = 0x08 then c.clearLatch (ix - 0x2840)
  else if 0x2920 ≤ ix ∧ ix < 0x2924 ∧ sub = 0x06 then c.modCan (ix - 0x2920) (fun x => { x with waiting := false })
  else if 0x2910 ≤ ix ∧ ix < 0x2914 ∧ sub = 0x06 then
    if c.bit ix 0x03 0 then c else c.modEth (ix - 0x2910) (fun e => { e with testing := true })
  else
    let c := if 0x2920 ≤ ix ∧ ix < 0x2924 ∧ sub = 0x01 then c.settleWire (ix - 0x2920) c.now else c
    let c := c.wr ix sub v
    if 0x2810 ≤ ix ∧ ix < 0x2840 ∧ sub = 0x05 then
      c.modDi (ix - 0x2810) (fun x => { x with fT0 := none, fN := 0, lastRise := some c.now })
    else if ix = 0x2800 ∧ sub = 0x09 then c.syncTrim
    else if 0x2868 ≤ ix ∧ ix < 0x286C ∧ sub = 0x03 ∧ c.aoAlarmed (ix - 0x2868) = true ∧ c.field.failing = false then
      c.applyAo (ix - 0x2868) (c.alarmNa (ix - 0x2868)) true
    else if 0x2920 ≤ ix ∧ ix < 0x2924 ∧ sub = 0x01 then c.syncCan (ix - 0x2920)
    else c

/-- SETTING_TAKES_EFFECT: settings whose tick boundary has come, in order of acceptance (R257, R309). -/
def execSettingTakesEffect (t : Instant) (s : State) : Host.Outcome State Fault Refusal :=
  s.onChip (fun c =>
    match c.field.pendSet.filter (fun p => decide (p.2.2.2 ≤ t)) with
    | [] => c
    | due =>
      due.foldl (fun c p => c.putInForce p)
        ((c.at_ t).modField (fun f => { f with pendSet := f.pendSet.filter (fun p => decide (t < p.2.2.2)) })))

end Sys2Proof.Machine
end

