-- ==== Sys2Proof/Machine/ClassOps.lean ====
section
/-! DEFINITION. What stops, starts and reloads a task class: the roll call it belongs to, its queued items, its outputs, its
edit set, and the common release of the classes of a region (02, 05, 07, 13). -/

namespace Sys2Proof.Machine

/-! ### Roll call of a class (R376) -/

def Chip.member (c : Chip) (m : Nat) : Member := nth Member.reset c.wd.members m
def Chip.modMember (c : Chip) (m : Nat) (f : Member → Member) : Chip :=
  c.modWd (fun w => { w with members := modNth Member.reset f w.members m })

/-- Enrol a member with period p and window o to c: it waits to arm from the present count (R380). -/
def Chip.enrolMember (c : Chip) (m p o cl : Nat) : Chip :=
  let c := c.modMember m (fun x => { x with
    on_ := true, p := p, o := o, c := cl, e := c.wd.count, armed := none, k := 0, got := false, failAt := none, signal := false, mergeFlag := false, pend := false })
  let ix := 0x2C10 + m
  let c := (((c.wr ix 0x01 p).wr ix 0x02 o).wr ix 0x03 cl).wr ix 0x07 1
  (c.setBit 0x2C00 0x01 m true).setBit 0x2C00 0x02 m false

/-- Withdraw a member; a failed one keeps its state until it is enrolled again. -/
def Chip.withdrawMember (c : Chip) (m : Nat) : Chip :=
  let failed := (c.member m).failAt.isSome
  let c := c.modMember m (fun x => { x with on_ := false, armed := none, signal := false, mergeFlag := false, pend := false })
  let c := c.wr (0x2C10 + m) 0x07 (if failed then 3 else 0)
  (c.setBit 0x2C00 0x01 m false).setBit 0x2C00 0x02 m false

/-- A check-in of a class crosses toward PD0 (R379, R406): the toggle flips, or, before the previous one is acknowledged, the pending bit is
set. -/
def flipIn (x : Member) : Member := if x.signal then { x with pend := true } else { x with signal := true, mergeFlag := false }
/-- The acknowledge of a check-in: with the pending bit set the toggle flips once more, with its merge flag. -/
def ackIn (x : Member) : Member := { x with signal := x.pend, mergeFlag := x.pend, pend := false }

/-- The period and window of a member as its objects show them (Table 13-6). -/
def Chip.showWindow (c : Chip) (m p o cl : Nat) : Chip := ((c.wr (0x2C10 + m) 0x01 p).wr (0x2C10 + m) 0x02 o).wr (0x2C10 + m) 0x03 cl

/-- States in which a class is enrolled and drives its outputs: 2 and 3. -/
def isBusy (st : Nat) : Bool := st == csRunning || st == csRestarting

/-- Take a class to a state: it enters the roll call with states 2 and 3, if its image gives it a period, and leaves it with
them (R376). -/
def Chip.toState (c : Chip) (n st : Nat) : Chip :=
  let old := c.clState n
  let c := c.setClState n st
  if isBusy st && !isBusy old then
    match (c.cl n).cfg with
    | some g => (match g.rollCall with
      | some (p, o, cl) => c.enrolMember n p o cl
      | none => c)
    | none => c
  else if isBusy old && !isBusy st && (c.member n).on_ then c.withdrawMember n
  else c

/-! ### Releases and dispatch instants (R39, R55) -/

/-- The first tick number at or above n0 at which a class is released. -/
def nextRelease (g : ClsCfg) (n0 : Nat) : Nat := n0 + (g.phase + g.period - n0 % g.period) % g.period

/-- The first dispatch instant of a class after t. -/
def nextDispatch (g : ClsCfg) (t : Instant) : Instant :=
  nextRelease g (if t < g.offset then 0 else (t - g.offset) / tickNs + 1) * tickNs + g.offset

/-- Merge "tick ≡ a mod m" with the releases of a class: the least tick at or above a that meets both, and the common period. -/
def mergeRelease (a m : Nat) (g : ClsCfg) : Option (Nat × Nat) :=
  ((List.range g.period).find? (fun j => cfgReleased g (a + j * m))).map (fun j => (a + j * m, Nat.lcm m g.period))

/-- The first tick number at or above n0 that is a release of every class of a list (R213). -/
def commonRelease (n0 : Nat) (gs : List ClsCfg) : Option Nat :=
  (gs.foldl (fun r g => match r with
    | some (a, m) => mergeRelease a m g
    | none => none) (some (n0, 1))).map (·.1)

/-- The activation tick for a requested instant: a common release within 20 s of it (R213). -/
def activationTick (req : Instant) (gs : List ClsCfg) : Option Instant :=
  match commonRelease ((req + tickNs - 1) / tickNs) gs with
  | some n => if n * tickNs ≤ req + 20000000000 then some (n * tickNs) else none
  | none => none

/-! ### Queued items -/

/-- The identity under which a queued item's originator is kept (R194). -/
def qOrig (q : Queued) : Nat := match q.path with
  | some _ => q.org
  | none => 0x10000 + q.org

def isEdit (q : Queued) : Bool := match q.kind with
  | .edit .. => true
  | .classCmd _ => false

/-- Queued edits of a class are discarded, counted and answered "refused in state" (R203). -/
def Chip.discardEdits (c : Chip) (n : Nat) : Chip :=
  let r := clsRegion (c.cl n)
  let gone := (c.region r).queue.filter (fun q => isEdit q && q.cls == n)
  let c := c.modRegion r (fun x => { x with queue := x.queue.filter (fun q => !(isEdit q && q.cls == n)) })
  let c := c.bumpBy 0x2500 0x07 gone.length
  gone.foldl (fun c q => c.answerWaiting (qOrig q) q.csn (.abort abState)) c

/-! ### Stopping (R27, R67, R163) -/

/-- A member of a stopped class rests; one that awaits its relief stays abdicated. -/
def restWork (w : Work) : Work :=
  { w with run := if w.run = .abdicated then .abdicated else .idle, saved := .idle, flights := [], bundle := emptyBundle,
           delay := 0, target := none, undo := [], sup := [] }

/-- The earlier of the instants from which the words of a class read Held: words that already do keep it until the next dispatch (R32, R57). -/
def heldFrom (old : Option Instant) (d : Instant) : Option Instant := some (match old with
  | some s => min s d
  | none => d)

/-- Stop a class into state st: nothing more is dispatched, and its outputs go to their safe state at instant d; a class stopped before keeps
what it has. A program fault of the class that is held at that moment falls with its cycle, and is neither counted nor recorded (DESIGN
CHOICE, log 125). -/
def Chip.stopAtInstant (c : Chip) (n st : Nat) (d : Instant) : Chip :=
  let old := c.clState n
  let drove := isBusy old || old == csLoaded || st == csStopped
  let c := c.forAll (clsTeam (c.cl n)) (fun c e => c.modWork e restWork)
  let c := c.modCl n (fun k => { k with
    cycle := none, held := none, skipAt := none,
    safeAt := if drove then some d else k.safeAt, stopAt := if drove then heldFrom k.stopAt d else k.stopAt })
  (c.toState n st).discardEdits n

/-- Stop a class for a fault: the safe state falls on its next dispatch instant, and the edits queued for it are work discarded at
its fence (R31, Table 01-7). -/
def Chip.stopClass (c : Chip) (n st : Nat) : Chip :=
  match (c.cl n).cfg with
  | some g =>
    let gone := (c.region (clsRegion (c.cl n))).queue.filter (fun q => isEdit q && q.cls == n)
    (c.stopAtInstant n st (nextDispatch g c.now)).bumpBy 0x2100 0x08 gone.length
  | none => c

/-- A class that a hardware fault stops enters state 6, whatever its state was (R163); the fence behind the stop is kept for R69. A
fence that falls on a class already in state 6 joins those that keep it from starting (DEDUCED, log 101). -/
def Chip.stopHw (c : Chip) (n : Nat) (f : StopFence) : Chip :=
  if c.clState n = csNone then c
  else
    let c := c.modCl n (fun k => { k with stopBy := if c.clState n = csHwFault then f :: k.stopBy else [f] })
    if c.clState n = csHwFault then c else (c.stopClass n csHwFault).event 0x0204 sevMajor 3 n []

/-! ### Aborting updates (R209, R210, R219) -/

/-- Mark bank b of target t: 0 empty, 1 incomplete, 2 complete, 3 in force (Table 07-11). -/
def Chip.setBankState (c : Chip) (t b v : Nat) : Chip := c.setFld (0x2510 + t) 0x06 (2 * b + 1) (2 * b) v

/-- The update of target t ends with the bank it wrote incomplete and a reason code (R209, R210, R219). -/
def Chip.abortUpdate (c : Chip) (t reason : Nat) : Chip :=
  let other := 1 - c.fld (0x2510 + t) 0x06 4 4
  let c := ((c.wr (0x2510 + t) 0x05 0).setBankState t other 1).wr (0x2510 + t) 0x08 0
  (c.wr 0x2500 0x08 (reason + t * 256)).modTarget t (fun x => { x with
    head := none, body := [], ta := none, prevApp := none, prevMeas := none, otherHash := 0 })

/-- Every update between its header and its activation is aborted (R210); the pause of a region follows its activation. -/
def Chip.abortUpdates (c : Chip) (reason : Nat) : Chip :=
  c.forAll (List.range 6) (fun c t =>
    let st := c.rd (0x2510 + t) 0x05
    if 1 ≤ st ∧ st ≤ 4 ∧ (t < 4 ∧ (c.region t).paused = true) = False then c.abortUpdate t reason else c)

/-! ### A failed trial (R218) -/

/-- The configurations of the classes of a region that run or restart. -/
def Chip.runningCfgs (c : Chip) (r : Nat) : List ClsCfg :=
  ((c.cls.zipIdx).filter (fun p => isBusy (c.clState p.2) && clsRegion p.1 == r)).filterMap (fun p => p.1.cfg)

/-- A trial of target t is under way: it has not failed, and no pause of its fallback runs (R217, R218). -/
def Chip.onTrial (c : Chip) (t : Nat) : Bool :=
  c.rd (0x2510 + t) 0x05 == 5 && (c.target t).fallAt.isNone && (c.target t).resumeAt.isNone

/-- Target t, on trial, has failed: the previous bank is put back at the first tick boundary that meets R213 for the region's classes, which
can be this very instant; where none within 20 s meets it, at the first tick boundary (DESIGN CHOICE, log 114). For the MSS and the
measurement engine at once. -/
def Chip.failTrial (c : Chip) (t : Nat) : Chip :=
  if c.onTrial t then
    let at_ := if t < 4 then (activationTick c.now (c.runningCfgs t)).getD ((c.now + tickNs - 1) / tickNs * tickNs) else c.now
    c.modTarget t (fun x => { x with fallAt := some at_, trialEnd := none })
  else c

/-! ### Program faults (R27, R28) -/

/-- The held program fault of a class stands: the class stops in state 5, the fault is counted and recorded, and a trial of its
region has failed. -/
def Chip.programFault (c : Chip) (n : Nat) (h : HeldFault) : Chip :=
  let r := clsRegion (c.cl n)
  let c := c.bump 0x2100 0x06
  let c := c.stopClass n csProgFault
  let c := c.event 0x0201 sevMajor 3 n (leBytes n 1 ++ leBytes h.cy 6 ++ leBytes h.work 1 ++ leBytes h.pc 2)
  c.failTrial r

/-! ### Edits (R198-R204) -/

/-- A stored entry in the order of writing: records that stand, then those queued. -/
def Chip.storeSeq (c : Chip) : List (Nat × Nat × Nat × List Byte) :=
  (sortBy (fun (a b : PRec) => decide (a.rsn ≤ b.rsn)) (c.store.recs.filter (fun r => r.a || r.b))).map
      (fun r => (r.knd, r.ix, r.sub, r.pay)) ++
    (c.store.queue ++ c.store.held).map (fun q => (q.1, q.2.1, q.2.2.1, q.2.2.2.1))

/-- The edit set of the bank in force of region r, by index; a record of KND 7 empties it (Table 12-3). -/
def Chip.editSet (c : Chip) (r : Nat) : List (Nat × List Byte) :=
  let b := c.bankOf r
  c.storeSeq.foldl (fun l p =>
    if p.1 = 7 ∧ p.2.1 = r ∧ p.2.2.1 % 2 = b then []
    else if p.1 = 2 ∧ editBase r ≤ p.2.1 ∧ p.2.1 < editBase (r + 1) ∧ p.2.2.1 % 2 = b then
      l.filter (fun q => q.1 != p.2.1) ++ [(p.2.1, p.2.2.2)]
    else l) []

/-- Words that a value of a type fills (R198). -/
def editWords (typ v : Nat) : List Nat := if typ = 4 then [v / 2 ^ 32, v % 2 ^ 32] else [v]

/-- A bundle with the field X of its `imm` replaced: XH in 31:28, XM in 23:20, XL in 19:0 of slot C. -/
def putX (w v : Nat) : Nat :=
  setFieldOf (setFieldOf (setFieldOf w 115 96 (fieldOf v 19 0)) 119 116 (fieldOf v 23 20)) 127 124 (fieldOf v 27 24)
/-- Write the target of an edit entry of region r. -/
def Chip.putEdit (c : Chip) (r typ v : Nat) : EditTarget → Chip
  | .dWord pos a => c.modDbank pos (fun m => ((editWords typ v).zipIdx).foldl (fun m p => WMem.set m (a + p.2) (toWord p.1)) m)
  | .gWord a => c.modRegion r (fun x => { x with gmem := ((editWords typ v).zipIdx).foldl (fun m p => WMem.set m (a + p.2) (toWord p.1)) x.gmem })
  | .imm8 pos b s => c.modIbank pos (fun m => NMem.set m b (setFieldOf (NMem.get m b) (immLo s + 7) (immLo s) v))
  | .immX pos b => c.modIbank pos (fun m => NMem.set m b (putX (NMem.get m b) v))

/-- Apply the edit set of the bank in force to the entries of class n, or of every class of the region (R204). -/
def Chip.reapplyEdits (c : Chip) (r : Nat) (n : Option Nat) : Chip :=
  (c.editSet r).foldl (fun c p =>
    match c.editEntry r p.1 with
    | some e => if n = none ∨ n = some e.cls then c.putEdit r e.typ (leNat p.2) e.target else c
    | none => c) c

/-! ### Reloading and starting (R68) -/

/-- Whether a word lies in one of a list of stretches. -/
def inRanges (l : List (Nat × Nat)) (a : Nat) : Bool := l.any (fun p => decide (p.1 ≤ a) && decide (a < p.1 + p.2))

/-- Whether a start of class n reloads a region word: owned and not retained. -/
def reloads (g : ClsCfg) (a : Nat) : Bool := inRanges g.part a && !inRanges g.retained a

/-- Reload D-space of the members and the owned words that are not retained, then the edit set (R68). -/
def Chip.reloadClass (c : Chip) (n : Nat) : Chip :=
  let k := c.cl n
  let r := clsRegion k
  match k.cfg, (c.region r).image with
  | some g, some im =>
    let c := c.forAll (clsTeam k) (fun c e =>
      c.modDbank e (fun _ => match im.dInit.find? (fun p => p.1 == e) with
        | some p => p.2
        | none => []))
    let c := c.modRegion r (fun x => { x with
      gmem := (im.mInit.filter (fun p => reloads g p.1)).foldl (fun m p => WMem.set m p.1 p.2)
        (x.gmem.filter (fun p => !reloads g p.1)) })
    c.reapplyEdits r (some n)
  | _, _ => c

/-- The mark of an entry milestone: word 74 of the next slot with ENT = 1, the undo buffer cleared (R149). -/
def entryMark (w : Work) : Work :=
  { writeSlot w ⟨Arch.entry 0, 0, 0, true, 0⟩ with undo := [], sinceMs := 0, sup := [] }

/-- A start command taken at muster m (R68): the release of m is not executed, outputs that the class drove go to their safe
state at its dispatch instant, the class is reloaded and enters state 3. -/
def Chip.startClass (c : Chip) (n : Nat) (m : Instant) : Chip :=
  match (c.cl n).cfg with
  | none => c
  | some g =>
    let ran := c.clState n == csRunning
    let c := c.forAll (clsTeam (c.cl n)) (fun c e => c.modWork e (fun w => entryMark (restWork w)))
    let c := c.modCl n (fun k => { k with
      cycle := none, held := none, skipAt := none, notBefore := m + 1000000,
      safeAt := if ran then some (m + g.offset) else k.safeAt, stopAt := if ran then heldFrom k.stopAt (m + g.offset) else k.stopAt,
      stopBy := [] })
    (c.reloadClass n).toState n csRestarting

/-- Whether a fence behind the stop of a class of region r still holds (Table 01-7). -/
def Chip.fenceHolds (c : Chip) (r : Nat) (f : StopFence) : Bool :=
  match f with
  | .region => c.bit 0x2100 0x02 (8 + r)
  | .bank e k => (c.region r).banks.contains (e, k)
  | .silicon sil => c.silFenced sil

/-- The domain of region r, PD3 to PD6, is on; one that a start-up left off runs nothing until the next start-up (R403). -/
def Chip.regionOn (c : Chip) (r : Nat) : Bool := c.power.domains.getLsbD (3 + r)

/-- Whether a start command on class n is refused: in state 6 while a fence that caused the stop holds (R69), and while the silicon
of one of its works is tested in place (R168). -/
def Chip.startRefused (c : Chip) (n : Nat) : Bool :=
  let r := clsRegion (c.cl n)
  !c.regionOn r ||
  (c.clState n == csHwFault && (c.cl n).stopBy.any (fun f => c.fenceHolds r f)) ||
    (clsTeam (c.cl n)).any (fun e => (c.region r).tests.any (fun p => p.2.1 == .inPlace && p.1 == silOf r (c.servedBy e)))

/-! ### The work map (R156, R158, R165, R168) -/

/-- Silicon `code` serves the work of engine position e. -/
def Chip.setServed (c : Chip) (e code : Nat) : Chip := c.setFld 0x2300 (0x10 + e / 8) (4 * (e % 8) + 3) (4 * (e % 8)) code
/-- The relief silicon of a region is `code`. -/
def Chip.setReliefSil (c : Chip) (r code : Nat) : Chip := c.setFld 0x2300 (0x10 + r) 39 36 code

/-- The relief of its region takes the work of position e: the region's relief now serves (Table 05-11, code 1). A work that a
relief serves can come back to its first silicon in this way, once that silicon is the relief (DEDUCED, log 102). -/
def Chip.relieve (c : Chip) (e : Nat) : Chip :=
  let r := e / 8
  (((c.setServed e (c.reliefSil r)).setReliefSil r 15).setReliefState r 1)

/-- A silicon waits for its test, asked for by a request or not; the tests of a region run one at a time, in order (R165). -/
def Chip.queueTest (c : Chip) (sil : Nat) (k : TestKind) (asked : Bool) : Chip :=
  c.modRegion (regOf sil) (fun x => { x with tests := x.tests ++ [(sil, k, asked)] })

/-- At the seal of a class, a work whose relief is prepared for a planned swap passes to it, and the released silicon is tested
(R168). A swap whose class stops before the seal stays pending until the class runs again (DESIGN CHOICE, log 126). -/
def Chip.swapAtSeal (c : Chip) (n : Nat) : Chip :=
  let r := clsRegion (c.cl n)
  match (c.region r).swap with
  | some (e, true) =>
    if clsHas (c.cl n) e then
      let old := silOf r (c.servedBy e)
      let c := ((c.relieve e).bump 0x2300 0x06).modRegion r (fun x => { x with swap := none })
      c.queueTest old .asRelief true
    else c
  | _ => c

/-! ### Captures (R247, R248) -/

/-- A trigger at the newest grid instant: a retrigger of a capture in its post-trigger stretch, else a new capture with the
samples of the pre-trigger length. -/
def Chip.triggerCapture (c : Chip) (source : Nat) : Chip :=
  match c.meas.image, c.meas.lastG with
  | some im, some g =>
    c.modMeas (fun m => match m.capture with
      | some x => { m with capture := some { x with retrig := x.retrig ++ [c.pairAt g] } }
      | none => { m with
          capture := some ⟨m.nextNum, false, g, c.pairAt g, source, im.capChans, im.pre, im.post, im.decimate, [],
            (m.preBuf.filter (fun p => decide (g < p.1 + im.pre * 1000000 ∧ p.1 ≤ g))).map (·.2), g + im.post * 1000000, []⟩,
          nextNum := m.nextNum + 1 })
  | _, _ => c

/-! ### Confirmation of a trial (R217) -/

/-- Target t, on trial, is confirmed: the stored counter takes the image's ARC, the trial flag clears, the update ends. -/
def Chip.confirmTrial (c : Chip) (t : Nat) : Chip :=
  if c.onTrial t then
    let arc := (c.target t).arcNew
    let c := ((c.wr (0x2510 + t) 0x09 arc).wr (0x2510 + t) 0x05 0).setBit (0x2510 + t) 0x06 5 false
    let c := c.modTarget t (fun x => { x with trialEnd := none, head := none })
    let c := (c.persist 5 t 0 (leBytes arc 4)).persist 4 t 0 (leBytes (c.bankOf t) 1 ++ leBytes 0 1)
    c.event 0x0704 sevInfo 11 t []
  else c

end Sys2Proof.Machine
end

