-- ==== Sys2Proof/Machine/Pages.lean ====
section
/-! DEFINITION. The pages of a copy to the partner (R179): what the active puts into a STATE page and what the standby takes from it. The
spaces are the specification's, the layout of their words the model's (log 36). -/

namespace Sys2Proof.Machine

/-- Words in a STATE page: the whole words of 6 bytes that its 4 096 bytes take (R2, log 36). -/
def pageWords : Nat := 682

/-- Pages of a space: a D-bank, and the I/O and mailbox words of an image, are 32 768 words; one more page holds the state of the class. -/
def pagesOf : PageSpace → Nat
  | .dBank _ | .ioImage _ => 49
  | .ioQuality _ => 50
  | .executed => 11
  | .region _ | .eventFlags _ | .ledger _ | .network | .accumulators => 1

/-- Words n of a memory from address a. -/
def getWords (m : WMem) (a n : Nat) : List Word := (List.range n).map (fun i => WMem.get m (a + i))
/-- Put words at an address. -/
def putWords (m : WMem) (a : Nat) (ws : List Word) : WMem := (ws.zipIdx).foldl (fun m p => WMem.set m (a + p.2) p.1) m

/-- A number in two words, the higher first. -/
def twoWords (n : Nat) : List Word := [toWord (n / 2 ^ 48), toWord n]
/-- The number in two words from place i. -/
def atTwo (ws : List Word) (i : Nat) : Nat := (nth 0 ws i).toNat * 2 ^ 48 + (nth 0 ws (i + 1)).toNat
/-- An instant that may be absent, as a number. -/
def optNum (x : Option Instant) : Nat := match x with
  | some t => t + 1
  | none => 0
def numOpt (n : Nat) : Option Instant := match n with
  | 0 => none
  | t + 1 => some t

/-! ### Qualities of an image -/

/-- Quality word of image word a: its quality, the quality its item brought, whether it was never dispatched, its mailbox mark,
whether it was taken over from a class that had stopped. -/
def qualityWord (k : Cls) (a : Nat) : Word :=
  toWord (NMem.get k.imgQ a % 16 + NMem.get k.imgQ (baseKey a) % 16 * 16 + bit01 (k.undisp.contains a) * 256 +
    bit01 (k.boxFr.contains (a - 0x4000) && decide (0x4000 ≤ a)) * 512 + bit01 (k.kept.any (fun p => p.1 == a)) * 1024)

/-- Take the quality word of image word a. -/
def takeQuality (k : Cls) (a : Nat) (w : Word) : Cls :=
  { k with
    imgQ := NMem.set (NMem.set k.imgQ a (qIn (fieldOf w.toNat 3 0))) (baseKey a) (qIn (fieldOf w.toNat 7 4)),
    kept := k.kept.filter (fun p => p.1 != a) ++ (if w.getLsbD 10 then [(a, 0)] else []),
    undisp := k.undisp.filter (· != a) ++ (if w.getLsbD 8 then [a] else []),
    boxFr := k.boxFr.filter (· + 0x4000 != a) ++ (if w.getLsbD 9 && decide (0x4000 ≤ a) then [a - 0x4000] else []) }

/-! ### Executed sets and network state -/

/-- One originator in 133 words (R195). -/
def origWords (o : Originator) : List Word :=
  [toWord o.id, toWord o.highest] ++ twoWords o.latest ++ [toWord o.window.length] ++
    (List.range 64).flatMap (fun i => [toWord (nth (0, 0) o.window i).1, toWord (nth (0, 0) o.window i).2])
/-- The originator in 133 words. -/
def wordsOrig (ws : List Word) : Originator :=
  { id := (nth 0 ws 0).toNat, highest := (nth 0 ws 1).toNat, latest := atTwo ws 2,
    window := (List.range (min 64 (nth 0 ws 4).toNat)).map (fun i => ((nth 0 ws (5 + 2 * i)).toNat, (nth 0 ws (6 + 2 * i)).toNat)) }

/-- A dataset's sequence state in 7 words (R290). -/
def gooseWords (x : GooseTx) : List Word :=
  [toWord x.stNum, toWord x.sqNum, x.tPair.w0, x.tPair.w1] ++ twoWords (optNum x.nextAt) ++ [toWord x.interval]
/-- Take it: the values stand as the owning class has published them. -/
def takeGoose (c : Chip) (x : GooseTx) (ws : List Word) : GooseTx :=
  { x with
    stNum := (nth 0 ws 0).toNat, sqNum := (nth 0 ws 1).toNat, tPair := ⟨nth 0 ws 2, nth 0 ws 3⟩, nextAt := numOpt (atTwo ws 4),
    interval := (nth 0 ws 6).toNat,
    vals := match x.cfg with
      | some g => g.members.map (fun a => WMem.get (c.cl g.cls).pub a)
      | none => x.vals,
    test := match x.cfg.bind (·.testBit), x.cfg with
      | some (a, b), some g => (WMem.get (c.cl g.cls).pub a).getLsbD b
      | _, _ => x.test }

/-! ### State of a class -/

/-- State code, CY, latest muster, mailbox CY, stop, safe-state and start instants of a class, whether it has dispatched, and the CY
of mailboxes taken over at an activation. -/
def Chip.classWords (c : Chip) (n : Nat) : List Word :=
  let k := c.cl n
  [toWord (c.clState n), toWord (c.cy n), toWord k.boxCy, toWord (bit01 k.everDisp)] ++ twoWords (optNum k.lastM) ++
    twoWords (optNum k.stopAt) ++ twoWords (optNum k.safeAt) ++ twoWords k.notBefore ++
    toWord (k.boxOld.length) :: (k.boxOld.take 300).flatMap (fun p => [toWord p.1, toWord p.2])
/-- Take them; a class that does not run takes its state with them, one that runs at its STATE_END. -/
def Chip.takeClass (c : Chip) (n : Nat) (ws : List Word) : Chip :=
  let st := (nth 0 ws 0).toNat
  let c := (c.modCl n (fun k => { k with
    boxCy := (nth 0 ws 2).toNat, everDisp := (nth 0 ws 3).toNat != 0, lastM := numOpt (atTwo ws 4), stopAt := numOpt (atTwo ws 6),
    safeAt := numOpt (atTwo ws 8), notBefore := atTwo ws 10, prev := none,
    boxOld := (List.range (min 300 (nth 0 ws 12).toNat)).map (fun i => ((nth 0 ws (13 + 2 * i)).toNat, (nth 0 ws (14 + 2 * i)).toNat)) })).wr (0x2210 + n) 0x09 (nth 0 ws 1).toNat
  if st = csRunning then c else c.toState n st

/-! ### Pages -/

/-- The words of page `page` of a space. -/
def Chip.pageOf (c : Chip) (sp : PageSpace) (page : Nat) : List Word :=
  let base := page * pageWords
  match sp with
  | .dBank e => getWords (nth [] c.dbank e.val) base pageWords
  | .region r => getWords (c.region r.val).gmem base pageWords
  | .ioImage n => (List.range pageWords).map (fun i =>
      if ownsIo (c.cl n.val) (base + i) then WMem.get (c.cl n.val).pub (base + i) else WMem.get (c.cl n.val).img (base + i))
  | .ioQuality n =>
    if page = 49 then c.classWords n.val
    else (List.range pageWords).map (fun i => qualityWord (c.cl n.val) (base + i))
  | .eventFlags n => (clsTeam (c.cl n.val)).map (fun e =>
      toWord ((List.range 16).foldl (fun x i => x + bit01 (NMem.has (c.work e).flags i) * 2 ^ i) 0))
  | .ledger e => (List.range 128).map (slotWord (c.work e.val).slot0) ++ (List.range 128).map (slotWord (c.work e.val).slot1)
  | .network => [toWord c.net.seqPairS, toWord c.net.seqPairP, toWord (c.rd 0x2A00 0x0D)] ++ c.net.tx.flatMap gooseWords
  | .executed =>
    let os := (c.pair.origs.drop (3 * page)).take 3
    toWord os.length :: os.flatMap origWords
  | .accumulators => c.meas.sets.flatMap (fun x => x.acc.flatMap (fun z => twoWords (BitVec.ofInt 96 z).toNat))

/-- Whether a region word belongs to a class that is already in hot shadow here: a page that brings words of another class beside it
leaves it alone. -/
def Chip.shadowed (c : Chip) (r a : Nat) : Bool :=
  (List.range 16).any (fun n => c.pair.synced.contains n && (match (c.cl n).cfg with
    | some g => clsRegion (c.cl n) == r && inRanges g.part a
    | none => false))

/-- Take the words of a page. -/
def Chip.takePage (c : Chip) (sp : PageSpace) (page : Nat) (words : List Word) : Chip :=
  let base := page * pageWords
  let ws := words.take pageWords
  match sp with
  | .dBank e => c.modDbank e.val (fun m => putWords m base ws)
  | .region r => c.modRegion r.val (fun x => { x with
      gmem := (ws.zipIdx).foldl (fun m p => if c.shadowed r.val (base + p.2) then m else WMem.set m (base + p.2) p.1) x.gmem })
  | .ioImage n => c.modCl n.val (fun k =>
      let own := (ws.zipIdx).foldl (fun m p => if ownsIo k (base + p.2) then WMem.set m (base + p.2) p.1 else m) k.pub
      { k with img := putWords k.img base ws, pub := own })
  | .ioQuality n =>
    if page = 49 then c.takeClass n.val ws
    else c.modCl n.val (fun k => (ws.zipIdx).foldl (fun k p => takeQuality k (base + p.2) p.1) k)
  | .eventFlags n => (clsTeam (c.cl n.val)).zipIdx.foldl (fun c p =>
      c.modWork p.1 (fun w => { w with flags := (List.range 16).foldl (fun m i =>
        NMem.set m i (bit01 ((nth 0 ws p.2).toNat.testBit i))) w.flags })) c
  | .ledger e => c.modWork e.val (fun w => { w with
      slot0 := slotOf (fun k => nth 0 ws k), slot1 := slotOf (fun k => nth 0 ws (128 + k)) })
  | .network => (c.modNet (fun n => { n with
      seqPairS := (nth 0 ws 0).toNat % 2 ^ 16, seqPairP := (nth 0 ws 1).toNat % 2 ^ 16,
      tx := (n.tx.zipIdx).map (fun p => takeGoose c p.1 ((ws.drop (3 + 7 * p.2)).take 7)) })).wr 0x2A00 0x0D (nth 0 ws 2).toNat
  | .executed =>
    let os := (List.range (min 3 (nth 0 ws 0).toNat)).map (fun i => wordsOrig ((ws.drop (1 + 133 * i)).take 133))
    c.modPair (fun p => { p with origs := (if page = 0 then [] else p.origs) ++ os })
  | .accumulators => c.modMeas (fun m => { m with sets := (m.sets.zipIdx).map (fun p =>
      { p.1 with acc := (List.range 8).map (fun i => (BitVec.ofNat 96 (atTwo ws (16 * p.2 + 2 * i))).toInt) }) })

end Sys2Proof.Machine
end

