-- ==== Sys2Proof/Machine/Cycles.lean ====
section
/-! DEFINITION. Ticks, musters, seals and dispatches of the task classes, class commands and online edits (02, 07). -/

namespace Sys2Proof.Machine

/-! ### What a muster takes (R45-R48) -/

/-- A stamp lies before the cut-off of muster m (R45). -/
def before (m stamp : Instant) : Bool := decide (stamp + 4000 < m)

/-- The order in which queued items are applied (R47). -/
def qBefore (a b : Queued) : Bool :=
  let ka := [a.stamp, bit01 (!isEdit a), a.session, a.csn]
  let kb := [b.stamp, bit01 (!isEdit b), b.session, b.csn]
  match (ka.zip kb).find? (fun p => p.1 != p.2) with
  | some p => decide (p.1 < p.2)
  | none => true

/-- Commands of class n that stand before the cut-off of m, in order. -/
def Chip.dueCmds (c : Chip) (n : Nat) (m : Instant) : List Queued :=
  sortBy qBefore ((c.region (clsRegion (c.cl n))).queue.filter (fun q => !isEdit q && q.cls == n && before m q.stamp))
/-- The 16 that the muster takes (R48). -/
def Chip.takenCmds (c : Chip) (n : Nat) (m : Instant) : List Queued := (c.dueCmds n m).take 16

/-- An output of region r is in motion: a running pulse, or the motion flag of a class as last dispatched (Table 07-5). -/
def Chip.inMotion (c : Chip) (r : Nat) : Bool :=
  c.cls.any (fun k => match k.cfg with
    | some g => clsRegion k == r &&
        (g.doOut.any (fun p => c.pulseMode p.1 && (c.doc p.1).pulse.isSome) ||
          (match g.motion with
            | some (a, b) => (WMem.get k.pub a).getLsbD b
            | none => false))
    | none => false)

/-- The activation instant of region r, or that of its fallback, has come at m (R213, R218). -/
def Chip.changesAt (c : Chip) (r : Nat) (m : Instant) : Bool :=
  let past : Option Instant → Bool
    | some f => decide (f ≤ m)
    | none => false
  !(c.region r).paused && ((c.rd (0x2510 + r) 0x05 == 4 && past (c.target r).ta) || past (c.target r).fallAt)

/-- Another image comes into force in region r at m, so that no release of it at m executes (R214): a fallback does, and an activation that
no motion cancels (R211). -/
def Chip.switchesAt (c : Chip) (r : Nat) (m : Instant) : Bool :=
  c.changesAt r m && ((c.target r).fallAt.isSome || !c.inMotion r)

/-- Class n is released at instant m in a region that is on and neither pauses, nor takes another image at m, nor is fenced (R39, R214, R403). A stopped
class in a fenced region has no muster: its region port is blocked, so that a command queued for it waits (DESIGN CHOICE, log 103). -/
def Chip.releasedAt (c : Chip) (n : Nat) (m : Instant) : Bool :=
  match (c.cl n).cfg with
  | some g => isTick m && cfgReleased g (tickNo m) && !(c.region (clsRegion (c.cl n))).paused &&
      !c.switchesAt (clsRegion (c.cl n)) m && c.regionOn (clsRegion (c.cl n)) &&
      !c.bit 0x2100 0x02 (8 + clsRegion (c.cl n))
  | none => false

/-- The state of a class lets it execute a release of m: running, restarting with its 1 ms over, or waiting with autostart at
least 1 ms after READY (R65, R68). -/
def Chip.runsFrom (c : Chip) (n : Nat) (m : Instant) : Bool :=
  match c.clState n with
  | 2 => true
  | 3 => decide ((c.cl n).notBefore ≤ m)
  | 1 => (match (c.cl n).cfg, c.dict.readyAt with
    | some g, some r => g.auto && decide (r + 1000000 ≤ m)
    | _, _ => false)
  | _ => false

/-- A cycle is sealed by instant d: its last `eoc` lies 4 µs or more before (R54, R56). -/
def sealedBy (cy : Cycle) (d : Instant) : Bool := match cy.eocAt with
  | some e => decide (e + 4000 ≤ d)
  | none => false

/-- No cycle of the class stands in the way of a release at m: it has none, or one that dispatches by then (R57, R60). -/
def clsFreeAt (k : Cls) (m : Instant) : Bool := match k.cycle with
  | some cy => decide (cy.d ≤ m) && sealedBy cy cy.d
  | none => true

/-- The muster at m of class n is a taken muster: its release is executed. A command taken keeps it from executing (R67, R68). -/
def Chip.executes (c : Chip) (n : Nat) (m : Instant) : Bool :=
  c.releasedAt n m && c.runsFrom n m && clsFreeAt (c.cl n) m && (c.takenCmds n m).isEmpty

/-- CY of the release of class n that comes next (R53). -/
def Chip.nextCy (c : Chip) (n : Nat) : Nat := if c.clState n = csRunning then (c.cy n + 1) % 2 ^ 48 else 0

/-- Record the result of a queued item that muster m takes and answer the request that waits for it (R195). -/
def Chip.executedWith (c : Chip) (m : Instant) (q : Queued) (result : Nat) : Chip :=
  (c.executedOn m (qOrig q) q.csn result).answerWaiting (qOrig q) q.csn (resultBody result)
/-- The same of an item that is executed. -/
def Chip.executedAt (c : Chip) (m : Instant) (q : Queued) : Chip := c.executedWith m q 0

/-! ### Edits (R198-R204) -/

/-- Edits of the classes of region r that execute the muster at m, in order. -/
def Chip.dueEdits (c : Chip) (r : Nat) (m : Instant) : List Queued :=
  sortBy qBefore ((c.region r).queue.filter (fun q => isEdit q && before m q.stamp && c.executes q.cls m))

/-- Six bytes of a value for the detail of an edit record, the upper six of a REAL64, least significant first (R2, log 49). -/
def editDetail (typ v : Nat) : List Byte := ((beBytes v (max 6 (editLen typ))).take 6).reverse

/-- Apply one edit taken by muster m (R201, R204): the target is written, the record and the stored copy are queued. -/
def Chip.applyEdit (c : Chip) (r : Nat) (m : Instant) (q : Queued) : Chip :=
  match q.kind with
  | .classCmd _ => c
  | .edit ix value =>
    match c.editEntry r ix with
    | none => c
    | some e =>
      let old := c.getEdit r e
      let v := beNat value
      let c := (c.putEdit r e.typ v e.target).bump 0x2500 0x06
      let c := c.eventAs m 0x0701 sevAudit false 1 r q.org q.csn
        (leBytes ix 2 ++ leBytes 1 1 ++ editDetail e.typ old ++ editDetail e.typ v)
      let c := c.persist 2 ix (c.bankOf r) value.reverse
      let c := c.modRegion r (fun x => { x with editAt := NMem.set x.editAt e.k (c.nextCy e.cls) })
      c.executedAt m q

/-- Apply the edits that the musters of region r at m take, at most 64, once (R48, R201). -/
def Chip.applyEdits (c : Chip) (r : Nat) (m : Instant) : Chip :=
  if (c.region r).takenAt = m then c
  else
    let due := c.dueEdits r m
    let take := due.take 64
    let c := (c.modRegion r (fun x => { x with
      queue := x.queue.filter (fun q => !take.contains q), taken := take, takenAt := m })).bumpBy 0x2200 0x07 (due.length - take.length)
    take.foldl (fun c q => c.applyEdit r m q) c

/-- The edits that the seal `e` of a muster takes, those of its class that stand before the cut-off, in order (R180); what it has taken before
has left the queue. -/
def Chip.sealedEdits (c : Chip) (e : SealEntry) : List Queued :=
  let r := c.region (clsRegion (c.cl e.cls.val))
  let m := e.m.instant
  if r.takenAt = m ∧ r.taken.any (fun q => q.cls == e.cls.val) = true then r.taken.filter (fun q => q.cls == e.cls.val)
  else (sortBy qBefore (r.queue.filter (fun q => isEdit q && q.cls == e.cls.val && before m q.stamp))).take e.ned

/-- A standby applies the edits that a seal it holds takes, once (R201). -/
def Chip.applySealed (c : Chip) (e : SealEntry) : Chip :=
  let r := clsRegion (c.cl e.cls.val)
  let m := e.m.instant
  let take := (c.sealedEdits e).filter (fun q => (c.region r).queue.contains q)
  let c := c.modRegion r (fun x => { x with
    queue := x.queue.filter (fun q => !take.contains q), taken := (if x.takenAt = m then x.taken else []) ++ take, takenAt := m })
  take.foldl (fun c q => c.applyEdit r m q) c

/-- The seals held for musters of region r at m. -/
def Chip.sealsFor (c : Chip) (r : Nat) (m : Instant) : List SealEntry :=
  (c.pair.seals.filter (fun x => x.e.m.instant == m && clsRegion (c.cl x.e.cls.val) == r)).map (·.e)

/-- EDIT_APPLY: in the 1 µs before M; on the standby from M + 2 µs to M + 3 µs (R201), where the edits are those that the seals it holds
take. At the activation instant of its region the queued
edits are discarded instead (R203); where motion cancels the activation, the muster at M applies them. -/
def execEditApply (t : Instant) (r : Fin 4) (m : Instant) (s : State) : Host.Outcome State Fault Refusal :=
  s.onChip (fun c =>
    let window := if c.acts then decide (m ≤ t + 1000 ∧ t < m) else decide (m + 2000 ≤ t ∧ t < m + 3000)
    if isTick m = true ∧ window = true ∧ c.changesAt r.val m = false then
      (if c.acts then (c.at_ t).applyEdits r.val m else (c.sealsFor r.val m).foldl (fun c e => c.applySealed e) (c.at_ t))
    else c)

/-- A value lies in the range of an edit entry (R200). -/
def editInRange (typ lo hi v : Nat) : Bool :=
  if typ = 0 then decide ((toWord lo).toInt ≤ (toWord v).toInt ∧ (toWord v).toInt ≤ (toWord hi).toInt)
  else if typ = 3 ∨ typ = 4 then
    let f := if typ = 3 then f32 else f64
    !fpIsNan (fpOf f v) && fpCmp (fpOf f lo) (fpOf f v) != .gt && fpCmp (fpOf f v) (fpOf f hi) != .gt
  else decide (lo ≤ v ∧ v ≤ hi) && (typ != 2 || (List.range 12).all (fun i => decide (v / 16 ^ i % 16 ≤ 9)))

/-- Queue an item that has passed its checks: its answer waits for the muster that takes it, and the partner gets it (R46,
R180, R205). -/
def Chip.enqueue (c : Chip) (w : Who) (q : Queued) : Chip :=
  let c := c.modRegion q.region (fun x => { x with queue := x.queue ++ [q] })
  let c := c.modDict (fun d => { d with waiting := d.waiting ++ [(w.orig, w.csn, w.path, w.ctr)] })
  match q.kind with
  | .edit .. => c.send (.edit q)
  | .classCmd _ => c.send (.cmd (.queued q))

/-- Whether region r can accept another item (R48). -/
def Chip.queueFree (c : Chip) (r : Nat) : Bool := decide ((c.region r).queue.length < 1024)

/-- A write of the value of an edit entry by `w`: the checks of Table 11-3 that need the entry, then those of R200. -/
def Chip.writeEdit (c : Chip) (w : Who) (t : Instant) (ix : Nat) (data : List Byte) : Chip :=
  let r := editRegion ix
  match c.editEntry r ix with
  | none => c.refuse w (if (c.exportEntry r ix).isSome then 0x06010002 else 0x06020000)
  | some e =>
    if w.role < 2 then c.refuse w 0x0B000001
    else if data.length ≠ editLen e.typ then c.refuse w 0x06070010
    else if c.acts = false then c.refuse w abNotActive
    else
      match c.csnCheck w with
      | .repeated x => c.answer w.path w.csn w.ctr (resultBody x)
      | .queued => c.modDict (fun d => { d with waiting := d.waiting ++ [(w.orig, w.csn, w.path, w.ctr)] })
      | .below => c.refuse w abState
      | .fresh =>
        if editInRange e.typ e.min e.max (beNat data) = false then c.refuse w abRange
        else if c.busyClass (some e.cls) = false ∨ (c.region r).paused = true then c.refuse w abState
        else if c.queueFree r = false then c.refuse w abBusy
        else c.enqueue w ⟨.edit ix data, e.cls, r, t, w.snum, w.path, w.org, w.csn⟩

/-- EDIT_WRITE of the value (subindex 1) of an edit entry. -/
def execEditWrite (a : Acc) (ix : Nat) (data : List Byte) (s : State) : Host.Outcome State Fault Refusal :=
  s.onChip (fun c =>
    if 0x3000 ≤ ix ∧ ix < 0x4000 ∧ c.reach ix = true then
      match (c.at_ a.t).identify a (msgBytes 0x11 (a.sid.getD 0) a.ctr a.csn (writePayload ix 1 1 0 data)) with
      | .ended c => c
      | .go c w => c.writeEdit w a.t ix data
    else c)

/-! ### Class commands (R66-R69) -/

/-- What a write of 0x2200.06 does once it has passed the checks of Table 11-3. -/
def Chip.classCommand (c : Chip) (w : Who) (t : Instant) (v : Nat) : Chip :=
  let n := fieldOf v 3 0
  let act := fieldOf v 7 4
  let r := clsRegion (c.cl n)
  if c.clState n = csNone then c.refuse w abRange
  else if act = 2 ∧ c.startRefused n = true then c.refuse w abState
  else if c.queueFree r = false then c.refuse w abBusy
  else c.enqueue w ⟨.classCmd act, n, r, t, w.snum, w.path, w.org, w.csn⟩

/-- A write of 0x2200.06 from the wire. -/
def Chip.writeClass (c : Chip) (a : Acc) (v : Nat) : Chip :=
  let data := beBytes v a.len
  if c.reach 0x2200 = false then c
  else match (c.at_ a.t).identify a (msgBytes 0x11 (a.sid.getD 0) a.ctr a.csn (writePayload 0x2200 6 1 0 data)) with
  | .ended c => c
  | .go c w =>
    match c.checkWrite w 0x2200 0x06 data.length v with
    | .ended c => c
    | .go c w => c.classCommand w a.t v

/-- STOP: a class command with ACT 1 queues a stop (R67). -/
def execStop (a : Acc) (v : Nat) (s : State) : Host.Outcome State Fault Refusal :=
  s.onChip (fun c => if fieldOf v 7 4 = 1 then c.writeClass a v else c)

/-- START_OR_RESTART: a class command with ACT 2 queues a start (R68). -/
def execStartOrRestart (a : Acc) (v : Nat) (s : State) : Host.Outcome State Fault Refusal :=
  s.onChip (fun c => if fieldOf v 7 4 = 2 then c.writeClass a v else c)

/-- A class command takes effect at the muster m that takes it (R67-R69); a start that a fence keeps from its effect is taken all the same,
with "refused in state" as its result (R195, log 55). -/
def Chip.classEffect (c : Chip) (n : Nat) (m : Instant) (q : Queued) : Chip :=
  match q.kind, (c.cl n).cfg with
  | .classCmd act, some g =>
    if act = 1 then
      if c.clState n = csStopped ∨ c.clState n = csProgFault ∨ c.clState n = csHwFault then c.executedAt m q
      else
        ((c.stopAtInstant n csStopped (m + g.offset)).eventAs m 0x0203 sevInfo false 3 n q.org q.csn []).executedAt m q
    else if c.startRefused n = true then c.executedWith m q abState
    else (c.startClass n m).executedAt m q
  | _, _ => c

/-- OVERRUN_WARNING_CLEAR (R61). -/
def execOverrunWarningClear (a : Acc) (v : Nat) (s : State) : Host.Outcome State Fault Refusal :=
  s.onChip (fun c => c.writeNum a 0x2200 0x0A v (fun c _ =>
    .ok (c.wr 0x2200 0x05 ((List.range 16).foldl (fun x n => if v.testBit n then setFieldOf x n n 0 else x) (c.rd 0x2200 0x05)))))

/-! ### The frozen image (R45-R52, R57) -/

/-- The words and quality that the items of a source bring to a placement; none where nothing new arrived. Samples take 128 words (R225); where
fewer were released, zero words follow them (DESIGN CHOICE, log 104). -/
def placeWords (p : Place) (its : List Item) : Option (List Word × Nat) :=
  let its := sortBy (fun (a b : Item) => decide (a.stamp ≤ b.stamp)) its
  match its.getLast? with
  | none => none
  | some l =>
    match p.src with
    | .grid _ =>
      let ws := its.flatMap sampleWords
      let ws := ws.drop (ws.length - 128)
      some (ws ++ List.replicate (128 - ws.length) 0, itemQ l)
    | .diRecord _ => (match l.vals with
      | w :: r => some (withCount w (changeCount its) :: r, itemQ l)
      | [] => none)
    | _ => some (l.vals.take p.words, itemQ l)

/-- Freeze one placement of an image: `sq` is what the state of a producer does to the quality of its source, `rst` whether the field
die was reset since the previous taken muster. -/
def freezePlace (sq : ItemSrc → Nat) (rst : Bool) (its : List Item) (k : Cls) (p : Place) : Cls :=
  let k := match placeWords p (its.filter (fun i => i.src == p.src)) with
    | some (ws, q) => { k with img := putWords k.img p.addr ws, imgQ := NMem.set k.imgQ (baseKey p.addr) q }
    | none => (match p.src with
      | .diRecord _ => { k with img := WMem.set k.img p.addr (withCount (WMem.get k.img p.addr) 0) }
      | _ => k)
  let q := qMin (NMem.get k.imgQ (baseKey p.addr)) (sq p.src)
  let ws := getWords k.img p.addr (placeLen p)
  let ws := if p.src.isSamples then (if sq p.src = 0 then ws else embedQ p.src (sq p.src) ws) else embedQ p.src q ws
  let ws := match p.src, ws with
    | .supply, w :: r => toWord (setFieldOf w.toNat 4 4 (bit01 (rst || w.getLsbD 4))) :: r
    | _, ws => ws
  { k with img := putWords k.img p.addr ws, imgQ := NMem.set k.imgQ p.addr q }

/-- The words of one placement as another chip froze them (R180, log 100). -/
def placeFrozen (its : List Item) (k : Cls) (p : Place) : Cls :=
  match its.find? (fun i => i.src == .frozen p.addr) with
  | some i => { k with img := putWords k.img p.addr i.vals, imgQ := NMem.set (NMem.set k.imgQ p.addr (qIn i.qc)) (baseKey p.addr) (qIn i.qc) }
  | none => k

/-- The field die was reset after the previous taken muster (Table 09-3). -/
def Chip.resetSince (c : Chip) (lastM : Option Instant) : Bool :=
  match c.field.resetAt, lastM with
  | some r, some l => decide (l < r)
  | some _, none => true
  | none, _ => false

/-- Freeze a remote module's record with its age stamp (R51, R52). Where the active streamed the age stamp of its image, that one stands
(R50, R180). -/
def Chip.freezeRemote (c : Chip) (its : List Item) (m : Instant) (k : Cls) (x : RemoteMod) : Cls :=
  let mine := sortBy (fun (a b : Item) => decide (a.stamp ≤ b.stamp)) (its.filter (fun i => i.src == .remote x.module))
  let k := match mine.getLast? with
    | some i =>
      let p := c.pairAt i.stamp
      let age := match its.find? (fun (i : Item) => i.src == ItemSrc.frozen x.ageAddr) with
        | some a => a.vals
        | none => [p.w0, p.w1]
      { k with img := putWords (putWords k.img x.addr (i.vals.take x.words)) x.ageAddr age,
               imgQ := NMem.set k.imgQ (baseKey x.addr) (itemQ i) }
    | none => k
  let age : TimePair := ⟨WMem.get k.img x.ageAddr, WMem.get k.img (x.ageAddr + 1)⟩
  let q := if age = ⟨0, 0⟩ then 2
    else if age.instant + x.maxAge * 1000000 < m then 5 else NMem.get k.imgQ (baseKey x.addr)
  { k with imgQ := NMem.set k.imgQ x.addr q }

/-- Quality of word a of a class as others read it at muster m (R32, R57). -/
def pubQ (k : Cls) (m : Instant) (a : Nat) : Nat :=
  let past : Option Instant → Bool
    | some d => decide (d ≤ m)
    | none => false
  if k.undisp.contains a then 2
  else if past k.stopAt || past ((k.kept.find? (fun p => p.1 == a)).map (·.2)) then 6 else 0

/-- A class as a muster at m meets its published words: those of its latest dispatch at or before m (R57). -/
def clsAsOf (k : Cls) (m : Instant) : Cls := match k.prev with
  | some p => if m < p.before then { k with pub := p.pub, undisp := p.undisp, stopAt := p.stopAt, kept := p.kept, boxFr := p.boxFr, boxCy := p.boxCy, boxOld := p.boxOld } else k
  | none => k

/-- CY of a mailbox of a class: that of the cycle whose values it holds (R131). -/
def boxCycle (a : Cls) (base : Nat) : Nat := ((a.boxOld.find? (fun p => p.1 == base)).map (·.2)).getD a.boxCy

/-- Freeze the words and mailbox headers of another class. -/
def freezeOther (m : Instant) (a : Cls) (num : Nat) (k : Cls) : Cls :=
  match a.cfg with
  | none => k
  | some g =>
    let a := clsAsOf a m
    let k := g.owned.foldl (fun k ad => { k with img := WMem.set k.img ad (WMem.get a.pub ad), imgQ := NMem.set k.imgQ ad (pubQ a m ad) }) k
    g.boxes.foldl (fun k b =>
      let h := boxHeader num (pubQ a m b.base) (a.boxFr.contains (b.base - 0x4000)) (boxCycle a b.base)
      { k with hdrs := WMem.set k.hdrs b.base h }) k

/-- Words that lost their class at an activation (R215): through its pause they keep value and quality, after it they are read as Held; their
mailboxes' headers likewise (R131). -/
def freezeOrphans (l : List Orphan) (m : Instant) (k : Cls) : Cls :=
  l.foldl (fun k x =>
    let stopped := match x.stop with
      | some d => decide (d ≤ m)
      | none => false
    let q := if x.held ≤ m then 6 else if x.undisp then 2 else if stopped then 6 else 0
    { k with img := WMem.set k.img x.addr x.val, imgQ := NMem.set k.imgQ x.addr q, hdrs := match x.box with
      | some b => WMem.set k.hdrs b.1 (boxHeader b.2.1 q b.2.2.1 b.2.2.2)
      | none => k.hdrs }) k

/-- Freeze the image of class n at muster m with the items it takes: on a chip that has input authority (`auth`) what the state of its
own producers does to the image; a standby, and a chip that executes from a seal it received, takes the image that the active streamed,
and its own sources have no part in it (R50, R180). -/
def Chip.freeze (c : Chip) (auth : Bool) (n : Nat) (m : Instant) (its : List Item) : Chip :=
  match (c.cl n).cfg with
  | none => c
  | some g =>
    let k0 := c.cl n
    let k := g.inputs.foldl (fun k p => freezePlace (if auth then c.sourceQ else fun _ => 0) (auth && c.resetSince k0.lastM) its k p) k0
    let k := g.inputs.foldl (fun k p => placeFrozen its k p) k
    let k := g.remote.foldl (fun k x => c.freezeRemote its m k x) k
    let k := freezeOrphans (c.regions.flatMap (·.orphans)) m k
    let k := (c.cls.zipIdx).foldl (fun k p => if p.2 = n then k else freezeOther m p.1 p.2 k) k
    let c := c.modCl n (fun _ => k)
    let c := if g.inputs.any (fun p => p.src == .supply) then c.setBit 0x2800 0x02 4 false else c
    let c := g.inputs.foldl (fun c p => if p.src.isSamples then
      c.bumpBy 0x2600 0x12 ((its.filter (fun i => i.src == p.src)).length - 128) else c) c
    its.foldl (fun c i => match i.src with
      | .can p o => c.modCan p.val (fun x => { x with rx := x.rx.map (fun r => if r.obj.num = o then { r with taken := true } else r) })
      | _ => c) c

/-- The items that the active sends with a release at m of class n for the words that its items alone do not give: those whose
producer's state, or whose change of it, shows in the image frozen from `k0`, and the age stamps of new records, whose flags are those of
the active's clock (log 100). -/
def Chip.frozenItems (c : Chip) (n : Nat) (m : Instant) (its : List Item) (k0 : Cls) : List Item :=
  match (c.cl n).cfg with
  | none => []
  | some g =>
    let k := c.cl n
    g.inputs.filterMap (fun p =>
    let k1 := freezePlace (fun _ => 0) false its { k0 with imgQ := NMem.set k0.imgQ (baseKey p.addr) (NMem.get k0.imgQ p.addr) } p
    let ws := getWords k.img p.addr (placeLen p)
    let q := NMem.get k.imgQ p.addr
    if ws = getWords k1.img p.addr (placeLen p) ∧ q = NMem.get k1.imgQ p.addr then none else some ⟨.frozen p.addr, m, ws, q, false⟩) ++
    (g.remote.filter (fun x => its.any (fun i => i.src == .remote x.module))).map (fun x =>
      ⟨.frozen x.ageAddr, m, getWords k.img x.ageAddr 2, 0, false⟩)

/-- The standby forms beside the image it executes from the one its own items and sources give (R184). -/
def Chip.freezeOwn (c : Chip) (n : Nat) (m : Instant) : Chip :=
  match (c.cl n).cfg with
  | none => c
  | some g =>
    let its := (c.cl n).items.filter (fun i => before m i.stamp)
    let k0 := { c.cl n with img := (c.cl n).own, imgQ := (c.cl n).ownQ }
    let k := g.inputs.foldl (fun k p => freezePlace c.sourceQ (c.resetSince k0.ownM) its k p) k0
    let k := g.remote.foldl (fun k x => c.freezeRemote its m k x) k
    c.modCl n (fun x => { x with own := k.img, ownQ := k.imgQ, ownM := some m })

/-! ### Release of a cycle (R53) -/

/-- A member at the first bundle of a taken cycle: the state of R76, flags cleared (R137). One whose relief is not ready yet waits
for it (R161). -/
def enterCycle (w : Work) (entry : Nat) : Work :=
  { w with arch := Arch.entry entry, flights := [], issued := 0, sinceMs := 0, delay := 0, target := none,
           bundle := emptyBundle, run := if w.run = .abdicated then .abdicated else .issuing, saved := .idle, flags := [],
           undo := [], sup := [], lastGst := none, ended := none }

/-- Start the cycle of class n mustered at m, with the time pair of m. -/
def Chip.startCycle (c : Chip) (n : Nat) (m : Instant) (p : TimePair) : Chip :=
  match (c.cl n).cfg with
  | none => c
  | some g =>
    let cy := c.nextCy n
    let team := clsTeam (c.cl n)
    let c := (team.zipIdx).foldl (fun c q => c.modWork q.1 (fun w => enterCycle w (nth 0 g.entries q.2))) c
    let c := { c with evFlight := c.evFlight.filter (fun f => !team.contains f.target) }
    let c := c.modCl n (fun k => { k with
      cycle := some ⟨m, p, m + g.offset, cy, 0, none, false, [], [], false, false, []⟩, lastM := some m })
    ((c.wr (0x2210 + n) 0x09 cy).wrPair (0x2210 + n) 0x0C p).toState n csRunning

/-- A skipped release at or before t is counted (R60); one at an activation is no skip (R214). -/
def Chip.countSkip (c : Chip) (n : Nat) (t : Instant) : Chip :=
  match (c.cl n).skipAt with
  | some s =>
    if s ≤ t ∧ c.switchesAt (clsRegion (c.cl n)) s = false then (c.bump (0x2210 + n) 0x0B).modCl n (fun k => { k with skipAt := none }) else c
  | none => c

/-! ### Seals toward the partner (R180) -/

/-- The frozen input words of a class in ascending address. -/
def inputAddrs (g : ClsCfg) : List Nat :=
  sortBy (fun a b => decide (a ≤ b)) (g.inputs.flatMap (fun p => (List.range (placeLen p)).map (p.addr + ·)) ++
    g.remote.flatMap (fun x => (List.range x.words).map (x.addr + ·) ++ [x.ageAddr, x.ageAddr + 1]))

/-- The bytes of a queued item in an image hash (log 25). -/
def queuedBytes (q : Queued) : List Byte := match q.kind with
  | .edit ix v => beBytes ix 2 ++ v
  | .classCmd act => beBytes act 1

/-- The image hash of a class with what its muster takes (06, after Table 06-3). -/
def Chip.imageHash (c : Chip) (n : Nat) (qs : List Queued) : Nat :=
  match (c.cl n).cfg with
  | some g => crc64 (wordsBytes ((inputAddrs g).map (fun a => WMem.get (c.cl n).img a)) ++ qs.flatMap queuedBytes)
  | none => 0

/-- LSN of the last frame sent whose content a muster takes. -/
def Chip.contentLsn (c : Chip) (n : Nat) (its : List Item) (qs : List Queued) : Nat :=
  ((c.pair.store.filter (fun p => match p.2 with
    | .item k i => k == n && its.contains i
    | .edit q => qs.contains q
    | .cmd (.queued q) => qs.contains q
    | _ => false)).getLast?.map (·.1)).getD 0

/-- The seal of class n joins the SEAL frame of the muster being taken: the active sends one frame with an entry for each class that
musters (Table 06-2). -/
def Chip.addSeal (c : Chip) (n : Nat) (p : TimePair) (its : List Item) (edits cmds : List Queued) : Chip :=
  let qs := edits ++ cmds
  let e : SealEntry := ⟨⟨n % 16, by omega⟩, edits.length, cmds.length, c.contentLsn n its qs, p, c.cy n, c.imageHash n qs⟩
  c.modPair (fun x => { x with sealNow := x.sealNow ++ [e] })

/-- Send the SEAL frame of a muster. -/
def Chip.sendSeals (c : Chip) : Chip :=
  match c.pair.sealNow with
  | [] => c
  | es => (c.send (.seal es)).modPair (fun x => { x with sealNow := [] })

/-! ### Ticks and musters -/

/-- Send every STATE page of a space. -/
def Chip.sendPages (c : Chip) (sp : PageSpace) : Chip := c.forAll (List.range (pagesOf sp)) (fun c i => c.send (.state sp i (c.pageOf sp i)))

/-- Send the region memory, the I/O image and the state of class n. -/
def Chip.sendClass (c : Chip) (n : Nat) : Chip :=
  let r : Fin 4 := ⟨clsRegion (c.cl n) % 4, by omega⟩
  let parts := match (c.cl n).cfg with
    | some g => g.part
    | none => []
  let c := parts.foldl (fun c p => c.forAll (List.range ((p.1 + p.2) / pageWords + 1 - p.1 / pageWords))
    (fun c i => let k := p.1 / pageWords + i; c.send (.state (.region r) k (c.pageOf (.region r) k)))) c
  let k : Fin 16 := ⟨n % 16, by omega⟩
  (c.sendPages (.ioImage k)).sendPages (.ioQuality k)

/-- The active sends the state of class n, which has dispatched and is final until its next muster, and STATE_END (R179): no page of it was
sent before, so that none is dirty (log 36). -/
def Chip.copyClass (c : Chip) (n : Nat) : Chip :=
  if c.pairState = psActive ∧ c.pair.copying = true ∧ c.pair.synced.contains n = false then
    let c := c.forAll (clsTeam (c.cl n)) (fun c e => (c.sendPages (.dBank ⟨e % 32, by omega⟩)).sendPages (.ledger ⟨e % 32, by omega⟩))
    let c := (c.sendClass n).sendPages (.eventFlags ⟨n % 16, by omega⟩)
    (c.send (.stateEnd (some n))).modPair (fun p => { p with synced := n :: p.synced })
  else c

/-- At a tick boundary, once every running class is copied, the active sends the classes that do not run and closes the shared state
(R179). -/
def Chip.copyShared (c : Chip) : Chip :=
  let running := (List.range 16).filter (fun n => c.clState n == csRunning)
  if c.pairState = psActive ∧ c.pair.copying = true ∧ c.pair.sharedSynced = false ∧ running.all (fun n => c.pair.synced.contains n) = true then
    let rest := (List.range 16).filter (fun n => c.clState n != csNone && !c.pair.synced.contains n)
    let c := c.forAll rest (fun c n => c.sendClass n)
    (((c.sendPages .network).sendPages .executed).sendPages .accumulators).send (.stateEnd none)
      |>.modPair (fun p => { p with sharedSynced := true, synced := p.synced ++ rest })
  else c

/-- TICK_BOUNDARY: classes are released; a release that an overrun skips passes here (R38, R60); a copy to the partner closes its
shared state here (R179). -/
def execTickBoundary (t : Instant) (s : State) : Host.Outcome State Fault Refusal :=
  s.onChip (fun c => if isTick t then ((c.at_ t).forAll (List.range 16) (fun c n => c.countSkip n t)).copyShared else c)

/-- Commands taken by the muster of class n at m: the first 16, the rest carried over and counted (R48). -/
def Chip.takeCmds (c : Chip) (n : Nat) (m : Instant) : Chip :=
  let due := c.dueCmds n m
  let take := c.takenCmds n m
  let c := (c.modRegion (clsRegion (c.cl n)) (fun x => { x with queue := x.queue.filter (fun q => !take.contains q) })).bumpBy
    0x2200 0x08 (due.length - take.length)
  take.foldl (fun c q => c.classEffect n m q) c

/-- The release of class n at m on the chip with input authority: freeze, seal, start. -/
def Chip.takeRelease (c : Chip) (n : Nat) (m : Instant) : Chip :=
  let k0 := c.cl n
  let its := k0.items.filter (fun i => before m i.stamp)
  let c := c.modCl n (fun k => { k with items := k.items.filter (fun i => !before m i.stamp) })
  let c := c.freeze true n m its
  let extra := if c.pairState = psActive then c.frozenItems n m its k0 else []
  let c := extra.foldl (fun c i => c.send (.item n i)) c
  let c := c.startCycle n m (c.pairAt m)
  let edits := (c.region (clsRegion (c.cl n))).taken.filter (fun q => q.cls == n)
  c.addSeal n (c.pairAt m) (its ++ extra) edits []

/-- The muster of class n at m: a late cycle keeps its own, commands come first, else a due release executes. -/
def Chip.musterClass (c : Chip) (n : Nat) (m : Instant) : Chip :=
  if c.releasedAt n m = true ∧ (c.cl n).cycle.isNone = true then
    let cmds := c.takenCmds n m
    if cmds.isEmpty then (if c.runsFrom n m then c.takeRelease n m else c)
    else (c.takeCmds n m).addSeal n (c.pairAt m) [] [] cmds
  else c

/-! ### Items (R46, R49, R180) -/

/-- Whether a class has a place for a source. -/
def consumes (k : Cls) (src : ItemSrc) : Bool := match k.cfg with
  | some g => g.inputs.any (fun p => p.src == src) || (match src with
    | .remote x => g.remote.any (fun y => y.module == x)
    | _ => false)
  | none => false

/-- An item reaches class n at its region port: late when a muster that its stamp assigns it to has been frozen (R49); the active
streams it. -/
def Chip.arrive (c : Chip) (n : Nat) (i : Item) : Chip :=
  let late := match (c.cl n).lastM with
    | some l => before l i.stamp
    | none => false
  let i := { i with late := late }
  let c := c.modCl n (fun k => { k with items := k.items ++ [i] })
  let c := if late && c.acts then (c.bump 0x2200 0x09).event 0x0205 sevMinor 3 n [] else c
  if c.pairState = psActive then c.send (.item n i) else c

/-- ITEM_ARRIVAL: item k of those under way reaches the region ports of its consumers; at the port of a fenced region it is discarded
and counted (R31). -/
def execItemArrival (t : Instant) (k : Nat) (s : State) : Host.Outcome State Fault Refusal :=
  s.onChip (fun c =>
    match c.crossing[k]? with
    | some (_, i) =>
      if i.stamp ≤ t then
        let c := { c.at_ t with crossing := c.crossing.eraseIdx k }
        c.forAll ((List.range 16).filter (fun n => consumes (c.cl n) i.src)) (fun c n =>
          if c.bit 0x2100 0x02 (8 + clsRegion (c.cl n)) then c.bump 0x2100 0x08 else c.arrive n i)
      else c
    | none => c)

/-! ### Seal and dispatch (R54-R60) -/

/-- Bytes of a scheduled write in the dispatch hash (log 25). -/
def schedBytes (x : Sched) : List Byte := beBytes x.t 8 ++ beBytes (bit01 x.ao) 1 ++ beBytes x.ch 1 ++ beBytes x.val 4

/-- What class n contributes to the dispatch hash of D (R187). -/
def Chip.hashPart (c : Chip) (n : Nat) (d : Instant) : List Byte :=
  let k := c.cl n
  match k.cycle, k.cfg with
  | some cy, some g =>
    if cy.d ≠ d then []
    else if sealedBy cy d then
      beBytes n 1 ++ beBytes 1 1 ++ beBytes cy.cy 6 ++
        wordsBytes ((sortBy (fun a b => decide (a ≤ b)) g.owned).map (fun a => ioWorking k a)) ++ cy.sched.flatMap schedBytes
    else beBytes n 1 ++ beBytes 0 1
  | _, _ => []

/-- The dispatch hash of D is computed once, kept, and sent (R187). -/
def Chip.ensureHash (c : Chip) (d : Instant) : Chip :=
  if c.pair.inForce = true ∧ (c.pairState = psActive ∨ c.pairState = psStandbyReady) ∧ c.pair.ownHash.any (fun p => p.1 == d) = false then
    let h := crc64 ((List.range 16).flatMap (fun n => c.hashPart n d))
    (c.modPair (fun p => { p with ownHash := p.ownHash ++ [(d, h)] })).send (.hash h (c.pairAt d))
  else c

/-- Whether every cycle that dispatches at D is sealed. -/
def Chip.allSealed (c : Chip) (d : Instant) : Bool := c.cls.all (fun k => match k.cycle with
  | some cy => cy.sealed || cy.d != d
  | none => true)

/-- The cycle of class n, whose execution ended at e, is sealed: entry milestones are committed, a prepared planned swap takes place
(R54, R149, R168). -/
def Chip.sealCycle (c : Chip) (n : Nat) (cy : Cycle) (e : Instant) : Chip :=
  let c := c.modCl n (fun k => { k with cycle := some { cy with sealed := true } })
  let c := c.forAll (clsTeam (c.cl n)) (fun c w => c.modWork w entryMark)
  let c := c.wr (0x2210 + n) 0x0E (max (c.rd (0x2210 + n) 0x0E) (e - cy.m))
  let c := c.swapAtSeal n
  if c.allSealed cy.d then c.ensureHash cy.d else c

/-- CYCLE_SEAL: 4 µs after E the cycle is sealed. -/
def execCycleSeal (t : Instant) (cls : Fin 16) (s : State) : Host.Outcome State Fault Refusal :=
  s.onChip (fun c =>
    let n := cls.val
    match (c.cl n).cycle with
    | some cy =>
      match cy.eocAt with
      | some e => if e + 4000 ≤ t ∧ cy.sealed = false then (c.at_ t).sealCycle n cy e else c
      | none => c
    | none => c)

/-- Pending scheduled writes of class n whose time has come by the dispatch at D, in time order: an ordinary write of that dispatch
prevails over them (R58). -/
def Chip.flushSched (c : Chip) (n : Nat) (d : Instant) : Chip :=
  if c.fieldAlive then
    let due := sortBy (fun (x y : Sched) => decide (x.t ≤ y.t)) (c.field.sched.filter (fun x => x.cls == n && decide (x.t ≤ d)))
    due.foldl (fun c x => c.applySched x)
      (c.modField (fun f => { f with sched := f.sched.filter (fun x => !(x.cls == n && decide (x.t ≤ d))) }))
  else c

/-- The scheduled writes of a dispatch at D (R59, R132): late ones are applied at D, in the order of their recording whatever their
times (DESIGN CHOICE, log 105), ones more than 10 s ahead and those beyond 32
pending are discarded; all of them are counted. -/
def Chip.handSched (c : Chip) (n : Nat) (d : Instant) (l : List Sched) : Chip :=
  if c.field.linkUp && c.fieldAlive then
    let late := l.filter (fun x => decide (x.t < d))
    let far := l.filter (fun x => decide (d + 10000000000 < x.t))
    let keep := l.filter (fun x => decide (d ≤ x.t ∧ x.t ≤ d + 10000000000))
    let mine := sortBy (fun (x y : Sched) => decide (x.t ≤ y.t)) (c.field.sched.filter (fun x => x.cls == n) ++ keep)
    let c := c.bumpBy (0x2210 + n) 0x10 (late.length + far.length + (mine.length - 32))
    let c := late.foldl (fun c x => c.applySched x) c
    c.modField (fun f => { f with sched := f.sched.filter (fun x => x.cls != n) ++ mine.take 32 })
  else c

/-- The outputs of a class are driven from its dispatches: alone, active, or the standby in hot shadow (Table 06-4). -/
def Chip.drives (c : Chip) : Bool := c.acts || c.pairState == psStandbyReady

/-- Publish the sealed cycle of class n at D (Table 02-3). The time of its publications is D with the flags of the time pair of M, which
both chips of a pair hold alike (R186, log 110). -/
def Chip.publish (c : Chip) (n : Nat) (g : ClsCfg) (cy : Cycle) : Chip :=
  let k := c.cl n
  let old := k.pub
  let rd := fun a => ioWorking k a
  let c := c.modCl n (fun k => { k with
    prev := some ⟨cy.d, k.pub, k.undisp, k.stopAt, k.kept, k.boxFr, k.boxCy, k.boxOld⟩,
    pub := cy.work.foldr (fun p m => WMem.set m p.1 p.2) k.pub, boxFr := cy.marks, boxCy := cy.cy, boxOld := [], everDisp := true, undisp := [],
    kept := [], stopAt := none, safeAt := none, cycle := none })
  let c := c.wrPair (0x2210 + n) 0x0D (c.pairAt cy.d)
  let c := if c.drives then
      let c := c.flushSched n cy.d
      let c := g.doOut.foldl (fun c p => c.dispatchDo p.1 ((rd p.2.1).getLsbD p.2.2)) c
      let c := g.aoOut.foldl (fun c p => c.dispatchAo p.1 (fieldOf (rd p.2).toNat 31 0) (fieldOf (rd p.2).toNat 47 44)) c
      c.handSched n cy.d cy.sched
    else c
  let dPair := TimePair.of cy.d cy.mPair.w1.toNat
  let c := if c.acts then c.goosePublish n rd dPair
    else if c.pairState = psStandbyReady then
      (if c.pair.ownHash.any (fun p => p.1 == cy.d && c.pair.partnerHash.contains p) then c.goosePublish n rd dPair
      else c.modPair (fun p => { p with heldFrames := p.heldFrames ++ [(dPair, n)] }))
    else c
  let c := c.canPublish n rd cy.d
  let c := if cy.rcl then
      (c.modMember n (fun x => flipIn { x with lastIn := c.pairAt cy.d })).wrPair (0x2C10 + n) 0x04 (c.pairAt cy.d)
    else c
  let c := if cy.cnf then c.confirmTrial (clsRegion k) else c
  match g.trigger with
  | some (a, b) => if (rd a).getLsbD b && !(WMem.get old a).getLsbD b then c.triggerCapture n else c
  | none => c

/-- A cycle not sealed at its D overruns (R60): the next release is skipped and the cycle waits for the following dispatch
instant. -/
def Chip.overrun (c : Chip) (n : Nat) (g : ClsCfg) (cy : Cycle) : Chip :=
  let c := (c.setBit 0x2200 0x05 n true).bump (0x2210 + n) 0x0A
  c.modCl n (fun k => { k with
    skipAt := some (nextRelease g ((cy.d + tickNs - 1) / tickNs) * tickNs),
    cycle := some { cy with d := cy.d + cfgPeriod g } })

/-- A pending safe state of class n whose instant has come is taken (R32, R67). -/
def Chip.takeSafe (c : Chip) (n : Nat) (t : Instant) : Chip :=
  match (c.cl n).safeAt with
  | some d =>
    if d ≤ t then
      let c := c.modCl n (fun k => { k with safeAt := none })
      if c.drives then c.safeOutputs n else c
    else c
  | none => c

/-- The cycle of class n whose dispatch instant has come: sealed by its D it is published, otherwise it overruns (R56, R60). -/
def Chip.dispatchCycle (c : Chip) (n : Nat) (t : Instant) : Chip :=
  match (c.cl n).cycle, (c.cl n).cfg with
  | some cy, some g =>
    if cy.d ≤ t then
      if sealedBy cy cy.d then
        let c := match cy.eocAt with
          | some e => if cy.sealed then c else c.sealCycle n cy e
          | none => c
        ((c.ensureHash cy.d).publish n g { cy with sealed := true }).copyClass n
      else (c.ensureHash cy.d).overrun n g cy
    else c
  | _, _ => c

/-- The instant at which class n next has something to dispatch. -/
def Chip.dispatchDue (c : Chip) (n : Nat) : Option Instant :=
  match (c.cl n).safeAt, (c.cl n).cycle with
  | some d, some cy => some (min d cy.d)
  | some d, none => some d
  | none, some cy => some cy.d
  | none, none => none

/-- What class n dispatches by t. -/
def Chip.dispatchBy (c : Chip) (n : Nat) (t : Instant) : Chip :=
  match c.dispatchDue n with
  | some d => if d ≤ t then ((c.at_ t).takeSafe n t).dispatchCycle n t else c
  | none => c

/-- DISPATCH of class n: a pending safe state is taken, then the cycle whose dispatch instant has come is published, or
overruns (R32, R56, R60, R67). -/
def execDispatch (t : Instant) (cls : Fin 16) (s : State) : Host.Outcome State Fault Refusal :=
  s.onChip (fun c => c.dispatchBy cls.val t)

/-- Every dispatch due by t, in the order of the instants and of the classes (R57: a dispatch at a muster's own instant comes first). -/
def Chip.dispatchAll (c : Chip) (t : Instant) : Chip :=
  let due := (List.range 16).filterMap (fun n => (c.dispatchDue n).map (fun d => (d, n)))
  (sortBy (fun (a b : Nat × Nat) => decide (a.1 ≤ b.1)) (due.filter (fun p => decide (p.1 ≤ t)))).foldl
    (fun c p => c.dispatchBy p.2 t) c

/-- On a chip that no longer acts, the edits and commands that it accepted are refused with "role changed" at the musters that would take
them (R193). -/
def Chip.refuseRole (c : Chip) (n : Nat) (m : Instant) : Chip :=
  if c.releasedAt n m then
    let r := clsRegion (c.cl n)
    let mine (q : Queued) : Bool := q.cls == n && before m q.stamp && c.dict.waiting.any (fun w => w.1 == qOrig q && w.2.1 == q.csn)
    let gone := (c.region r).queue.filter mine
    let c := c.modRegion r (fun x => { x with queue := x.queue.filter (fun q => !mine q) })
    gone.foldl (fun c q => c.answerWaiting (qOrig q) q.csn (.abort abRole)) c
  else c

/-- The musters of every class released at t: what dispatches at or before t has dispatched; on a chip that acts, edits are applied if
they have not been, then each class takes its items and commands (R45-R50). On a standby, whose cycles start under R181, each class
forms the image of its own items (R184). -/
def Chip.musterAll (c : Chip) (t : Instant) : Chip :=
  let c := c.dispatchAll t
  let c := (c.at_ t).forAll (List.range 16) (fun c n => c.countSkip n t)
  if c.acts then
    let c := c.forAll (List.range 4) (fun c r => c.applyEdits r t)
    (c.forAll (List.range 16) (fun c n => c.musterClass n t)).sendSeals
  else
    let c := c.forAll (List.range 16) (fun c n => c.refuseRole n t)
    if c.pairState = psStandbyReady then c.forAll (List.range 16) (fun c n => if c.executes n t then c.freezeOwn n t else c) else c

/-- MUSTER at M of every class released. -/
def execMuster (t : Instant) (s : State) : Host.Outcome State Fault Refusal :=
  s.onChip (fun c => if isTick t then c.musterAll t else c)

end Sys2Proof.Machine
end

