-- ==== Sys2Proof/Machine/SystemOps.lean ====
section
/-! DEFINITION. What resets the management subsystem, changes the role of the chip in a pair, hands the chip's work to the
partner, and what a chip keeps when it goes down (06, 11, 13, 15). -/

namespace Sys2Proof.Machine

/-! ### Outputs released, classes at rest -/

/-- Every DO off and every AO at 0 mA, scheduled writes gone, while the die is refreshed on (Table 06-4); a running pulse completes, as
the level is commanded like an ordinary one (R269, R272). -/
def Chip.releaseOutputs (c : Chip) : Chip :=
  let c := c.modField (fun f => { f with sched := [] })
  if c.field.linkUp && c.fieldAlive && !c.field.failing then
    let c := c.forAll (List.range 24) (fun c n =>
      (c.modDo n (fun x => { x with cmd := false, lastDisp := none })).forceDo n false)
    c.forAll (List.range 4) (fun c o => (c.modAo o (fun x => { x with lastDisp := none })).applyAo o 0 false)
  else c

/-- No class executes: cycles under way are dropped, classes that ran wait again (Table 06-4). -/
def Chip.restClasses (c : Chip) : Chip :=
  c.forAll (List.range 16) (fun c n =>
    let c := c.forAll (clsTeam (c.cl n)) (fun c e => c.modWork e restWork)
    let c := c.modCl n (fun k => { k with cycle := none, held := none, skipAt := none, safeAt := none })
    if isBusy (c.clState n) then c.toState n csLoaded else c)

/-! ### Roles (R172, R178) -/

/-- Whether a pair state executes the classes: alone, hot shadow, active. -/
def executesIn (st : Nat) : Bool := st == psAlone || st == psStandbyReady || st == psActive

/-- What this chip's CAPS carry (Table 06-2). -/
def Chip.ownCaps (c : Chip) : Caps where
  stepping := 176
  firmware := c.rd 0x2514 0x07
  protocol := Config.pairProtocol
  appHash := (c.targets.take 4).map (·.hash)
  measHash := (c.target 5).hash
  weights := c.power.weights

/-- The timebase of a new active (R302): Locked where its own offset is within ±1 µs and it has a grandmaster selected, else Holdover from now. -/
def Chip.ownTime (c : Chip) : Chip :=
  if c.net.tb.gm.isSome ∧ (c.rdw 0x2A00 0x03).toInt.natAbs ≤ 1000 then (c.setTb 2).modTb (fun b => { b with goodSync := 0, badSync := 0 })
  else c.holdover c.now

/-- Take the pair state to `st`; a change of role, and every other change with a cause, is reported with its instant (0x2400.11, .12;
R172). Items, edits and commands of seals that are held stay for their releases (R188). Outputs are released and
classes rest where the state executes none; the baton toggles in ACTIVE alone; CAN ports follow the role; a chip that leaves the pair's work
aborts its updates (R210). CAPS are sent on entry to
JOINING, FENCE on entry to FENCED (Table 06-2). -/
def Chip.setPair (c : Chip) (st cause : Nat) : Chip :=
  let old := c.pairState
  let c := (c.forAll (List.range 4) (fun c k => c.settleWire k c.now)).wr 0x2400 0x03 st
  let c := if (old == psActive || old == psStandbyReady) && !(st == psActive || st == psStandbyReady) then c.abortUpdates 20 else c
  let c := if cause = 0 ∧ (old == psActive) = (st == psActive) then c else (c.wr 0x2400 0x12 cause).wrPair 0x2400 0x11 (c.pairAt c.now)
  let c := c.modPair (fun p => { p with
    began := c.now, baton := st == psActive, released := !executesIn st, listenOnly := !(st == psActive || st == psAlone),
    joinedAt := if st = psJoining then c.now else p.joinedAt,
    readySince := if st = psStandbyReady then some c.now else none, copying := false,
    synced := if executesIn st then p.synced else [], sharedSynced := executesIn st && p.sharedSynced,
    heldRel := if st = psStandbyReady then p.heldRel else [], heldFrames := if st = psStandbyReady then p.heldFrames else [],
    fencedBy := if st = psFenced then cause else p.fencedBy, fwdItems := if (st = psStandbyReady && old != psActive) || st = psActive then p.fwdItems else [],
    sealNow := [], lost := false,
    seals := if st = psStandbyReady || st = psActive then p.seals else [], abandoned := if executesIn st then 0 else p.abandoned,
    pages := [], discr := [], ownHash := if executesIn st then p.ownHash else [],
    partnerHash := if executesIn st then p.partnerHash else [],
    grant := none, asked := false })
  let c := if executesIn st then c else (c.releaseOutputs).restClasses
  let tb := c.rd 0x2A00 0x01
  let c := if st = psStandbyReady then c.setTb 4
    else if tb = 4 then (if st = psActive ∨ st = psAlone then c.ownTime else c.setTb (if c.net.tb.gm.isSome then 1 else 0)) else c
  let c := c.forAll (List.range 4) (fun c k => c.syncCan k)
  if st = psJoining then c.send (.caps c.ownCaps) else if st = psFenced then c.send (.fence cause) else c

/-- The link carries frames again: a chip fenced for a split link joins; a joining chip sends its CAPS. -/
def Chip.onbexBack (c : Chip) : Chip :=
  let c := c.modPair (fun p => { p with lsnIn := none, missing := [] })
  if c.pairState = psFenced ∧ c.pair.fencedBy = 7 then c.setPair psJoining 0
  else if c.pairState = psJoining then c.send (.caps c.ownCaps)
  else c

/-- Chip abdication with cause 11 (Table 06-5): ABDICATE is sent, the outputs are released, the chip is FENCED. -/
def Chip.abdicateChip (c : Chip) : Chip := (c.send (.abdicate 11)).setPair psFenced 11

/-- The chip can hand over: active with the partner ready; a standby that meets a chip fault fences itself too. -/
def Chip.canAbdicate (c : Chip) : Bool :=
  c.partnerReady || c.pairState == psStandbyReady || c.pairState == psSynchronising

/-! ### The management subsystem (R221, R328, R378, R434) -/

/-- The ROM enrols member 16 alone and the configuration is open for 2 s (R378): 65 536 counts. -/
def Chip.romEnrol (c : Chip) : Chip :=
  let c := c.forAll ((List.range 16).map (· + 16)) (fun c m => if (c.member m).on_ then c.withdrawMember m else c)
  let c := (c.enrolMember 16 2000000 0 2000000).modWd (fun w => { w with lockAt := w.count + 65536 })
  c.wr 0x2C00 0x03 0

/-- Every session ends and its identifier is remembered (R328). -/
def Chip.dropSessions (c : Chip) : Chip :=
  c.modDict (fun d => { d with
    ended := d.ended ++ d.sessions.map (·.sid), sessions := [], hellos := [], sdo := none, sdoPos := 0, waiting := [] })

/-- The MSS is reset (R221): sessions end, nothing answers, the servo holds over, the ROM enrols anew. -/
def Chip.mssReset (c : Chip) : Chip :=
  let c := c.dropSessions.modDict (fun d => { d with mssUp := false })
  let c := c.romEnrol
  let st := c.rd 0x2A00 0x01
  let c := if st = 2 then c.holdover c.now else if st = 1 then c.setTb 0 else c
  c.modTb (fun b => { b with goodSync := 0, badSync := 0, gm := none, ann := [], lastAnn := none, other := [], slave := none })

/-! ### Going down (R341, R384, R402, R413) -/

/-- Registers that outlive the core's supply: what flash, the identity area, PD0 and the field die hold. The last change of role stands until
the next start-up clears it (log 93). -/
def keepsReg (k : Nat) : Bool :=
  let k := k % 0x1000000
  let ix := k / 256
  let sub := k % 256
  decide ((ix = 0x2000 ∧ sub = 0x09) ∨ (ix = 0x2400 ∧ (sub = 0x02 ∨ sub = 0x11 ∨ sub = 0x12)) ∨ 
    (0x2510 ≤ ix ∧ ix < 0x2516 ∧ 0x06 ≤ sub) ∨ (0x2810 ≤ ix ∧ ix < 0x286C) ∨
    (ix = 0x2600 ∧ (sub = 0x10 ∨ sub = 0x11)) ∨ (ix = 0x2800 ∧ (sub = 0x02 ∨ sub = 0x03)) ∨
    (ix = 0x2B00 ∧ 0x02 ≤ sub ∧ sub ≤ 0x08) ∨ (ix = 0x2D00 ∧ (sub = 0x01 ∨ sub = 0x04 ∨ sub = 0x05)) ∨
    (0x2C10 ≤ ix ∧ ix < 0x2C30 ∧ sub = 0x04) ∨ (ix = 0x2E00 ∧ sub = 0x0B))

/-- Images stay in their banks; a transfer in progress is lost (R220). -/
def coldTarget (x : Target') : Target' :=
  { Target'.reset with
    app := x.app, prevApp := x.prevApp, meas := x.meas, prevMeas := x.prevMeas, arcNew := x.arcNew,
    hash := x.hash, otherHash := x.otherHash }

/-- What is left of the chip without its core supply: PD0, flash, the identity area, the glass of the panel, and the field die,
whose link is lost. The frames sent to the partner stand as sent, and the identifiers of the sessions that end so are remembered (R328). -/
def Chip.cold (c : Chip) : Chip :=
  { Chip.reset with
    now := c.now, free := c.free, regs := c.regs.filter (fun p => keepsReg p.1),
    pair := { Pair.reset with sideB := c.pair.sideB, store := c.pair.store, lsnOut := c.pair.lsnOut, fencedBy := if c.pairState = psFenced then c.pair.fencedBy else 0 },
    targets := c.targets.map coldTarget,
    meas := { Meas.reset with
      stored := c.meas.stored, named := c.meas.named, nextNum := c.meas.nextNum, campOn := c.meas.campOn,
      campStages := c.meas.campStages, campSeq := c.meas.campSeq, campRel := c.meas.campRel },
    field := { c.field with linkUp := false, deliver := 0, pendSet := [] },
    net := { Net.reset with sent := c.net.sent },
    dict := { Dict.reset with answers := c.dict.answers, ended := c.dropSessions.dict.ended, used := c.dict.used },
    store := { c.store with queue := [], held := [] },
    ident := c.ident, die := { c.die with work := [] },
    recd := { c.recd with queue := [] },
    cal := c.cal, campRecs := c.campRecs,
    wd := { c.wd with members := c.wd.members.map (fun x => { Member.reset with lastIn := x.lastIn }) },
    panel := { Panel.reset with trimCh := 0 },
    power := { c.power with readyN := true, overTemp := false } }

/-- The chip restarts with a start-up cause of 0x2000.0A: no refresh reaches the field die any more, and start-up runs from step 1. After a
repeated watchdog expiry PD11 stays in range for the flash die's operation, and the events queued are recorded (R384, R385). A camp path that
runs on does so until the first grid sample (R415). -/
def Chip.goDown (c : Chip) (cause : Nat) : Chip :=
  let evs := if cause = 3 then c.recd.queue else []
  let keep : BitVec 16 := (if cause = 3 then 0x4801#16 else 0x4001#16) ||| (if c.meas.campOn then 0x2000#16 else 0)
  (c.cold.modRec (fun r => { r with queue := evs })).modPower (fun p => { p with
    phase := .stopped, restartCause := cause, stopAt := none, domains := (p.domains &&& keep) ||| 2#16 })

/-- A chip fault: abdication where the partner can take over, a restart otherwise (note to Table 01-12). A chip that has
abdicated stays FENCED until its restart, whose start-up has cause 2 (Table 06-5). -/
def Chip.chipFault (c : Chip) (cause : Nat) : Chip :=
  if c.canAbdicate then c.abdicateChip.modPower (fun p => { p with restartCause := 2 }) else c.goDown cause

end Sys2Proof.Machine
end

