-- ==== Sys2Proof/Machine/Watchdog.lean ====
section
/-! DEFINITION. The roll-call watchdog (R376-R386): check-ins, windows, failures and evidence. -/

namespace Sys2Proof.Machine

/-- Units of 1/15 625 count in one count; one microsecond is 512 of them (R380). -/
def countUnits : Nat := 15625
def unitsOf (us : Nat) : Nat := us * 512
/-- The first count at or above an exact instant in units. -/
def ceilCount (z : Int) : Int := -((-z) / countUnits)

/-- The origin of a member's periods, in units: a − (o + c)/2. -/
def origin (x : Member) (a : Nat) : Int := (a * countUnits : Nat) - ((x.o + x.c) * 256 : Nat)
/-- Open and close ticks of window k (R380). -/
def openTick (x : Member) (a k : Nat) : Int := ceilCount (origin x a + (k * unitsOf x.p + unitsOf x.o : Nat))
def closeTick (x : Member) (a k : Nat) : Int := ceilCount (origin x a + (k * unitsOf x.p + unitsOf x.c : Nat))
/-- The count by which a member that has not armed fails. -/
def armBy (x : Member) : Nat := x.e + (unitsOf x.p + countUnits - 1) / countUnits

/-- Kinds of failure (Table 13-5). -/
abbrev kMissing : Nat := 0
abbrev kOutside : Nat := 1
abbrev kDouble : Nat := 2

/-- PCs of the works of a failing class, each marked valid where the write of the evidence completes, which the device does not tell beforehand
(R382, log 127); none for a firmware member (Table 13-5). -/
def Chip.evidencePcs (c : Chip) (m : Nat) : List Nat :=
  if m < 16 then (clsTeam (c.cl m)).map (fun e => (if Config.evidenceWritten c.free then 2 ^ 15 else 0) + (c.work e).arch.pc) else []

/-- What the event record of a failure carries of its evidence: bytes 12 to 27 of the slot, the count, mask, first member, kind and PC of the
MSS core (R382; DESIGN CHOICE, log 127). -/
def Chip.evidenceDetail (c : Chip) : List Byte := match c.wd.ev1 with
  | some e => leBytes e.cnt 6 ++ leBytes e.fmk 4 ++ leBytes e.mbr 1 ++ leBytes e.knd 1 ++ leBytes e.mpc 4
  | none => []

/-- Capture the evidence of a failure (R382): slot 0 keeps the oldest, slot 1 the latest; failures of one count share it. The PC of
the MSS core is free (log 6). -/
def Chip.captureEvidence (c : Chip) (m kind : Nat) : Chip :=
  let n := c.wd.count
  let fresh : Evidence := ⟨c.pairAt c.now, n, 2 ^ m, m, kind, (Config.freeWord c.free).toNat % 2 ^ 32, c.evidencePcs m,
    c.wd.members.map (·.lastIn)⟩
  let c := c.draw
  let add (e : Evidence) : Evidence := { e with fmk := e.fmk ||| 2 ^ m }
  c.modWd (fun w => match w.ev1 with
    | some x => if x.cnt = n then
        { w with ev1 := some (add x), ev0 := w.ev0.map (fun y => if y.cnt = n then add y else y) }
      else { w with ev0 := some (w.ev0.getD fresh), ev1 := some fresh }
    | none => { w with ev0 := some (w.ev0.getD fresh), ev1 := some fresh })

/-- A transfer or check under way is aborted by a watchdog expiry (R219): the bank is incomplete, reason code 18. -/
def Chip.abortTransfers (c : Chip) (reason : Nat) : Chip :=
  c.forAll (List.range 6) (fun c t =>
    let st := c.rd (0x2510 + t) 0x05
    if st = 1 ∨ st = 2 then c.abortUpdate t reason else c)

/-- A member that is watched: enrolled and not failed at an earlier count. -/
def watched (x : Member) : Bool := x.on_ && x.failAt.isNone

/-- A member fails as missing by count n: not armed in time, or its window closed without a check-in (R380, R381). -/
def missingBy (x : Member) (n : Nat) : Bool := watched x && (match x.armed with
  | none => decide (armBy x ≤ n)
  | some a => decide (closeTick x a x.k ≤ n) && !x.got)

/-- A failure is captured, counted and shown at its member (R382, Table 13-6). -/
def Chip.noteFailure (c : Chip) (m kind : Nat) : Chip :=
  let n := c.wd.count
  let c := c.captureEvidence m kind
  let c := ((c.bump 0x2C00 0x04).bump (0x2C10 + m) 0x06).wr (0x2C10 + m) 0x07 3
  (c.modMember m (fun x => { x with failAt := some n, armed := none })).setBit 0x2C00 0x02 m false

/-- What the watchdog does at the failure of a member (R383, R384). Firmware members whose failure falls at the same count fail with it, before
the reset of the MSS withdraws them: the second of them is the second failure of R384. -/
def Chip.failMember (c : Chip) (m kind : Nat) : Chip :=
  let n := c.wd.count
  let c := c.noteFailure m kind
  if m < 16 then
    let r := clsRegion (c.cl m)
    let c := (c.bump 0x2100 0x06).event 0x0D01 sevMajor 10 m c.evidenceDetail
    (c.stopClass m csProgFault).failTrial r
  else
    let again := match c.wd.lastFw with
      | some f => decide (n < f + 327680)
      | none => false
    let with_ := ((List.range 16).map (· + 16)).filter (fun x => x != m && missingBy (c.member x) n)
    let again := again || !with_.isEmpty
    let c := (c.modWd (fun w => { w with lastFw := some n })).event 0x0D02 sevCritical 10 m c.evidenceDetail
    let c := c.forAll with_ (fun c x => let c := c.noteFailure x kMissing; c.event 0x0D02 sevCritical 10 x c.evidenceDetail)
    let c := (((c.abortTransfers 18).failTrial 4).mssReset).bump 0x2C00 0x05
    if again then
      let c := c.event 0x0D03 sevCritical 10 m []
      if c.partnerReady then c.abdicateChip.modPower (fun p => { p with restartCause := 2 }) else c.goDown 3
    else c

/-- Count a check-in in the window of period k. -/
def Chip.countIn (c : Chip) (m k : Nat) : Chip :=
  (c.modMember m (fun x => { x with k := k, got := true })).bump (0x2C10 + m) 0x05

/-- The check-in of a member arrives at the present count (R379-R381). A window that ends here is closed first. -/
def Chip.arriveIn (c : Chip) (m : Nat) (merged : Bool) : Chip :=
  let n := c.wd.count
  let x := c.member m
  match x.armed with
  | none =>
    if armBy x ≤ n then c.failMember m kMissing
    else if merged then c.failMember m kDouble
    else
      let c := c.modMember m (fun x => { x with armed := some n })
      ((c.countIn m 0).wr (0x2C10 + m) 0x07 2).setBit 0x2C00 0x02 m true
  | some a =>
    let closed := decide (closeTick x a x.k ≤ n)
    if closed && !x.got then c.failMember m kMissing
    else
      let k := if closed then x.k + 1 else x.k
      let got := !closed && x.got
      if closeTick x a k ≤ n then c.failMember m kMissing
      else if merged then c.failMember m kDouble
      else if n < openTick x a k then c.failMember m kOutside
      else if got then c.failMember m kDouble
      else c.countIn m k

/-- CHECK_IN: the toggle of member m reaches PD0, with its merge flag, and is acknowledged (R406). A class checked in at a dispatch, and its
synchroniser holds the flag; a firmware task checks in by its register, where the command says whether two writes merged. -/
def execCheckIn (t : Instant) (m : Fin 32) (merged : Bool) (s : State) : Host.Outcome State Fault Refusal :=
  s.onChip (fun c =>
    let m := m.val
    if m < 16 then
      if (c.member m).signal then
        let flag := (c.member m).mergeFlag
        let c := (c.at_ t).modMember m ackIn
        if watched (c.member m) then c.arriveIn m flag else c
      else c
    else if c.dict.mssUp then
      let p := c.pairAt t
      let c := ((c.at_ t).modMember m (fun x => { x with lastIn := p })).wrPair (0x2C10 + m) 0x04 p
      if watched (c.member m) then c.arriveIn m merged else c
    else c)

/-- A configuration within R376. -/
def rollOk (p o cl : Nat) : Bool := decide (1000 ≤ p ∧ p ≤ 10000000 ∧ o < cl ∧ cl ≤ p ∧ 1000 ≤ cl - o)

/-- WATCHDOG_CONFIGURE by the firmware, before the lock: enrol or withdraw members 16 to 31 and set their windows; member 16 is
never withdrawn (R378). One that is enrolled already has p, o and c set alone. -/
def execWatchdogConfigure (m : Fin 32) (enrol : Bool) (p o cl : Nat) (s : State) : Host.Outcome State Fault Refusal :=
  s.onChip (fun c =>
    if c.rd 0x2C00 0x03 = 0 ∧ c.wd.count < c.wd.lockAt ∧ 16 ≤ m.val ∧ c.dict.mssUp = true then
      if enrol then
        (if rollOk p o cl then
          if (c.member m.val).on_ then (c.modMember m.val (fun x => { x with p := p, o := o, c := cl })).showWindow m.val p o cl
          else c.enrolMember m.val p o cl
        else c)
      else if m.val = 16 then c else c.withdrawMember m.val
    else c)

/-- CONFIGURATION_LOCK: 2 s after the ROM enrolled member 16 (R378). -/
def execConfigurationLock (s : State) : Host.Outcome State Fault Refusal :=
  s.onChip (fun c => if c.rd 0x2C00 0x03 = 0 ∧ c.wd.lockAt ≤ c.wd.count then c.wr 0x2C00 0x03 1 else c)

/-- ARMING_DEADLINE: no first check-in by ⌈e + p⌉ (R380). -/
def execArmingDeadline (t : Instant) (m : Fin 32) (s : State) : Host.Outcome State Fault Refusal :=
  s.onChip (fun c =>
    let x := c.member m.val
    if watched x = true ∧ x.armed = none ∧ armBy x ≤ c.wd.count then (c.at_ t).failMember m.val kMissing else c)

/-- WINDOW_CLOSE: the close tick of the member's window has come; without a check-in counted the member fails (R381). -/
def execWindowClose (t : Instant) (m : Fin 32) (s : State) : Host.Outcome State Fault Refusal :=
  s.onChip (fun c =>
    let x := c.member m.val
    match x.armed with
    | some a =>
      if watched x = true ∧ closeTick x a x.k ≤ c.wd.count then
        let c := c.at_ t
        if x.got then c.modMember m.val (fun x => { x with k := x.k + 1, got := false }) else c.failMember m.val kMissing
      else c
    | none => c)

/-- EVIDENCE_RELEASE: both slots empty (R382). -/
def execEvidenceRelease (a : Acc) (v : Nat) (s : State) : Host.Outcome State Fault Refusal :=
  s.onChip (fun c => c.writeNum a 0x2C00 0x08 v (fun c _ => .ok (c.modWd (fun w => { w with ev0 := none, ev1 := none }))))

end Sys2Proof.Machine
end

