-- ==== Sys2Proof/Machine/Faults.lean ====
section
/-! DEFINITION. Hardware faults, rollback and relief, self-tests, fences and fabric weights (01, 05). -/

namespace Sys2Proof.Machine

/-! ### Rollback (R156) -/

/-- Undo one entry of work e, whose class is n. -/
def Chip.undoOne (c : Chip) (e n : Nat) (u : Undo) : Chip :=
  match u with
  | .dword a old => c.modDbank e (fun m => WMem.set m a old)
  | .gword a old => c.modRegion (e / 8) (fun r => { r with gmem := WMem.set r.gmem a old })
  | .ioword a old => c.modCl n (fun k => { k with cycle := k.cycle.map (fun cy =>
      { cy with work := (a, old) :: cy.work.filter (fun p => p.1 != a) }) })
  | .sent ev mask => c.modWork e (fun w => { w with sup := (ev, mask) :: w.sup })
  | .consumed ev => c.modWork e (fun w => { w with flags := NMem.set w.flags ev 1 })
  | .cleared ev old => c.modWork e (fun w => { w with flags := NMem.set w.flags ev (bit01 old) })
  | .mark off => c.modCl n (fun k => { k with cycle := k.cycle.map (fun cy => { cy with marks := cy.marks.filter (· != off) }) })

/-- Keep the first m scheduled writes of work e, and all those of other works. -/
def keepSched (e m : Nat) : List Sched → Nat → List Sched
  | [], _ => []
  | x :: l, i => if x.work = e then (if i < m then x :: keepSched e m l (i + 1) else keepSched e m l (i + 1)) else x :: keepSched e m l i

/-- Roll work e of class n back to its valid milestone: newest entries first, later scheduled writes discarded, the snapshot or the
entry state of R149 loaded; the work waits for its relief. -/
def Chip.rollback (c : Chip) (e n : Nat) : Chip :=
  let c := c.modWork e (fun w => { w with sup := [] })
  let c := (c.work e).undo.foldl (fun c u => c.undoOne e n u) c
  let x := validSlot (c.work e)
  let swn := if x.ent then 0 else x.swn
  let c := c.modCl n (fun k => { k with cycle := k.cycle.map (fun cy => { cy with
    sched := keepSched e swn cy.sched 0,
    done := if (c.work e).run = .done then cy.done - 1 else cy.done, eocAt := none }) })
  let entry := match (c.cl n).cfg with
    | some g => nth 0 g.entries (memberIndex (c.cl n) e)
    | none => 0
  c.modWork e (fun w => { w with
    arch := if x.ent then Arch.entry entry else x.arch, issued := if x.ent then 0 else x.isb,
    flights := [], delay := 0, target := none, bundle := emptyBundle, undo := [], sinceMs := 0, lastGst := none, ended := none,
    run := .abdicated, saved := .idle })

/-- A member held for a dropped program fault goes on at once; one whose event has come meanwhile consumes it (R28). -/
def resumeMember (w : Work) : Work :=
  match w.run with
  | .teamHeld =>
    (match w.saved with
      | .waitEvent ev =>
        if NMem.has w.flags ev then addUndo { w with flags := NMem.set w.flags ev 0, run := .issuing, saved := .idle } (.consumed ev)
        else { w with run := .waitEvent ev, saved := .idle }
      | r => { w with run := r, saved := .idle })
  | _ => w

/-- A hardware fault of the engine of work e drops the program fault held for it (R28). -/
def Chip.dropHeld (c : Chip) (e n : Nat) : Chip :=
  match (c.cl n).held with
  | some h =>
    if h.work = e then
      (c.forAll (clsTeam (c.cl n)) (fun c m => c.modWork m resumeMember)).modCl n (fun k => { k with held := none })
    else c
  | none => c

/-! ### Engine faults (R145, R155, R161-R163) -/

/-- The work that a silicon serves. -/
def Chip.workOf (c : Chip) (sil : Nat) : Option Nat :=
  ((List.range 8).map (· + 8 * regOf sil)).find? (fun e => c.servedBy e == codeOf sil)

/-- A cycle of class n is under way and not sealed. -/
def Chip.unsealed (c : Chip) (n : Nat) : Bool := match (c.cl n).cycle with
  | some cy => !(cy.sealed || sealedBy cy c.now)
  | none => false

/-- Whether the relief of its region can take work e, a fault of whose silicon is at hand: relief state 0, or a planned swap of this
very work between the member's `eoc` and the seal (R168). -/
def Chip.reliefFor (c : Chip) (e : Nat) : Bool :=
  let r := e / 8
  (c.region r).attach.isNone &&
    (c.reliefState r == 0 ||
      (c.reliefState r == 2 && decide ((c.work e).run = .done) && c.unsealed ((c.classOf e).getD 16) && (match (c.region r).swap with
        | some (x, _) => x == e
        | none => false)))

/-- The relief of its region is called for work e of class n, whose silicon `sil` failed with source `src`. -/
def Chip.callRelief (c : Chip) (e n sil src : Nat) : Chip :=
  let c := c.dropHeld e n
  let inCycle := c.unsealed n
  let undone := (c.work e).undo.length
  let at_ := match (c.work e).run with
    | .faulted _ => (c.work e).faultAt
    | _ => c.now
  let c := c.modWork e (fun w => { w with faultAt := at_, atFault := w.issued })
  let c := if inCycle then c.rollback e n else c.modWork e (fun w => { restWork w with run := .abdicated })
  (c.modRegion (e / 8) (fun x => { x with
    attach := some ⟨e, sil, src, if inCycle then undone else 0, !inCycle, c.now⟩, swap := none })).setReliefState (e / 8) 1

/-- A hardware engine fault found in a silicon is counted and recorded (R26). -/
def Chip.engineFound (c : Chip) (sil src : Nat) : Chip :=
  (c.bump 0x2100 0x05).event 0x0110 sevMajor 0 sil (beBytes src 1)

/-- A hardware engine fault of silicon `sil` (R145): it fences itself; the relief takes over where it can, and otherwise the class
stops or the chip abdicates (Table 05-7). A relief that fails as it attaches leaves the work with its first silicon, whose class stops
and which is tested for its own position (R165); a relief silicon is tested to become relief again (Table 01-7). -/
def Chip.engineFault (c : Chip) (sil src : Nat) : Chip :=
  if c.silFenced sil then c
  else
    let r := regOf sil
    let c := (c.engineFound sil src).setBit 0x2100 0x01 sil true
    match c.workOf sil with
    | some e =>
      (match c.classOf e with
        | none => c.queueTest sil .ownPosition false
        | some n =>
          if c.reliefFor e then c.callRelief e n sil src
          else if c.canAbdicate then c.chipFault 0
          else (c.stopHw n (.silicon sil)).queueTest sil .ownPosition false)
    | none =>
      if c.reliefSil r = codeOf sil then
        (match (c.region r).attach with
          | some a =>
            if c.canAbdicate then c.chipFault 0
            else
              let c := match c.classOf a.work with
                | some n => c.stopHw n (.silicon a.silFailed)
                | none => c
              let c := c.modWork a.work (fun w => { w with run := .idle })
              let c := (c.modRegion r (fun x => { x with attach := none })).setReliefState r 4
              (c.queueTest a.silFailed .ownPosition false).queueTest sil .reliefPass false
          | none =>
            ((c.modRegion r (fun x => { x with swap := none })).setReliefState r 4).queueTest sil .reliefPass false)
      else c

/-! ### Other hardware faults (Table 01-6, Table 01-7, Table 05-7) -/

/-- A fault of the whole chip whose restart, where no partner takes over, has no cause in 0x2000.0A: the cause is free (log 32). -/
def Chip.wholeFault (c : Chip) : Chip := c.draw.chipFault ((Config.freeWord c.free).toNat % 16)

/-- An uncorrectable error in a bank or undo buffer of position e: a bank fence and the stop of every class with a member there,
or chip abdication (Table 05-7). A fenced bank has no port through which another error could be found. -/
def Chip.bankFault (c : Chip) (e : Nat) (k : BankKind) : Chip :=
  if (c.region (e / 8)).banks.contains (e, k) then c
  else
    let c := (c.bump 0x2100 0x05).event 0x0111 sevMajor 0 e []
    if c.canAbdicate then c.chipFault 0
    else
      let c := (c.setBit 0x2100 0x02 (12 + e) true).setBit 0x2100 0x02 (e / 4) true
      let c := c.modRegion (e / 8) (fun x => { x with banks := (e, k) :: x.banks })
      match c.classOf e with
      | some n => c.stopHw n (.bank e k)
      | none => c

/-- The fence of a bank that a resynchronisation has rewritten ends (Table 01-7). -/
def Chip.bankRewritten (c : Chip) (e : Nat) (k : BankKind) : Chip :=
  let c := c.modRegion (e / 8) (fun x => { x with banks := x.banks.filter (· != (e, k)) })
  let held (p : Nat) : Bool := (c.region (e / 8)).banks.any (fun b => b.1 == p)
  let c := if held e then c else c.setBit 0x2100 0x02 (12 + e) false
  if ((List.range 4).map (· + e / 4 * 4)).any held then c else c.setBit 0x2100 0x02 (e / 4) false

/-- Region r is fenced and every class of it stops (Table 01-7); the items at its port and the items queued toward it are discarded and
counted (R31), each waiting request answered "refused in state". -/
def Chip.fenceRegion (c : Chip) (r : Nat) : Chip :=
  let c := c.setBit 0x2100 0x02 (8 + r) true
  let mine := (List.range 16).filter (fun n => (c.cl n).cfg.isSome && clsRegion (c.cl n) == r)
  let c := c.forAll mine (fun c n => c.stopHw n .region)
  let c := c.forAll mine (fun c n => (c.bumpBy 0x2100 0x08 (c.cl n).items.length).modCl n (fun k => { k with items := [] }))
  let gone := (c.region r).queue
  let c := (c.bumpBy 0x2100 0x08 gone.length).modRegion r (fun x => { x with queue := [] })
  gone.foldl (fun c q => c.answerWaiting (qOrig q) q.csn (.abort abState)) c

/-- An uncorrectable error in region memory: counted and recorded also where the region is fenced already, as scrubbing goes on there
(R26). -/
def Chip.regionFault (c : Chip) (r : Nat) : Chip :=
  let c := (c.bump 0x2100 0x05).event 0x0112 sevMajor 0 r []
  if c.bit 0x2100 0x02 (8 + r) then c else if c.canAbdicate then c.chipFault 0 else c.fenceRegion r

/-- A die or port is fenced (R31): what crosses from it and what waits to be sent on it is discarded and counted, while a CAN frame under way completes; the field and sense
dies lose their link. -/
def Chip.fencePort (c : Chip) (p : Nat) : Chip :=
  let c := if 10 ≤ p ∧ p < 14 then c.settleWire (p - 10) c.now else c
  let gone := (c.crossing.filter (fun i => i.1 == p)).length + (if 10 ≤ p ∧ p < 14 then c.canQueued (p - 10) else 0)
  let c := { c with crossing := c.crossing.filter (fun i => i.1 != p) }
  let c := (c.bumpBy 0x2100 0x08 gone).setBit 0x2100 0x03 p true
  let c := c.modPower (fun x => { x with fencesDue := setFieldOf x.fencesDue p p 0 })
  let c := if p = 0 then (c.modField (fun f => { f with linkUp := false })).wr 0x2800 0x01 3
    else if p = 1 then c.modMeas (fun m => { m with senseLost := true, lostAt := c.now }) else c
  if 10 ≤ p ∧ p < 14 then c.syncCan (p - 10) else c

/-- The UNIT of a die fault: 0 core, 1 base, 2 field, 3 sense, 4 flash; a port as 16 and its bit (log 31). -/
def dieUnit (p : Nat) : Nat := if p = 0 then 2 else if p = 1 then 3 else if p = 2 then 4 else 16 + p

/-- What is known of a fault of a die or port: its link is lost, its supply is out of range, or neither. -/
inductive PortCause where
  | link | supply | other
  deriving DecidableEq, Repr

/-- Mark the cause of a fence; of the field and sense dies one that no link shows is marked too (R37). -/
def Chip.markCause (c : Chip) (p : Nat) : PortCause → Chip
  | .link => c.modPower (fun x => { x with linkLost := setFieldOf x.linkLost p p 1 })
  | .supply => c.modPower (fun x => { x with supplyOut := setFieldOf x.supplyOut p p 1 })
  | .other => if p ≤ 1 then c.modPower (fun x => { x with supplyOut := setFieldOf x.supplyOut p p 1 }) else c

/-- A hardware fault of a die or port (bit of Table 01-12); bit 3 is none. A fault found on a function already fenced is counted and
recorded too (R26), and a release of its fence that has not taken effect lapses. -/
def Chip.portFault (c : Chip) (p : Nat) (k : PortCause) : Chip :=
  if p = 3 then c else (((c.bump 0x2100 0x05).event 0x0113 sevMajor 0 (dieUnit p) []).markCause p k).fencePort p

/-- A hardware fault of the core (0) or base (1) die or of the MSS: a chip fault (note to Table 01-12). -/
def Chip.coreFault (c : Chip) (unit : Nat) : Chip := ((c.bump 0x2100 0x05).event 0x0113 sevMajor 0 unit []).wholeFault

/-- A hardware fault as it is found. -/
def Chip.hardFault (c : Chip) (f : HwFault) : Chip :=
  match f with
  | .engine sil src => c.engineFault sil.val src.val
  | .iBank e => c.bankFault e.val .instr
  | .dBank e => c.bankFault e.val .data
  | .undoBuffer e => c.bankFault e.val .undo
  | .regionMemory r => c.regionFault r.val
  | .port p => c.portFault p.val .other
  | .mss => c.coreFault 0
  | .baseDie => c.coreFault 1

/-- The chip runs: READY has been raised and nothing has taken it down. -/
def Chip.running (c : Chip) : Bool := c.power.phase == .ready

/-- HARDWARE_FAULT. -/
def execHardwareFault (t : Instant) (f : HwFault) (s : State) : Host.Outcome State Fault Refusal :=
  s.onChip (fun c => if c.running then (c.at_ t).hardFault f else c)

/-- A relief that takes its work: in a cycle that is not sealed it issues, unless a program fault of the team holds every member (R28,
R108); otherwise the work waits for its next taken muster (R161, R162). -/
def attachWork (issues held : Bool) (w : Work) : Work :=
  if issues then (if held then { w with run := .teamHeld, saved := .issuing } else { w with run := .issuing }) else { w with run := .idle }

/-- Δ of a takeover at t (R159): from the fault to the bundle of the fault, or, where the member starts a cycle late, from its muster; 0
where it starts none late. -/
def takeoverDelay (a : Attach) (w : Work) (cycle : Option Cycle) (t : Instant) : Nat :=
  match cycle with
  | some cy => if a.entry then t - cy.m else (t - w.faultAt) + (w.atFault - w.issued)
  | none => 0

/-- The relief of region r attaches (R158, R162): it serves the work from now on; the takeover is counted and recorded, and the failed
silicon waits for its test. -/
def Chip.attachRelief (c : Chip) (r : Nat) (a : Attach) : Chip :=
  let by_ := c.reliefSil r
  let n := c.classOf a.work
  let cycle := match n with
    | some n => if c.unsealed n then (c.cl n).cycle else none
    | none => none
  let held := match n with
    | some n => (c.cl n).held.isSome
    | none => false
  let delta := takeoverDelay a (c.work a.work) cycle c.now
  let c := (c.relieve a.work).modWork a.work (attachWork cycle.isSome held)
  let detail := setFieldOf (setFieldOf (setFieldOf (setFieldOf 0 39 36 a.src) 35 32 by_) 31 18 a.undone) 4 0 a.work
  let c := (c.bump 0x2300 0x05).wrPair 0x2300 0x09 (c.pairAt a.faultAt)
  let c := ((c.wr 0x2300 0x0A detail).wr 0x2300 0x0B delta).wr 0x2300 0x08 (max (c.rd 0x2300 0x08) delta)
  let c := c.event 0x0501 sevInfo 1 a.work (leBytes detail 6)
  (c.modRegion r (fun x => { x with attach := none })).queueTest a.silFailed .asRelief false

/-- RELIEF_ATTACH. -/
def execReliefAttach (t : Instant) (r : Fin 4) (s : State) : Host.Outcome State Fault Refusal :=
  s.onChip (fun c =>
    match (c.region r.val).attach with
    | some a => if c.running then (c.at_ t).attachRelief r.val a else c
    | none => c)

/-! ### Self-tests (R165, R168, R169) -/

/-- UNIT of a self-test event (R437): the work that the silicon serves, else the relief silicon of its region, which one tested as relief is; a
silicon that is neither is named by the work of its own position (DEDUCED, log 135). -/
def Chip.testUnit (c : Chip) (sil : Nat) (k : TestKind) : Nat :=
  let r := regOf sil
  match k, c.workOf sil with
  | .asRelief, _ | .reliefPass, _ => 32 + r
  | _, some e => e
  | _, none => if c.reliefSil r = codeOf sil then 32 + r else sil

/-- The result of the test of a silicon. The failure of a test that a write of 0x2300.30 asked for is a hardware fault found (R26), of
which the source is free (log 6). -/
def Chip.testDone (c : Chip) (sil : Nat) (k : TestKind) (asked pass : Bool) : Chip :=
  let r := regOf sil
  let unit := c.testUnit sil k
  let c := if asked && !pass then c.draw.engineFound sil (Config.faultSource c.free % 5) else c
  let c := (c.setBit 0x2300 0x31 sil (!pass)).setBit 0x2100 0x01 sil (!pass)
  let c := if pass then c.event 0x0502 sevInfo 1 unit [] else c.event 0x0503 sevMajor 1 unit []
  match k with
  | .asRelief => if pass then (c.setReliefSil r (codeOf sil)).setReliefState r 0 else c.setReliefState r 4
  | .reliefPass => c.setReliefState r (if pass then 0 else 4)
  | .ownPosition | .inPlace =>
    if pass then c
    else
      match c.workOf sil with
      | some e =>
        let c := c.setServed e 15
        (match c.classOf e with
          | some n => c.stopHw n (.silicon sil)
          | none => c)
      | none => c

/-- SELF_TEST_COMPLETE of the silicon whose test runs: the first that waits in its region, once no takeover is under way. -/
def execSelfTestComplete (t : Instant) (sil : Silicon) (pass : Bool) (s : State) : Host.Outcome State Fault Refusal :=
  s.onChip (fun c =>
    match (c.region (regOf sil.val)).tests with
    | (x, k, asked) :: rest =>
      if x = sil.val then ((c.at_ t).modRegion (regOf sil.val) (fun y => { y with tests := rest })).testDone sil.val k asked pass else c
    | [] => c)

/-- IDLE_SELF_TEST of an engine that issues nothing: a failure is a hardware engine fault, of which the source is free (log 6). -/
def execIdleSelfTest (t : Instant) (sil : Silicon) (pass : Bool) (s : State) : Host.Outcome State Fault Refusal :=
  s.onChip (fun c =>
    let idle := match c.workOf sil.val with
      | some e => decide ((c.work e).run = .idle ∨ (c.work e).run = .done)
      | none => true
    if c.running = true ∧ idle = true then
      if pass then c.at_ t else (c.at_ t).draw.engineFault sil.val (Config.faultSource c.free % 5)
    else c)

/-- A request for a self-test of region r is in progress (R169). -/
def Chip.testAsked (c : Chip) (r : Nat) : Bool := (c.region r).swap.isSome || (c.region r).tests.any (fun p => p.2.2)

/-- What a write of 0x2300.30 does (R168, R169). A class in state 2 or 3 is a running one here (DEDUCED, log 106); a request for a work that no
silicon serves is refused with "busy" (DESIGN CHOICE, log 107). -/
def Chip.selfTest (c : Chip) (v : Nat) : Except Nat Chip :=
  if 32 ≤ v then
    let r := v - 32
    match c.reliefState r with
    | 0 => .ok ((c.setReliefState r 3).queueTest (silOf r (c.reliefSil r)) .reliefPass true)
    | 1 | 4 => .error abState
    | _ => .error abBusy
  else
    let r := v / 8
    let sil := silOf r (c.servedBy v)
    let running := match c.classOf v with
      | some n => isBusy (c.clState n)
      | none => false
    if running then
      match c.reliefState r with
      | 0 => .ok ((c.modRegion r (fun x => { x with swap := some (v, false) })).setReliefState r 2)
      | 1 | 4 => .error abState
      | _ => .error abBusy
    else if c.testAsked r = true ∨ c.servedBy v = 15 then .error abBusy
    else if (c.classOf v).isSome = true ∧ c.reliefState r = 0 then
      .ok (((c.relieve v).bump 0x2300 0x06).queueTest sil .asRelief true)
    else .ok ((c.setBit 0x2100 0x01 sil true).queueTest sil .inPlace true)

def execSelfTestRequest (a : Acc) (v : Nat) (s : State) : Host.Outcome State Fault Refusal :=
  s.onChip (fun c => c.writeNum a 0x2300 0x30 v (fun c _ => c.selfTest (fieldOf v 5 0)))

/-- PLANNED_SWAP_PREPARE: 1 µs after the member's `eoc` the relief is ready for the seal. -/
def execPlannedSwapPrepare (t : Instant) (r : Fin 4) (s : State) : Host.Outcome State Fault Refusal :=
  s.onChip (fun c =>
    match (c.region r.val).swap with
    | some (e, false) =>
      if (c.work e).run = .done then (c.at_ t).modRegion r.val (fun x => { x with swap := some (e, true) }) else c
    | _ => c)

/-! ### Release and end of fences (R35, R37) -/

/-- Whether the cause of the fence of port p is gone: a lost link is up again, the link of an Ethernet or the Onbex port is up; of a
supply, a PHY, a SerDes or a transceiver nothing in the device shows it, and it is free (log 33). -/
def Chip.causeGone (c : Chip) (p : Nat) : Bool :=
  if p ≤ 1 then !c.power.linkLost.testBit p && (!c.power.supplyOut.testBit p || Config.causeGone p c.free)
  else if 4 ≤ p ∧ p < 8 then c.bit (0x2910 + (p - 4)) 0x03 0 && Config.causeGone p c.free
  else if p = 14 then c.bit 0x2400 0x0A 0 && Config.causeGone p c.free
  else Config.causeGone p c.free

/-- What a write of 0x2100.30 does. -/
def Chip.releaseFences (c : Chip) (v : Nat) : Except Nat Chip :=
  let asked := (List.range 16).filter (fun p => v.testBit p && c.portFenced p)
  if asked.all (fun p => c.causeGone p) then
    .ok (c.draw.modPower (fun x => { x with fencesDue := asked.foldl (fun m p => setFieldOf m p p 1) x.fencesDue }))
  else .error abState

def execFenceRelease (a : Acc) (v : Nat) (s : State) : Host.Outcome State Fault Refusal :=
  s.onChip (fun c => c.writeNum a 0x2100 0x30 v (fun c _ => c.releaseFences v))

/-- Whether bit p of Table 01-12 carries the traffic of an Ethernet port: its own, or that of the SerDes port that replaced it (R284). -/
def Chip.via (c : Chip) (p port : Nat) : Bool :=
  p == 4 + port || (nth 0 c.net.serdes port != 0 && p == 7 + nth 0 c.net.serdes port)
/-- Whether bit p of Table 01-12 carries the traffic of one of the ports of a list. -/
def Chip.viaAny (c : Chip) (p : Nat) (ports : List Nat) : Bool := ports.any (fun x => c.via p x)

/-- Whether a source comes through port p. -/
def Chip.srcUses (c : Chip) (p : Nat) (src : ItemSrc) : Bool :=
  portOf src == p || (match src with
    | .grid ch => if ch < 16 then p == 1 else c.viaAny p [0, 1, 2, 3]
    | .computed _ _ | .eventWord _ => p == 1 || c.viaAny p [0, 1, 2, 3]
    | .goose _ _ | .gooseNums _ => c.viaAny p [0, 1, 2, 3]
    | .remote _ => c.viaAny p [0, 1, 2, 3] || (10 ≤ p && p < 14)
    | _ => false)

/-- Whether class n reads from or writes to the function behind port p: its input items, its outputs (Table 02-3), its triggers, and on
the Onbex link the images and dispatches of every class of a pair. -/
def Chip.usesPort (c : Chip) (n p : Nat) : Bool :=
  let k := c.cl n
  match k.cfg with
  | none => false
  | some g =>
    g.inputs.any (fun x => c.srcUses p x.src) || g.remote.any (fun x => c.srcUses p (.remote x.module)) ||
      (p == 0 && (!g.doOut.isEmpty || !g.aoOut.isEmpty)) ||
      c.net.tx.any (fun x => match x.cfg with
        | some d => d.cls == n && ((d.station && c.viaAny p (busPorts false)) || (d.process && c.viaAny p (busPorts true)))
        | none => false) ||
      (10 ≤ p && p < 14 && (c.canp (p - 10)).tx.any (fun x => x.obj.cls == n)) ||
      (p == 14 && c.pair.inForce) || (p == 15 && (g.trigger.isSome || g.pageReq.isSome))

/-- The field port opens again (R440): the core reads the die's state as it stands, its levels, latest changes, counters, frequencies and
conversions, and the events of the outage. A die that was reset in the outage is rediscovered with it and is owed its outputs; one still in
reset stays behind a closed crossing (R259, R260, R409). -/
def Chip.openField (c : Chip) (t : Instant) : Chip :=
  if c.field.inReset then c.wr 0x2800 0x01 1
  else
    let wasReset := match c.field.resetAt with
      | some r => decide (c.field.discAt ≤ r)
      | none => false
    let evs := c.field.events
    let c := c.modField (fun f => { f with
      linkUp := true, events := [], discAt := if wasReset then t else f.discAt, deliver := if wasReset then allOutputs else f.deliver })
    let c := (c.wr 0x2800 0x01 2).releaseNotes
    let c := evs.foldl (fun c x => c.eventAs t 0x0940 sevInfo false 5 x.1 0 0
      (leBytes (bit01 x.2.1) 1 ++ wordsLe [x.2.2.w0, x.2.2.w1])) c
    let c := c.forAll (List.range 48) (fun c d => match (c.di d).acc with
      | some p => if (c.di d).crossed ≠ (c.di d).changes then c.pushRecord d p else c
      | none => c)
    let c := c.pushField ⟨.diLevel, c.levelAt, [c.levelWord], 0, false⟩
    let c := c.forAll (List.range 48) (fun c d => (c.di d).lats.foldl (fun c l => c.pushLatch d l) c)
    let c := c.forAll (List.range 8) (fun c a => (c.aich a).convs.foldl (fun c x => c.pushConversion a x) c)
    c.pushSupply t

/-- FENCE_END at a muster boundary of every running class that uses the function: the fence bit clears and the ports open (R35). A measurement
engine begins its windows anew. -/
def execFenceEnd (t : Instant) (p : PortBit) (s : State) : Host.Outcome State Fault Refusal :=
  s.onChip (fun c =>
    let p := p.val
    let users := (List.range 16).filter (fun n => isBusy (c.clState n) && c.usesPort n p)
    if c.power.fencesDue.testBit p = true ∧ c.portFenced p = true ∧ isTick t = true ∧
        users.all (fun n => match (c.cl n).cfg with
          | some g => cfgReleased g (tickNo t)
          | none => true) = true then
      let c := (c.at_ t).setBit 0x2100 0x03 p false
      let c := c.modPower (fun x => { x with fencesDue := setFieldOf x.fencesDue p p 0, supplyOut := setFieldOf x.supplyOut p p 0 })
      let c := if p = 0 then c.openField t
        else if p = 1 then c.modMeas (fun m => { m with senseLost := false, chans := m.chans.map (fun x => { x with recent := [] }) })
        else if p = 15 then c.modMeas (fun m => { m with
          chans := m.chans.map (fun x => { x with recent := [] }),
          sets := m.sets.map (fun x => { x with n0 := none, len := 0, samples := [], hist := [], fresh := true }) }) else c
      if 10 ≤ p ∧ p < 14 then c.syncCan (p - 10) else if p = 14 ∧ c.bit 0x2400 0x0A 0 = true then c.onbexBack else c
    else c)

/-- The field link is lost: pair-parallel loop outputs go to 0 mA without waiting for the fail action (R278). -/
def Chip.dropParallel (c : Chip) : Chip :=
  c.forAll ((List.range 4).filter (fun o => c.rd (0x2868 + o) 0x04 == 1 && c.fieldAlive)) (fun c o =>
    (c.driveAo o 0 false).modField (fun f => { f with deliver := setFieldOf f.deliver (24 + o) (24 + o) 1 }))

/-- DIE_LINK_LOSS (Table 01-7). -/
def execDieLinkLoss (t : Instant) (d : Die) (s : State) : Host.Outcome State Fault Refusal :=
  s.onChip (fun c =>
    if c.running then
      match d with
      | .field => (c.at_ t).dropParallel.portFault 0 .link
      | .sense => (c.at_ t).portFault 1 .link
    else c)

/-- DIE_LINK_REGAINED: the cause of the die's fence is gone and the die is discovered; its fence ends under R35 (R440). -/
def execDieLinkRegained (t : Instant) (d : Die) (s : State) : Host.Outcome State Fault Refusal :=
  s.onChip (fun c =>
    let p := match d with
      | .field => 0
      | .sense => 1
    if c.running = true ∧ c.portFenced p = true then
      (c.at_ t).modPower (fun x => { x with fencesDue := setFieldOf x.fencesDue p p 1, linkLost := setFieldOf x.linkLost p p 0 })
    else c)

/-! ### Scrubbing, clocks and supply monitors (R15, R402, R404) -/

/-- The corrected word of a scrubbing read is written back. -/
def Chip.scrubWrite (c : Chip) (a : ScrubAt) (w : Nat) : Chip :=
  match a with
  | .iBank e b => c.modIbank e.val (fun m => NMem.set m b.toNat (w % 2 ^ 128))
  | .dBank e b => c.modDbank e.val (fun m => WMem.set m b.toNat (toWord w))
  | .region r b =>
    if inLedger b.toNat then c.modWork (8 * r.val + ledgerPos b.toNat) (fun x => setLedgerWord x b.toNat (toWord w))
    else c.modRegion r.val (fun x => { x with gmem := WMem.set x.gmem b.toNat (toWord w) })

/-- Scrubbing reaches a word: a fenced bank has no port through which it would (Table 01-7). -/
def Chip.scrubs (c : Chip) : ScrubAt → Bool
  | .iBank p _ => !(c.region (p.val / 8)).banks.contains (p.val, .instr)
  | .dBank p _ => !(c.region (p.val / 8)).banks.contains (p.val, .data)
  | .region _ _ => true

/-- SCRUB of one word. -/
def execScrub (t : Instant) (a : ScrubAt) (e : Ecc) (s : State) : Host.Outcome State Fault Refusal :=
  s.onChip (fun c =>
    if c.running && c.scrubs a then
      let c := c.at_ t
      match e with
      | .clean => c
      | .corrected w => (c.scrubWrite a w).bump 0x2100 0x07
      | .uncorrectable => (match a with
        | .iBank p _ => c.bankFault p.val .instr
        | .dBank p _ => c.bankFault p.val .data
        | .region r _ => c.regionFault r.val)
    else c)

/-- Fences of ports that share a domain or a clock: one fault, one fence each. -/
def Chip.portsFault (c : Chip) (unit : Nat) (k : PortCause) (ps : List Nat) : Chip :=
  c.forAll ps (fun c p => (c.markCause p k).fencePort p) |>.bump 0x2100 0x05 |>.event 0x0113 sevMajor 0 unit []

/-- The bits of Table 01-12 of the Ethernet ports, copper and SerDes, and of the CAN ports. -/
def etherBits : List Nat := [4, 5, 6, 7, 8, 9]
def canBits : List Nat := [10, 11, 12, 13]

/-- CLOCK_FAULT: the function a clock serves has a hardware fault; ECLK, FCLK, KCLK and the reference are the chip's. NCLK serves every
Ethernet port and CCLK every CAN port (Table 15-3), so that the port named adds nothing (log 34). PCLK and LFCLK serve functions that have no fence: the fault is counted and recorded (log 34). -/
def execClockFault (t : Instant) (k : Clock) (_port : PortBit) (s : State) : Host.Outcome State Fault Refusal :=
  s.onChip (fun c =>
    if c.running then
      let c := c.at_ t
      match k with
      | .eclk | .fclk | .kclk | .ref25 => c.coreFault 0
      | .mclk => c.portFault 15 .other
      | .nclk => c.portsFault 0 .other etherBits
      | .cclk => c.portsFault 0 .other canBits
      | .oclk => c.portFault 14 .other
      | .fdclk => c.portFault 0 .other
      | .sdclk => c.portFault 1 .other
      | .pclk | .lfclk => (c.bump 0x2100 0x05).event 0x0113 sevMajor 0 0 []
    else c)

/-! ### Fabric weights (R18, R20) -/

/-- What a write of a weight does: refused where the sum would exceed 64, else stored for the next start-up. -/
def Chip.setWeight (c : Chip) (port v len : Nat) : Except Nat Chip :=
  let others := (((List.range 13).filter (· != port)).map (fun p => c.rd 0x2100 (0x10 + p))).sum
  if 64 < others + v then .error abRange
  else c.stored 0x2100 (0x10 + port) (beBytes v len) (fun c => c.wr 0x2100 (0x10 + port) v)

def execFabricWeightWrite (a : Acc) (port : Fin 13) (v : Nat) (s : State) : Host.Outcome State Fault Refusal :=
  s.onChip (fun c => c.writeNum a 0x2100 (0x10 + port.val) v (fun c _ => c.setWeight port.val v a.len))

/-- PROGRAM_FAULT_HOLD_EXPIRY: 1.0 µs after its detection a program fault stands (R28). -/
def execProgramFaultHoldExpiry (t : Instant) (cls : Fin 16) (s : State) : Host.Outcome State Fault Refusal :=
  s.onChip (fun c =>
    match (c.cl cls.val).held with
    | some h => if h.t + 1000 ≤ t then (c.at_ t).programFault cls.val h else c
    | none => c)

end Sys2Proof.Machine
end

