-- ==== Sys2Proof/Machine/Phasors.lean ====
section
/-! DEFINITION. Numerics of the measurement engine (08): rounding, roots, angles, interpolation, and the quantities of Table 08-5. Sums and
products are exact; roots and angles are computed to within 2^-40 of a unit (log 8). -/

namespace Sys2Proof.Machine

/-! ### Rounding and roots -/

/-- The whole number nearest to a quotient; the direction of a tie, which no rule gives, is free (log 8). -/
def nearestOf (num : Int) (den : Nat) : Int :=
  let r := (2 * num + den) / (2 * den)
  if (2 * num + den) % (2 * den) = 0 ∧ Config.roundUp num den = false then r - 1 else r

/-- The whole number nearest to a rational. -/
def nearestRat (r : Rat) : Int := nearestOf r.num r.den

/-- The REAL32 nearest to a rational. -/
def ratF32 (r : Rat) : BitVec 32 := ratRealI r.num r.den

/-- The square root of a rational; 0 of a negative one. -/
def sqrtRat (r : Rat) : Rat := mkRat (Nat.sqrt (r.num.toNat * r.den * 2 ^ 80)) (r.den * 2 ^ 40)

def absRat (r : Rat) : Rat := if r < 0 then -r else r
def sumRat (l : List Rat) : Rat := l.foldl (· + ·) 0

/-! ### Angles: units of 2^-48 turn; sine and cosine in units of 2^-60 -/

/-- An angle in (−1/2, 1/2] turn. -/
def wrapTurn (a : Int) : Int :=
  let x := a % 2 ^ 48
  if 2 ^ 47 < x then x - 2 ^ 48 else x

/-- 2π in units of 2^-60. -/
def twoPi : Int := 7244019458077122842

/-- The terms t, −t·x²/((j+1)(j+2)), … of the series of sine and cosine. -/
def trigSum (x2 : Int) : Nat → Int → Nat → Int
  | 0, _, _ => 0
  | n + 1, t, j => t + trigSum x2 n (-(t * x2 / 2 ^ 60 / ((j + 1) * (j + 2) : Nat))) (j + 2)

def radians (a : Int) : Int := wrapTurn a * twoPi / 2 ^ 48
def cosAng (a : Int) : Int := trigSum (radians a * radians a / 2 ^ 60) 20 (2 ^ 60) 0
def sinAng (a : Int) : Int := trigSum (radians a * radians a / 2 ^ 60) 20 (radians a) 1

/-- The largest angle of the first quadrant that is not above that of (x, y), bit by bit. -/
def searchAng (x y : Rat) : Nat → Int → Int
  | 0, a => a
  | k + 1, a =>
    let b := a + 2 ^ k
    if b ≤ 2 ^ 46 ∧ (sinAng b : Rat) * x ≤ (cosAng b : Rat) * y then searchAng x y k b else searchAng x y k a

/-- The angle of a phasor in (−180°, +180°]; 0 of the zero phasor. -/
def argOf (z : Rat × Rat) : Int :=
  if z.1 = 0 ∧ z.2 = 0 then 0
  else
    let a := searchAng (absRat z.1) (absRat z.2) 47 0
    if z.1 < 0 then (if z.2 < 0 then a - 2 ^ 47 else 2 ^ 47 - a) else if z.2 < 0 then -a else a

/-- An angle in degrees. -/
def degrees (a : Int) : Rat := (a * 360 : Int) / (2 ^ 48 : Rat)

/-! ### Phasors -/

def cAdd (a b : Rat × Rat) : Rat × Rat := (a.1 + b.1, a.2 + b.2)
def cScale (k : Rat) (a : Rat × Rat) : Rat × Rat := (k * a.1, k * a.2)
def cMul (a b : Rat × Rat) : Rat × Rat := (a.1 * b.1 - a.2 * b.2, a.1 * b.2 + a.2 * b.1)
def cConj (a : Rat × Rat) : Rat × Rat := (a.1, -a.2)
def cSq (a : Rat × Rat) : Rat := a.1 * a.1 + a.2 * a.2
/-- e^{jα}. -/
def cUnit (a : Int) : Rat × Rat := ((cosAng a : Rat) / 2 ^ 60, (sinAng a : Rat) / 2 ^ 60)
/-- The operator a = e^{j120°} of Table 08-5. -/
def cA : Rat × Rat := cUnit (2 ^ 48 / 3)

/-- The angle of n samples at frequency f. -/
def sampleAng (f : Rat) (n : Nat) : Int := (f * n * 2 ^ 48 / 16000).floor

/-- (1/N) Σ x[n] e^{−jk·2πfn/16000}. -/
def dftOf (f : Rat) (k : Nat) (x : List Rat) : Rat × Rat :=
  cScale (1 / (x.length : Rat)) ((x.zipIdx).foldl (fun z p => cAdd z (cScale p.1 (cUnit (-(sampleAng f (k * p.2)))))) (0, 0))

/-- The fundamental phasor of a window in RMS units: its DFT at f, corrected for the difference between the window's length and a cycle. Of
what the correction is the manual says no more; this one gives every sinusoid of frequency f its phasor (DESIGN CHOICE, log 8): with
X = c + conj(c)·D for such a sinusoid, D the mean of e^{−j4πfn/16000}, it solves for c, and is void where D = 0. -/
def fundamental (f : Rat) (x : List Rat) : Rat × Rat :=
  let d := dftOf f 2 (x.map (fun _ => 1))
  let z := cScale (sqrtRat 2) (dftOf f 1 x)
  let k := 1 - cSq d
  if k = 0 then z else cScale (1 / k) (cAdd z (cScale (-1) (cMul d (cConj z))))

/-- True RMS. -/
def rmsOf (x : List Rat) : Rat := sqrtRat (sumRat (x.map (fun v => v * v)) / (x.length : Rat))

/-- The three sequence components of phasors of phases A, B, C: zero, positive, negative (Table 08-5). -/
def sequences (a b c : Rat × Rat) : List (Rat × Rat) :=
  let a2 := cMul cA cA
  [cScale (1 / 3) (cAdd (cAdd a b) c), cScale (1 / 3) (cAdd (cAdd a (cMul cA b)) (cMul a2 c)),
   cScale (1 / 3) (cAdd (cAdd a (cMul a2 b)) (cMul cA c))]

/-! ### Quantities per window (R237, R238) -/

/-- Numbers of the per-window quantities: 0-3 RMS of U, 4-7 of I, 8-11 fundamental RMS of U, 12-15 of I, 16-19 angle of U, 20-23 of I, 24-26
P, 27-29 Q, 30-32 S, 33-35 PF, 36-38 φ by phase, 39 P, 40 Q, 41 S, 42 PF, 43-45 sequence components of U, 46-48 of I, 49 frequency. -/
def quantities : Nat := 50

/-- The voltage of phase x of a sample, voltages first: against neutral with wiring 0, as it is with wiring 1, against L_B with wiring 2,
which makes the line voltages u_AB and u_CB and leaves nothing for B (R237, R238). -/
def phaseU (w : Nat) (v : List Rat) (x : Nat) : Rat :=
  if w = 0 then nth 0 v x - nth 0 v 3 else if w = 2 then nth 0 v x - nth 0 v 1 else nth 0 v x

/-- Series of quantity channel k over a window, voltages 0-3, currents 4-7. -/
def seriesOf (w : Nat) (pr : List (List Rat)) (k : Nat) : List Rat := pr.map (fun v => if k < 3 then phaseU w v k else nth 0 v k)

/-- Fundamental phasors of the 8 channels of a window. -/
def phasorsOf (w : Nat) (f : Rat) (pr : List (List Rat)) : List (Rat × Rat) := (List.range 8).map (fun k => fundamental f (seriesOf w pr k))

/-- A quotient that is 0 where its divisor is 0. -/
def ratio (a b : Rat) : Rat := if b = 0 then 0 else a / b

/-- The quantities of a window of samples in primary units (Table 08-5). With wiring 2 the two elements take the places of phases A and C. -/
def windowVals (w : Nat) (f : Rat) (pr : List (List Rat)) : List Rat :=
  let n : Rat := (pr.length : Rat)
  let rms := (List.range 8).map (fun k => rmsOf (seriesOf w pr k))
  let ph := phasorsOf w f pr
  let z (k : Nat) : Rat × Rat := nth (0, 0) ph k
  let p := (List.range 3).map (fun x => sumRat (pr.map (fun v => phaseU w v x * nth 0 v (4 + x))) / n)
  let q := (List.range 3).map (fun x => (cMul (z x) (cConj (z (4 + x)))).2)
  let s := (List.range 3).map (fun x => nth 0 rms x * nth 0 rms (4 + x))
  let seqU := sequences (z 0) (z 1) (z 2)
  let seqI := sequences (z 4) (z 5) (z 6)
  rms ++ ph.map (fun a => sqrtRat (cSq a)) ++ ph.map (fun a => degrees (argOf a)) ++ p ++ q ++ s ++
    (List.range 3).map (fun x => ratio (nth 0 p x) (nth 0 s x)) ++
    (List.range 3).map (fun x => degrees (wrapTurn (argOf (z x) - argOf (z (4 + x))))) ++
    [sumRat p, sumRat q, sumRat s, ratio (sumRat p) (sumRat s)] ++
    seqU.map (fun a => sqrtRat (cSq a)) ++ seqI.map (fun a => sqrtRat (cSq a)) ++ [f]

/-- The frequency from the advance of a positive-sequence angle over a window of `len` samples, which is close to one turn (R239: the rate of
change of the angle; taken between the starts of successive windows, DESIGN CHOICE, log 8). -/
def freqFrom (a0 a1 : Int) (len : Nat) : Rat := (1 + ((wrapTurn (a1 - a0) : Int) : Rat) / 2 ^ 48) * 16000 / (len : Rat)

/-! ### Samples (R227, R228, R233, R236) -/

/-- The cubic through four stamped samples, at an instant. -/
def cubicAt (l : List (Rat × Rat)) (t : Rat) : Rat :=
  sumRat ((l.zipIdx).map (fun p => (l.zipIdx).foldl (fun v q => if q.2 = p.2 then v else v * ratio (t - q.1.1) (p.1.1 - q.1.1)) p.1.2))

/-- Four-point cubic interpolation at t: the latest two samples not after t and the first two after it (R227); none where they are not all
there. -/
def interpolate (recent : List (Instant × Int)) (t : Rat) : Option Rat :=
  let old := recent.filter (fun p => decide ((p.1 : Rat) ≤ t))
  let new := recent.filter (fun p => decide (t < (p.1 : Rat)))
  if 2 ≤ old.length ∧ 2 ≤ new.length then
    some (cubicAt ((old.drop (old.length - 2) ++ new.take 2).map (fun p => ((p.1 : Rat), (p.2 : Rat)))) t)
  else none

/-- Linear interpolation between two values, `num / den` of the way from the first. -/
def linearAt (a b : Int) (num den : Nat) : Int := nearestOf (a * (den - num : Nat) + b * num) den

/-- Correction of the integrator with a high-pass corner at 0.2 Hz at fundamental f: its gain, and its lead in nanoseconds, those of one pole
(R228; the order of the corner is DESIGN CHOICE, log 8). -/
def rogowski (f : Rat) : Rat × Rat :=
  if f = 0 then (1, 0)
  else
    let x := 1 / (5 * f)
    (sqrtRat (1 + x * x), ((argOf (1, x) : Int) : Rat) / 2 ^ 48 / f * 1000000000)

end Sys2Proof.Machine
end

