-- ==== Sys2Proof/Machine/Measure.lean ====
section
/-! DEFINITION. The measurement engine (08): the grid, local channels and their calibration, streams, computed quantities, energy,
events, captures and camp mode. -/

namespace Sys2Proof.Machine

/-! ### Units and configuration -/

def Chip.chan (c : Chip) (ch : Nat) : Chan := nth Chan.reset c.meas.chans ch
def Chip.modChan (c : Chip) (ch : Nat) (f : Chan → Chan) : Chip := c.modMeas (fun m => { m with chans := modNth Chan.reset f m.chans ch })
def Chip.stream (c : Chip) (k : Nat) : Stream := nth Stream.reset c.meas.streams k
def Chip.modStream (c : Chip) (k : Nat) (f : Stream → Stream) : Chip := c.modMeas (fun m => { m with streams := modNth Stream.reset f m.streams k })
def Chip.mset (c : Chip) (s : Nat) : MSet := nth MSet.reset c.meas.sets s
def Chip.modSet (c : Chip) (s : Nat) (f : MSet → MSet) : Chip := c.modMeas (fun m => { m with sets := modNth MSet.reset f m.sets s })

/-- Configuration of stream k and of computed set s. -/
def Chip.streamCfg (c : Chip) (k : Nat) : Option StreamCfg := match c.meas.image with
  | some im => im.streams.find? (fun x => x.num == k)
  | none => none
def Chip.setCfg (c : Chip) (s : Nat) : Option SetCfg := match c.meas.image with
  | some im => im.sets[s]?
  | none => none
def Chip.nominal (c : Chip) : Nat := c.rd 0x2600 0x04

/-- Camp stages of a current channel: from 1 % to 400 % of the range peak divided by √2, in units of range peak ÷ 16 384, and rising (R251). -/
def stagesOk (x : ChanCfg) : Bool :=
  let ok (s : Nat) : Bool := decide (2 ^ 28 ≤ 20000 * s * s ∧ 2 * s * s ≤ 16 * 2 ^ 28)
  ok x.stage1 && ok x.stage2 && decide (x.stage1 < x.stage2)

/-- The reporting rates of synchrophasors by nominal frequency (R241). -/
def phasorRates (nominal : Nat) : List Nat := if nominal = 60 then [10, 12, 15, 20, 30, 60, 120] else [10, 25, 50, 100]

/-- Checks of a measurement configuration: streams and their number (R231), camp stages of the current channels (R251), reporting rates (R241),
publications (R236), computed sets (R237), captures (R247). -/
def measOk (im : MeasImage) : Bool :=
  im.streams.all (fun x => decide (x.num < 16) &&
      ((x.rate == 4800 && x.asdus == 1) || (x.rate == 14400 && decide (1 ≤ x.asdus ∧ x.asdus ≤ 3)))) &&
    (im.chans.zipIdx).all (fun p => p.2 % 8 < 4 || stagesOk p.1) &&
    im.sets.all (fun f => f.source == 0x3F || (phasorRates im.nominal).contains (fieldOf f.phasor 7 0)) &&
    im.pubs.all (fun p => p.2 == 4800 || p.2 == 14400) &&
    decide (im.streams.length ≤ 16 ∧ im.pubs.length ≤ 2 ∧ im.sets.length ≤ 8 ∧ im.capChans.length ≤ 32 ∧
      im.pre ≤ 1000 ∧ 10 ≤ im.post ∧ im.post ≤ 10000)

/-- The window length after an estimate: round(16 000 / f), or that of the nominal frequency where the estimate is Invalid (R237). -/
def Chip.windowLen (c : Chip) (s : Nat) : Nat :=
  let x := c.mset s
  if x.freqQ = 2 ∨ x.freq ≤ 0 then (if c.nominal = 60 then 267 else 320) else (nearestRat (16000 / x.freq)).toNat

/-- The configuration that the samples of grid instant g are taken under: one that replaces another at a second boundary leaves the samples
before it to the old one (R249). -/
def Chip.imageAt (c : Chip) (g : Instant) : Option MeasImage := if g < c.meas.newFrom then c.meas.oldImage else c.meas.image

/-- The first computed set of source src. -/
def Chip.setOf (c : Chip) (src : Nat) : Option Nat := (List.range 8).find? (fun s => match c.setCfg s with
  | some f => f.source == src
  | none => false)

/-- The sample of grid instant g is the first of a fundamental-cycle window of the set of source src; without a computed set every instant
is a boundary (DEDUCED, log 111). -/
def Chip.startsWindow (c : Chip) (src : Nat) (g : Instant) : Bool := match c.setOf src with
  | some s => (match (c.mset s).n0 with
    | some n => g == n + tickNs || g == n + ((c.mset s).len + 1) * tickNs
    | none => true)
  | none => true

/-- The sample released next is the first of a window of source src. -/
def Chip.atBoundary (c : Chip) (src : Nat) : Bool := match c.meas.lastG with
  | some l => c.startsWindow src (l + tickNs)
  | none => true

/-- The results of a set carry Questionable until its next full window (R222, R249). -/
def questionable (x : MSet) : MSet :=
  { x with fresh := true, results := x.results.map (fun p => (p.1, toWord (setFieldOf p.2.toNat 47 44 (qMin (fieldOf p.2.toNat 47 44) 1)))) }

/-- The settings of computed set s that come from the image, as none gives them (Table 08-15). -/
def Chip.clearSet (c : Chip) (s : Nat) : Chip :=
  let ix := 0x2630 + s
  let c := ((((c.wr ix 0x01 0x3F).wr ix 0x02 0).wr ix 0x03 0).wr ix 0x04 0).wr ix 0x05 0
  (((((c.wr ix 0x06 0x3F800000).wr ix 0x07 1000).wr ix 0x08 0x41A00000).wr ix 0x09 0)).wr (0x2700 + s) 0x09 0

/-- The settings of stream k that come from the image, as none gives them: not subscribed (Table 08-14). -/
def Chip.clearStream (c : Chip) (k : Nat) : Chip :=
  let ix := 0x2620 + k
  ((((c.wr ix 0x02 0).wr ix 0x03 0).wr ix 0x04 0).wr ix 0x08 0).wr ix 0x09 0

/-- The settings of local channel ch that come from the image, as none gives them (Table 08-13). -/
def Chip.clearChan (c : Chip) (ch : Nat) : Chip :=
  let ix := 0x2610 + ch
  ((((c.wr ix 0x01 0).wr ix 0x02 0).wr ix 0x03 0).wr ix 0x04 0).wr ix 0x08 0

/-- Put a measurement configuration in force: settings are reported, windows restart and results carry Questionable until a full
window; accumulators keep their values (R222, R255). Events that are active end with their windows, without an end record (DESIGN CHOICE,
log 128). Without one the settings are those of no image. -/
def Chip.installMeas (c : Chip) (im : Option MeasImage) : Chip :=
  let old : List Nat := match c.meas.image with
    | some i => i.streams.map (fun x => x.num)
    | none => []
  let new : List Nat := match im with
    | some i => i.streams.map (fun x => x.num)
    | none => []
  let c := c.modMeas (fun m => { m with
    image := im, oldImage := m.image, newFrom := c.now, lost := [], good := [],
    streams := (m.streams.zipIdx).map (fun p => if old.contains p.2 then p.1 else Stream.reset),
    sets := m.sets.map (fun x => { questionable x with
      n0 := none, len := 0, samples := [], freqQ := 2, angU := none, angI := none, aggs := List.replicate 5 (aggFrom c.now),
      seqRun := ⟨0, false⟩, neutRun := ⟨0, false⟩, revRun := ⟨0, false⟩ }) })
  let c := c.wr 0x2600 0x09 0
  match im with
  | none =>
    let c := ((c.wr 0x2600 0x01 0).wr 0x2600 0x02 0).wr 0x2600 0x04 50
    let c := c.forAll (List.range 16) (fun c ch => (c.clearChan ch).clearStream ch)
    c.forAll (List.range 8) (fun c s => c.clearSet s)
  | some im =>
    let c := ((c.wr 0x2600 0x01 im.inUse).wr 0x2600 0x02 (new.foldl (fun n k => setFieldOf n k k 1) 0)).wr 0x2600 0x04 im.nominal
    let c := (im.chans.zipIdx).foldl (fun c p =>
      let ix := 0x2610 + p.2
      ((((c.wr ix 0x01 p.1.range).wr ix 0x02 p.1.sensor).wr ix 0x03 p.1.scale.toNat).wr ix 0x04 (ofIntWord p.1.phase).toNat).wr ix 0x08
        (p.1.stage1 % 2 ^ 16 + p.1.stage2 % 2 ^ 16 * 2 ^ 16)) c
    let c := c.forAll (List.range 16) (fun c k => match im.streams.find? (fun x => x.num == k) with
      | some x =>
        let ix := 0x2620 + k
        let c := (((c.wr ix 0x02 x.rate).wr ix 0x03 x.asdus).wr ix 0x08 x.shift).wr ix 0x09 (bit01 x.local_)
        if old.contains k then c else c.wr ix 0x04 1
      | none => c.clearStream k)
    c.forAll (List.range 8) (fun c s => match im.sets[s]? with
      | some x =>
        let ix := 0x2630 + s
        let c := ((((c.wr ix 0x01 x.source).wr ix 0x02 x.wiring).wr ix 0x03 x.ratedU.toNat).wr ix 0x04 x.ratedI.toNat).wr ix 0x05 x.seq
        let c := (((c.wr ix 0x06 x.revThr.toNat).wr ix 0x07 x.revDelay).wr ix 0x08 x.neutThr.toNat).wr ix 0x09 x.phasor
        c.wr (0x2700 + s) 0x09 x.modes
      | none => c.clearSet s)

/-! ### The sample word (R226) -/

/-- A sample limited to 24 bits, and whether it was limited. -/
def limit24 (z : Int) : Int × Bool :=
  if 0x7FFFFF < z then (0x7FFFFF, true) else if z < -0x7FFFFF then (-0x7FFFFF, true) else (z, false)

/-- The grid sample word (Table 08-2). -/
def sampleWord (v : Int) (qc : Nat) (ovr cal mis chg : Bool) (src idx : Nat) : Word :=
  toWord ((v % 2 ^ 24).toNat * 2 ^ 24 + qc % 16 * 2 ^ 20 + bit01 ovr * 2 ^ 19 + bit01 cal * 2 ^ 18 + bit01 mis * 2 ^ 17 +
    bit01 chg * 2 ^ 16 + src % 4 * 2 ^ 14 + idx % 2 ^ 14)
def sampleVal (w : Word) : Int := (BitVec.ofNat 24 (fieldOf w.toNat 47 24)).toInt
def sampleQc (w : Word) : Nat := fieldOf w.toNat 23 20

/-- Index of a grid instant within its second. -/
def gridIdx (g : Instant) : Nat := tickNo g % 16000

/-! ### Local channels (R227, R228) -/

/-- SENSE_SAMPLE: a 64 kHz sample with its stamp; channel 16 is the calibration channel. The latest 64 are kept. -/
def execSenseSample (t : Instant) (ch : Fin 17) (stamp : Instant) (v : Int) (s : State) : Host.Outcome State Fault Refusal :=
  s.onChip (fun c =>
    if c.running = true ∧ c.meas.senseLost = false ∧ c.portFenced 15 = false ∧ stamp ≤ t then
      (c.at_ t).modChan ch.val (fun x => { x with recent := (x.recent ++ [(stamp, v)]).drop (x.recent.length + 1 - 64) })
    else c)

/-- The fundamental of the set of a source: its estimate, or the nominal frequency where that is Invalid. -/
def Chip.trackedFreq (c : Chip) (src : Nat) : Rat := match c.setOf src with
  | some s => if (c.mset s).freqQ = 2 then (c.nominal : Rat) else (c.mset s).freq
  | none => (c.nominal : Rat)

/-- The value of local channel ch at g before it is rounded (R227-R230): four-point cubic interpolation of the samples of the channel, or of the
calibration channel in its place; the phase correction, for a Rogowski coil that of the integrator, and the gain and offset in force. None
where the samples are not there. -/
def Chip.localValue (c : Chip) (im : MeasImage) (ch : Nat) (g : Instant) : Option Rat :=
  let x := c.chan ch
  let k := nth ⟨0, 0, 0, 0, 0, 0⟩ im.chans ch
  let r := if k.sensor = 1 then rogowski (c.trackedFreq (ch / 8)) else (1, 0)
  let cal : BitVec 32 × Int × Int := match c.meas.cal with
    | some z => (z.gain, z.offset, z.delay)
    | none => (0x3F800000, 0, 0)
  let co := nth (0x3F800000, 0) x.coefs (nth 0 c.meas.setBand (ch / 8))
  let at_ : Rat := ((g : Int) + k.phase : Int) - r.2
  if x.fromCal then
    (interpolate (c.chan 16).recent (at_ + (cal.2.2 : Rat))).map (fun v => (v * real32Rat cal.1 + cal.2.1) * r.1)
  else (interpolate x.recent at_).map (fun v => (v * real32Rat co.1 + co.2) * r.1)

/-- A source that is off the grid has a good sample again (R249). -/
def Chip.markGood (c : Chip) (src : Nat) : Chip :=
  if c.meas.lost.contains src && !c.meas.good.contains src then c.modMeas (fun m => { m with good := src :: m.good }) else c

/-- The grid sample of local channel ch at g. The last words are kept for publications. -/
def Chip.localSample (c : Chip) (im : MeasImage) (ch : Nat) (g : Instant) : Chip :=
  let x := c.chan ch
  let idx := gridIdx g
  let put (c : Chip) (w : Word) : Chip := c.modChan ch (fun x => { x with word := w, past := (x.past ++ [(g, w)]).drop (x.past.length + 1 - 16) })
  if im.inUse.testBit ch = false then put c (sampleWord 0 2 false false false false 3 idx)
  else match c.localValue im ch g with
    | none => put c (sampleWord 0 2 false false false false 0 idx)
    | some v =>
      let c := c.markGood (ch / 8)
      if c.meas.lost.contains (ch / 8) then put c (sampleWord 0 2 false false false false 0 idx)
      else
        let l := limit24 (nearestRat v)
        let q := if l.2 || x.calBad then 1 else 0
        let c := if l.2 then c.bump (0x2610 + ch) 0x07 else c
        (put c (sampleWord l.1 q l.2 x.fromCal false x.chg 0 idx)).modChan ch (fun x => { x with chg := false })

/-! ### Streams (R231-R235) -/

/-- A stream value after its scale shift: shifted right, rounded to nearest, limited to 24 bits (R234). The direction of a tie, which
the rule does not give, is free (log 8). -/
def streamVal (shift : Nat) (v : Int) : Int × Bool := limit24 (nearestOf v (2 ^ shift))

/-- The quality code of a stream value (R234): of the rows that apply to it the one of lowest rank, as R9 takes several (DEDUCED, log 112). A
reserved validity is a reserved code and taken as Invalid (R10). -/
def streamQc (q : SvQual) : Nat :=
  let v := match q.validity with
    | .good => 0 | .questionable => 1 | .invalid => 2 | .reserved => 2
  qMin (qMin v (if q.test then 3 else 0)) (if q.subst then 4 else 0)

/-- The stream quality of a published value: the mapping of R234 in reverse (R236); a code that its table does not give is free. -/
def publishedQual (q : Nat) : SvQual :=
  match q with
  | 0 => ⟨.good, false, false⟩
  | 1 => ⟨.questionable, false, false⟩
  | 2 => ⟨.invalid, false, false⟩
  | 3 => ⟨.good, true, false⟩
  | 4 => ⟨.good, false, true⟩
  | n => Config.publishedQuality n

/-- The code of SRC for a rate. -/
def streamSrc (rate : Nat) : Nat := if rate = 4800 then 1 else 2

/-- A stream sample by its number. -/
def streamAt (x : Stream) (n : Nat) : Option (List Int × List Nat) := (x.samples.find? (fun p => p.1 == n)).map (·.2)

/-- Word j of a stream at g from the two samples that bracket it, at `num / den` between them (R233). -/
def bracketWord (shift src idx num den : Nat) (a b : List Int × List Nat) (j : Nat) : Word :=
  let va := streamVal shift (nth 0 a.1 j)
  let vb := streamVal shift (nth 0 b.1 j)
  let v := linearAt va.1 vb.1 num den
  let ovr := va.2 || vb.2
  let q := qMin (qMin (nth 2 a.2 j) (nth 2 b.2 j)) (if ovr then 1 else 0)
  sampleWord v q ovr false false false src idx

/-- A held or lost word. -/
def missWord (lostNow : Bool) (src idx : Nat) (old : Word) : Word :=
  if lostNow then sampleWord 0 2 false false true false src idx else sampleWord (sampleVal old) 6 false false true false src idx

/-- The configuration of stream k in an image. -/
def streamIn (im : MeasImage) (k : Nat) : Option StreamCfg := im.streams.find? (fun x => x.num == k)

/-- The grid samples of stream k at g. -/
def Chip.streamSample (c : Chip) (im : MeasImage) (k : Nat) (g : Instant) : Chip :=
  let idx := gridIdx g
  match streamIn im k with
  | none => c.modStream k (fun x => { x with words := List.replicate 8 (sampleWord 0 2 false false false false 3 idx) })
  | some f =>
    let x := c.stream k
    let src := streamSrc f.rate
    if x.aligned = false then
      (c.wr (0x2620 + k) 0x04 4).modStream k (fun x => { x with words := List.replicate 8 (sampleWord 0 2 false false false false src idx) })
    else
      let a := g * f.rate / 1000000000
      let num := g * f.rate % 1000000000
      match streamAt x a, streamAt x (if num = 0 then a else a + 1) with
      | some p, some q =>
        let c := c.markGood (2 + k)
        let ws := if c.meas.lost.contains (2 + k) then List.replicate 8 (sampleWord 0 2 false false false false src idx)
          else (List.range 8).map (bracketWord f.shift src idx num 1000000000 p q)
        (c.wr (0x2620 + k) 0x04 2).modStream k (fun x => { x with missing := 0, words := ws })
      | _, _ =>
        if c.rd (0x2620 + k) 0x04 = 1 then
          c.modStream k (fun x => { x with words := List.replicate 8 (sampleWord 0 2 false false false false src idx) })
        else
          let n := x.missing + 1
          let gone := decide (16 < n)
          let c := if gone && c.rd (0x2620 + k) 0x04 != 3 then
              ((c.wr (0x2620 + k) 0x04 3).event 0x0813 sevMinor 4 k []).modMeas (fun m => { m with
                lost := (2 + k) :: m.lost, good := m.good.filter (· != 2 + k) })
            else c
          c.modStream k (fun x => { x with missing := n, words := (List.range 8).map (fun j => missWord gone src idx (nth 0 x.words j)) })

/-- Sample number n has come. Numbers skipped between the highest seen and n join the gaps; those that 16 newer samples have overtaken count as
never arrived (R235; when a sample is taken never to arrive is DESIGN CHOICE, log 112). n itself never counts so, late as it may be. -/
def Chip.skipTo (c : Chip) (k n : Nat) : Chip :=
  let x := c.stream k
  let newest := x.newest
  let old := x.gaps.filter (fun a => decide (a + 16 ≤ n))
  let first := newest + 1
  let from_ := max first (n - 15)
  let c := c.bumpBy (0x2620 + k) 0x07 (old.length + if newest = 0 then 0 else from_ - first)
  c.modStream k (fun x => { x with
    newest := max newest n,
    gaps := (x.gaps.filter (fun a => decide (n < a + 16 ∧ a ≠ n))) ++ (if newest = 0 then [] else (List.range (n - from_)).map (from_ + ·)) })

/-- One ASDU of stream k that arrives at t: its sample instant is the latest one not after t; a sample beyond its arrival budget is discarded
as late (R232, R233). -/
def Chip.takeAsdu (c : Chip) (t : Instant) (f : StreamCfg) (a : Asdu) : Chip :=
  let k := f.num
  let budget := if f.rate = 4800 then 100000 else 239000
  let n0 := t / 1000000000 * f.rate + a.smpCnt
  let n := if n0 * 1000000000 ≤ t * f.rate then n0 else n0 - f.rate
  let c := c.modStream k (fun x => { x with aligned := a.smpSynch == 2 || (a.smpSynch == 1 && f.local_) })
  let c := c.bumpBy 0x2600 0x0A (a.quals.filter (fun q => q.validity == .reserved)).length
  if n * 1000000000 + budget * f.rate < t * f.rate then
    (c.bump (0x2620 + k) 0x06).skipTo k n
  else
    (c.skipTo k n).modStream k (fun x => { x with
      samples := ((x.samples.filter (fun p => p.1 != n)) ++ [(n, a.vals, a.quals.map streamQc)]).drop (x.samples.length + 1 - 16) })

/-- The stream whose filter a frame meets: destination address, APPID and svID, with the number of ASDUs the image gives it (R231). -/
def streamOf (im : MeasImage) (f : SvRx) : Option StreamCfg :=
  im.streams.find? (fun x => x.dst == f.dst && x.appId == f.appId && x.svId == f.svId && x.asdus == f.asdus.length)

/-- SV_FRAME: a sampled-value frame from port p, after duplicates are discarded; one that meets no filter is none of a subscribed stream. -/
def execSvFrame (t : Instant) (p : Fin 4) (f : SvRx) (s : State) : Host.Outcome State Fault Refusal :=
  s.onChip (fun c =>
    match c.meas.image with
    | some im => (match streamOf im f with
      | some x =>
        if c.running = true ∧ c.portOn p.val = true ∧ c.portFenced 15 = false then
          f.asdus.foldl (fun c a => c.takeAsdu (portStamp t) x a) ((c.at_ t).bump (0x2620 + x.num) 0x05)
        else c
      | none => c)
    | none => c)

/-! ### Release of the grid (R224, R225, R249) -/

/-- The words of source set x (0, 1 local; 2 + k stream k), voltages first, with their qualities. -/
def Chip.setWords (c : Chip) (x : Nat) : List Word :=
  if x < 2 then (List.range 8).map (fun j => (c.chan (8 * x + j)).word)
  else
    let w := (c.stream (x - 2)).words
    w.drop 4 ++ w.take 4

/-- Add the sample of g to the window of computed set s; a set without a window begins one. -/
def Chip.gatherSet (c : Chip) (s : Nat) (g : Instant) : Chip :=
  match c.setCfg s with
  | none => c
  | some f =>
    let ws := (c.setWords f.source).map (fun w => (sampleVal w, sampleQc w))
    let n := c.windowLen s
    c.modSet s (fun x =>
      let x := { x with hist := x.hist.filter (fun (p : Instant × List (Int × Nat)) => decide (g < p.1 + 1000000000)) ++ [(g, ws)] }
      match x.n0 with
      | some _ => { x with samples := x.samples ++ [ws] }
      | none => { x with n0 := some (g - tickNs), len := n, samples := [ws] })

/-- Word of grid channel ch: local channels first, then 8 by stream (Table 08-1). -/
def Chip.gridWord (c : Chip) (ch : Nat) : Word :=
  if ch < 16 then (c.chan ch).word else nth 0 (c.stream ((ch - 16) / 8)).words ((ch - 16) % 8)

/-- A camp record joins those of PD0 (R252). -/
def campInsert (l : List CampRec) (r : CampRec) : List CampRec × Bool :=
  let dropFirst (p : CampRec → Bool) : List CampRec := match l.findIdx? p with
    | some i => l.eraseIdx i
    | none => l
  if l.length < 256 then (l ++ [r], true)
  else if l.any (fun x => !x.stg2) then (dropFirst (fun x => !x.stg2) ++ [r], true)
  else if r.stg2 then (l.drop 1 ++ [r], true)
  else (l, false)

/-- The calendar's date and time as 14 BCD digits, the year in four (Table 08-10). -/
def campDate (v : CalVal) : Nat :=
  ((((toBcd (2000 + v.year) * 256 + toBcd v.mon) * 256 + toBcd v.day) * 256 + toBcd v.hour) * 256 + toBcd v.min) * 256 + toBcd v.sec

/-- Write the camp record of a pickup or dropout of stage i (2 × camp channel + stage). -/
def Chip.campRecord (c : Chip) (i : Nat) (drop : Bool) (x : CampStage) : Chip :=
  let r : CampRec := ⟨campDate c.cal.now, c.cal.now.sub, i / 2, i % 2 == 1, drop, min x.peak 65535, if drop then min x.wins 65535 else 0,
    c.meas.campSeq⟩
  let l := campInsert c.campRecs r
  if l.2 then ({ c with campRecs := l.1 } : Chip).modMeas (fun m => { m with campSeq := (m.campSeq + 1) % 256 })
  else c.bump 0x2600 0x0F

/-- The camp path ends at the first grid sample: stages still up write their dropout (R253). -/
def Chip.endCamp (c : Chip) : Chip :=
  if c.meas.campOn then
    let c := c.forAll (List.range 16) (fun c i =>
      let x := nth ⟨false, 0, 0⟩ c.meas.campStages i
      if x.up then c.campRecord i true x else c)
    (c.modMeas (fun m => { m with campOn := false, campStages := List.replicate 16 ⟨false, 0, 0⟩ })).modPower
      (fun p => { p with domains := p.domains &&& 0xDFFF#16, campSrc := 0 })
  else c

/-- At the first sample of a window of local source src a new temperature band comes into use (R230); at that of any source one that is off the grid and has
had a good sample returns, and what its sets have computed carries Questionable (R249). -/
def Chip.cycleBoundary (c : Chip) (src : Nat) (g : Instant) : Chip :=
  if c.startsWindow src g then
    let band := c.rd 0x2600 0x06
    let c := if src < 2 ∧ nth 0 c.meas.setBand src ≠ band then
        let c := (c.modMeas (fun m => { m with setBand := modNth 0 (fun _ => band) m.setBand src })).forAll ((List.range 8).map (8 * src + ·))
          (fun c ch => c.modChan ch (fun x => { x with chg := true }))
        c
      else c
    let c := match c.meas.cal with
      | some r => if r.step = 3 ∧ r.ch / 8 = src then
          (c.modMeas (fun m => { m with cal := some { r with step := 0, start := c.now } })).modChan r.ch (fun x => { x with fromCal := false })
        else c
      | none => c
    if c.meas.lost.contains src && c.meas.good.contains src then
      (c.modMeas (fun m => { m with lost := m.lost.filter (· != src), good := m.good.filter (· != src) })).forAll (List.range 8) (fun c s =>
        match c.setCfg s with
        | some f => if f.source = src then c.modSet s questionable else c
        | none => c)
    else c
  else c

/-- A sense link that was lost at an instant before g takes both local sets off the grid (R249); the sample formed by then is released. -/
def Chip.dropSense (c : Chip) (g : Instant) : Chip :=
  if c.meas.senseLost ∧ c.meas.lostAt < g then
    c.modMeas (fun m => { m with lost := [0, 1] ++ m.lost.filter (fun x => decide (2 ≤ x)), good := m.good.filter (fun x => decide (2 ≤ x)) })
  else c

/-- GRID_RELEASE of grid instant g: the samples of every source, the capture buffers, the windows. The first ends the camp path, with or
without a configuration in force (R253, R415). -/
def execGridRelease (t : Instant) (g : Instant) (s : State) : Host.Outcome State Fault Refusal :=
  s.onChip (fun c =>
    match c.imageAt g with
    | some im =>
      let newer := match c.meas.lastG with
        | some l => decide (l < g)
        | none => true
      if c.running = true ∧ isTick g = true ∧ g + 312500 ≤ t ∧ newer = true ∧ c.portFenced 15 = false then
        let c := ((c.at_ t).endCamp.modMeas (fun m => { m with lastG := some g })).dropSense g
        let c := c.forAll (List.range 18) (fun c src => c.cycleBoundary src g)
        let c := c.forAll (List.range 16) (fun c ch => c.localSample im ch g)
        let c := c.forAll (List.range 16) (fun c k => c.streamSample im k g)
        let c := if c.meas.newFrom ≤ g then c.forAll (List.range 8) (fun c s => c.gatherSet s g) else c
        let keep := !im.decimate || gridIdx g % 4 == 0
        let now := im.capChans.map (fun ch => (g, c.gridWord ch))
        let c := if keep then c.modMeas (fun m => { m with
            preBuf := m.preBuf.filter (fun p => decide (g < p.1 + 1000000000)) ++ now,
            capture := m.capture.map (fun x => if g ≤ x.endsAt ∧ x.trigger < g then { x with samples := x.samples ++ now.map (·.2) } else x) })
          else c
        c.forAll (List.range 144) (fun c ch => c.pushItem ⟨.grid ch, g + 312500, [c.gridWord ch], sampleQc (c.gridWord ch), false⟩)
      else c
    | none => if c.running = true ∧ isTick g = true ∧ g + 312500 ≤ t ∧ c.portFenced 15 = false then (c.at_ t).endCamp else c)

/-! ### Quantities (R237-R242) -/

/-- Channels of a set that a quantity uses, voltages 0-3, currents 4-7; `w` is the wiring. With wiring 2 the line voltages take in that of phase
B, and the totals the currents of phases A and C alone (R238). -/
def usesChan (w q ch : Nat) : Bool :=
  let neutral := decide (w = 0)
  if q < 4 then ch == q || (neutral && q < 3 && ch == 3) || (w == 2 && q < 3 && ch == 1)
  else if q < 8 then ch == q
  else if q < 12 then ch == q - 8 || (neutral && q < 11 && ch == 3) || (w == 2 && q < 11 && ch == 1)
  else if q < 16 then ch == q - 8
  else if q < 20 then ch == q - 16 || (neutral && q < 19 && ch == 3) || (w == 2 && q < 19 && ch == 1)
  else if q < 24 then ch == q - 16
  else if q < 39 then
    let x := q % 3
    ch == x || ch == 4 + x || (neutral && ch == 3)
  else if q < 43 then ch < 3 || (4 ≤ ch && ch < 7 && !(w == 2 && ch == 5)) || (neutral && ch == 3)
  else if q < 46 then ch < 3 || (neutral && ch == 3)
  else if q < 49 then 4 ≤ ch && ch < 7
  else ch < 3 || (neutral && ch == 3)

/-- The lowest-ranked quality of the samples a quantity uses (R242). -/
def quantityQc (w q : Nat) (l : List (List (Int × Nat))) : Nat :=
  l.foldl (fun r x => (x.zipIdx).foldl (fun r p => if usesChan w q p.2 then qMin r p.1.2 else r) r) 0

/-- The quality of the samples that the frequency came from: those of the positive-sequence voltage or current, or none where it is held
(R239, R242). -/
def freqQc (w by_ : Nat) (l : List (List (Int × Nat))) : Nat := if by_ = 0 then quantityQc w 44 l else if by_ = 1 then quantityQc w 47 l else 0

/-- A quantity word (R242). -/
def quantityWord (qc : Nat) (v : BitVec 32) : Word := toWord (qc * 2 ^ 44 + v.toNat)

/-- Primary units per unit of VAL of channel j (voltages first) of a source set. -/
def Chip.unit (c : Chip) (src j : Nat) : Rat :=
  if src < 2 then real32Rat (BitVec.ofNat 32 (c.rd (0x2610 + (8 * src + j)) 0x03))
  else (2 ^ c.rd (0x2620 + (src - 2)) 0x08 : Rat) / (if j < 4 then 100 else 1000)

/-- A window's samples in primary units. -/
def Chip.primary (c : Chip) (src : Nat) (l : List (List (Int × Nat))) : List (List Rat) :=
  l.map (fun x => (x.zipIdx).map (fun p => (p.1.1 : Rat) * c.unit src p.2))

/-- Real value of a result word. -/
def wordRat (w : Word) : Rat := real32Rat (BitVec.ofNat 32 (fieldOf w.toNat 31 0))

/-- The frequency after a window whose positive-sequence voltage and current are `u1` and `i1`: from the voltage at 10 % of rated or more, else
the current at 2 % or more, else held, Invalid after 1 s or outside the tracking range; without a window before it there is no rate of change (R239). -/
def Chip.trackFreq (c : Chip) (s : Nat) (f : SetCfg) (u1 i1 : Rat × Rat) (t : Instant) : Chip :=
  let x := c.mset s
  let by_ (k : Nat) (a0 : Option Int) (z : Rat × Rat) : Chip := match a0 with
    | some a =>
      let hz := freqFrom a (argOf z) x.prevLen
      let ok := if c.nominal = 60 then decide (51 ≤ hz ∧ hz ≤ 69) else decide (85 ≤ 2 * hz ∧ 2 * hz ≤ 115)
      c.modSet s (fun x => { x with freq := hz, freqQ := if ok then 0 else 2, heldAt := t, freqBy := k })
    | none => c.modSet s (fun x => { x with freqBy := k })
  let c := if real32Rat f.ratedU / 10 ≤ sqrtRat (cSq u1) then by_ 0 x.angU u1
    else if real32Rat f.ratedI / 50 ≤ sqrtRat (cSq i1) then by_ 1 x.angI i1
    else c.modSet s (fun x => { x with freqBy := 2, freqQ := if x.freqQ = 2 ∨ x.heldAt + 1000000000 ≤ t then 2 else 6 })
  c.modSet s (fun x => { x with angU := some (argOf u1), angI := some (argOf i1), prevLen := x.len })

/-- Put result q of set s and send it as an item stamped t. -/
def Chip.putResult (c : Chip) (s q : Nat) (w : Word) (t : Instant) : Chip :=
  (c.modSet s (fun x => { x with results := WMem.set x.results q w })).pushItem
    ⟨.computed s q, t, [w], fieldOf w.toNat 47 44, false⟩

/-- Result words of a window with its values: per-phase powers are not computed with wiring 2 (R238); a power factor without apparent power
is Questionable. -/
def windowWords (f : SetCfg) (freqQ freqBy : Nat) (l : List (List (Int × Nat))) (vals : List Rat) : List Word :=
  (List.range quantities).map (fun q =>
    let qc := if q = 49 then freqQc f.wiring freqBy l else quantityQc f.wiring q l
    if f.wiring = 2 ∧ 24 ≤ q ∧ q < 39 then quantityWord 2 0
    else
      let noPower := ((33 ≤ q ∧ q < 36) && nth 0 vals (q - 3) == 0) || (q == 42 && nth 0 vals 41 == 0)
      quantityWord (if noPower then qMin qc 1 else if q = 49 then qMin qc freqQ else qc) (ratF32 (nth 0 vals q)))

/-! ### Energy (R243-R245) -/

/-- Whether accumulator j takes a window of signed totals P and Q (Table 08-7). -/
def qualifies (j : Nat) (p q : Rat) : Bool :=
  match j with
  | 0 => decide (0 ≤ p)
  | 1 => decide (p < 0)
  | 2 => decide (0 ≤ p ∧ 0 ≤ q)
  | 3 => decide (p < 0 ∧ 0 ≤ q)
  | 4 => decide (p < 0 ∧ q < 0)
  | 5 => decide (0 ≤ p ∧ q < 0)
  | _ => true

/-- µWh from joules. -/
def microWh (r : Rat) : Rat := r * 2500 / 9

/-- Add an energy to accumulator and fraction: 96-bit two's complement and 32 bits; the third part says that it wrapped. The increment takes the
next fraction at or above it: of the roundings to 32 bits this one alone gives every row of Table 08-8 (R243, DEDUCED, log 130). -/
def addEnergy (acc : Int) (frac : Nat) (e : Rat) : Int × Nat × Bool :=
  let z := acc * 2 ^ 32 + frac + (microWh e * 2 ^ 32).ceil
  let a := z / 2 ^ 32
  let w := (a + 2 ^ 95) % 2 ^ 96 - 2 ^ 95
  (w, (z % 2 ^ 32).toNat, decide (w ≠ a))

/-- The increments of a window by accumulator, in joules; none where it does not qualify (R243, R244). `pr` are samples in primary units, `vals` the
quantities of the window. With wiring 2 the elements of phases A and C are the wattmeters, and that of B is 0 throughout. -/
def increments (f : SetCfg) (modes : Nat) (pr : List (List Rat)) (vals : List Rat) : List (Option Rat) :=
  let n : Rat := (pr.length : Rat)
  let dt : Rat := 1 / 16000
  let ep := (List.range 3).map (fun x => sumRat (pr.map (fun v => phaseU f.wiring v x * nth 0 v (4 + x))) * dt)
  let eq := (List.range 3).map (fun x => nth 0 vals (27 + x) * n * dt)
  let es := (List.range 3).map (fun x => nth 0 vals (30 + x) * n * dt)
  let creep := real32Rat f.ratedI / 4000
  let live := (List.range 3).map (fun x => decide (creep * creep * n ≤ sumRat (pr.map (fun v => nth 0 v (4 + x) * nth 0 v (4 + x)))))
  let total (l : List Rat) (abs : Bool) : Rat :=
    sumRat ((l.zip live).map (fun y => if y.2 then (if abs then absRat y.1 else y.1) else 0))
  (List.range 8).map (fun j =>
    if qualifies j (sumRat ep) (sumRat eq) then
      let x := total (if j < 2 ∨ j = 7 then ep else if j = 6 then es else eq) (modes.testBit j)
      some (if j = 7 then x else absRat x)
    else none)

/-- Accumulate a window of set s, then reset the accumulators that were asked for (R243, R245). -/
def Chip.accumulate (c : Chip) (s : Nat) (incs : List (Option Rat)) (valid : Bool) : Chip :=
  let c := if valid then
      (incs.zipIdx).foldl (fun c p => match p.1 with
        | some e =>
          let x := c.mset s
          let r := addEnergy (nth 0 x.acc p.2) (nth 0 x.frac p.2) e
          let c := c.modSet s (fun x => { x with acc := modNth 0 (fun _ => r.1) x.acc p.2, frac := modNth 0 (fun _ => r.2.1) x.frac p.2 })
          if r.2.2 then c.setBit (0x2700 + s) 0x0C p.2 true else c
        | none => c) c
    else c.bump (0x2700 + s) 0x0D
  c.modSet s (fun x => { x with
    acc := (x.acc.zipIdx).map (fun p => if x.resets.testBit p.2 then 0 else p.1),
    frac := (x.frac.zipIdx).map (fun p => if x.resets.testBit p.2 then 0 else p.1), resets := 0 })

/-! ### Events (R246) -/

/-- The event word of a set: wrong sequence, missing neutral, reverse power. -/
def Chip.eventWord (c : Chip) (s : Nat) : Word :=
  let x := c.mset s
  toWord (bit01 x.seqRun.active + bit01 x.neutRun.active * 2 + bit01 x.revRun.active * 4)

/-- The quality of the event word of a set: the lowest-ranked of the results that its events are evaluated on, and Invalid with wiring 2, for the
two events that are not evaluated then (R9, R246). -/
def Chip.eventQc (c : Chip) (s : Nat) (f : SetCfg) : Nat :=
  let qs : List Nat := if f.wiring = 2 then [39] else [0, 1, 2, 39, 44, 45, if f.wiring = 0 then 3 else 43]
  qs.foldl (fun r q => qMin r (fieldOf (WMem.get (c.mset s).results q).toNat 47 44)) (if f.wiring = 2 then 2 else 0)

/-- Bit i of set s changes: register, item, record; a start that the image enables triggers a capture. -/
def Chip.measEvent (c : Chip) (s i : Nat) (on : Bool) (t : Instant) (f : SetCfg) : Chip :=
  let code := 0x0810 + i
  let sev := if i = 2 then sevMinor else sevMajor
  let c := c.setBit 0x2600 0x09 (3 * s + i) on
  let c := c.pushItem ⟨.eventWord s, t, [c.eventWord s], c.eventQc s f, false⟩
  let c := c.eventAs t code sev (!on) 4 s 0 0 []
  match c.meas.image with
  | some im => if on && im.evTrig.testBit i then c.triggerCapture (16 + 3 * s + i) else c
  | none => c

/-- The run of a condition: while inactive it counts what meets the start, while active what meets the end; `add` is this window's share and
`need` the share at which it turns. -/
def runOn (r : EvRun) (start stop : Bool) (add needStart needStop : Nat) : EvRun :=
  let met := if r.active then stop else start
  let n := if met then r.run + add else 0
  if met ∧ (if r.active then needStop else needStart) ≤ n then ⟨0, !r.active⟩ else ⟨n, r.active⟩

/-- Evaluate the events of set s after a window whose results stand; wrong sequence and missing neutral are not evaluated with wiring 2. -/
def Chip.evalEvents (c : Chip) (s : Nat) (f : SetCfg) (t : Instant) : Chip :=
  let x := c.mset s
  let v (q : Nat) : Rat := wordRat (WMem.get x.results q)
  let ns := x.len * tickNs
  let ru := real32Rat f.ratedU
  let ri := real32Rat f.ratedI
  let own := if f.seq = 0 then v 44 else v 45
  let opp := if f.seq = 0 then v 45 else v 44
  let wrong := decide (own < opp) && (List.range 3).all (fun p => decide (ru / 5 < v p))
  let nv := if f.wiring = 0 then v 3 else v 43
  let thr := real32Rat f.neutThr / 100 * ru
  let rev := real32Rat f.revThr / 100 * 3 * ru * ri
  let a := if f.wiring = 2 then ⟨0, false⟩ else runOn x.seqRun wrong (!wrong) 1 5 5
  let b := if f.wiring = 2 then ⟨0, false⟩ else runOn x.neutRun (decide (thr < nv)) (decide (nv < thr * 9 / 10)) ns 100000000 100000000
  let d := runOn x.revRun (decide (v 39 < -rev)) (decide (-(rev * 9 / 10) < v 39)) ns (f.revDelay * 1000000) 1
  let c := c.modSet s (fun x => { x with seqRun := a, neutRun := b, revRun := d })
  let c := if a.active ≠ x.seqRun.active then c.measEvent s 0 a.active t f else c
  let c := if b.active ≠ x.neutRun.active then c.measEvent s 1 b.active t f else c
  if d.active ≠ x.revRun.active then c.measEvent s 2 d.active t f else c

/-! ### Window, interval and report -/

/-- Whether quantity q is aggregated as the root of the mean of squares: the magnitudes. -/
def isMagnitude (q : Nat) : Bool := decide (q < 16 ∨ (43 ≤ q ∧ q < 49))

/-- A voltage of a window lies in a dip, a swell or an interruption, by thresholds in per cent of rated (R240): of the rated voltage of
0x2630+s.03, or with wiring 2, whose values are line voltages, of √3 times that (DEDUCED, log 8). -/
def isDisturbed (f : SetCfg) (vals : List Rat) : Bool :=
  (if f.wiring = 2 then [0, 2] else [0, 1, 2]).any (fun x =>
    let u := 100 * nth 0 vals x
    let r := real32Rat f.ratedU * (if f.wiring = 2 then sqrtRat 3 else 1)
    decide (u < Config.dipBelow * r ∨ u < Config.interruptionBelow * r ∨ Config.swellAbove * r < u))

/-- An interval takes in a window of `len` samples: its qualities, values and cycles. -/
def aggAdd (a : Agg) (len : Nat) (qcs : List Nat) (vals : List Rat) (cycles : Rat) (dist : Bool) : Agg :=
  { a with count := a.count + 1, dur := a.dur + len, qcs := (a.qcs.zip qcs).map (fun p => qMin p.1 p.2),
           sums := ((a.sums.zip vals).zipIdx).map (fun p => p.1.1 + if isMagnitude p.2 then p.1.2 * p.1.2 else p.1.2),
           cyc := a.cyc + cycles, flag := a.flag || dist }

/-- WINDOW_END: the window of computed set s is complete; its quantities, energies and events are formed and the next window begins. A fenced
measurement engine forms none (R33). -/
def execWindowEnd (t : Instant) (s : Fin 8) (st : State) : Host.Outcome State Fault Refusal :=
  st.onChip (fun c =>
    let s := s.val
    let x := c.mset s
    match c.setCfg s, x.n0 with
    | some f, some n0 =>
      if 0 < x.len ∧ x.len ≤ x.samples.length ∧ n0 + x.len * tickNs + 312500 ≤ t ∧ c.portFenced 15 = false then
        let c := c.at_ t
        let l := x.samples.take x.len
        let pr := c.primary f.source l
        let ends := n0 + x.len * tickNs
        let invalid := l.any (fun v => v.any (fun p => p.2 == 2))
        let fHat : Rat := if x.freqQ = 2 ∨ x.freq ≤ 0 then 16000 / (x.len : Rat) else x.freq
        let ph := phasorsOf f.wiring fHat pr
        let pos (k : Nat) : Rat × Rat := nth (0, 0) (sequences (nth (0, 0) ph k) (nth (0, 0) ph (k + 1)) (nth (0, 0) ph (k + 2))) 1
        let c := c.trackFreq s f (pos 0) (pos 4) ends
        let y := c.mset s
        let vals := (windowVals f.wiring fHat pr).take 49 ++ [y.freq]
        let ws := windowWords f y.freqQ y.freqBy l vals
        let c := c.modSet s (fun z => { z with fresh := false })
        let c := (ws.zipIdx).foldl (fun c p => c.putResult s p.2 p.1 t) c
        let c := c.accumulate s (increments f (c.rd (0x2700 + s) 0x09) pr vals) (!invalid)
        let qcs := ws.map (fun w => fieldOf w.toNat 47 44)
        let c := c.modSet s (fun z => { z with
          n0 := some ends, samples := z.samples.drop x.len, endPair := c.pairAt ends,
          aggs := z.aggs.map (fun a => aggAdd a x.len qcs vals (if y.freqQ = 2 then 0 else y.freq * x.len / 16000) (isDisturbed f vals)) })
        let c := c.evalEvents s f t
        let n := c.windowLen s
        c.modSet s (fun z => { z with len := n })
      else c
    | _, _ => c)

/-- Place and length of an interval kind: number, windows, or seconds of UTC (R239, R240). -/
def intervalPlace : Interval → Nat
  | .cycles10 => 0 | .cycles150 => 1 | .min10 => 2 | .hour2 => 3 | .sec10 => 4

/-- Quality of an aggregate: the lowest of its windows, and at most Questionable where the interval is flagged (R240; how a value is flagged is
DESIGN CHOICE, log 8) or the set awaits a full window. -/
def aggQuality (a : Agg) (fresh : Bool) (q : Nat) : Nat :=
  let qc := nth 0 a.qcs q
  if a.flag || fresh then qMin qc 1 else qc

/-- The aggregated value of quantity q (R240): the root of the mean of squares of a magnitude, the mean of a power, the quotient of the powers
for a power factor, whole cycles over their duration for the frequency; none for an angle. -/
def aggValue (a : Agg) (q : Nat) : Option Rat :=
  let s (k : Nat) : Rat := nth 0 a.sums k
  if isMagnitude q then some (sqrtRat (s q / a.count))
  else if (24 ≤ q ∧ q < 33) ∨ (39 ≤ q ∧ q < 42) then some (s q / a.count)
  else if 33 ≤ q ∧ q < 36 then some (ratio (s (q - 9)) (s (q - 3)))
  else if q = 42 then some (ratio (s 39) (s 41))
  else if q = 49 then some (ratio (a.cyc * 16000) a.dur)
  else none

/-- The 10 s frequency: the whole cycles of the interval over the time that they took, the rest of the last cycle at the frequency `f`
(R239). -/
def aggFreq10 (a : Agg) (f : Rat) : Rat :=
  let n : Rat := (a.cyc.floor : Rat)
  ratio n ((a.dur : Rat) / 16000 - ratio (a.cyc - n) f)

/-- INTERVAL_END: the aggregates of the windows since the last end. A 10/12-cycle interval restarts at every 10 min boundary of UTC. -/
def execIntervalEnd (t : Instant) (s : Fin 8) (k : Interval) (st : State) : Host.Outcome State Fault Refusal :=
  st.onChip (fun c =>
    let s := s.val
    let x := c.mset s
    let a := nth (aggFrom 0) x.aggs (intervalPlace k)
    let at60 := c.nominal == 60
    let utc (x : Instant) : Nat := ((x / 1000000000 : Nat) - (c.rdw 0x2A00 0x0D).toInt).toNat
    let passed (n : Nat) : Bool := utc a.last / n != utc t / n
    let due := match k with
      | .cycles10 => decide ((if at60 then 12 else 10) ≤ a.count)
      | .cycles150 => decide ((if at60 then 180 else 150) ≤ a.count)
      | .min10 => passed 600
      | .hour2 => passed 7200
      | .sec10 => passed 10
    match c.setCfg s with
    | some f =>
      if 0 < a.count ∧ due = true ∧ c.portFenced 15 = false then
        let draw := c.free
        let c := (c.at_ t).draw
        let c := match k with
          | .sec10 => c.putResult s (64 * 5 + 49) (quantityWord (aggQuality a x.fresh 49) (ratF32 (aggFreq10 a x.freq))) t
          | _ => c.forAll (List.range quantities) (fun c q =>
              let w := if f.wiring = 2 ∧ 24 ≤ q ∧ q < 39 then quantityWord 2 0 else match aggValue a q with
                | some v => quantityWord (aggQuality a x.fresh q) (ratF32 v)
                | none => quantityWord (aggQuality a x.fresh q) (Config.aggregate draw (intervalPlace k) q)
              c.putResult s (64 * ((intervalPlace k) + 1) + q) w t)
        c.modSet s (fun x => { x with aggs := (x.aggs.zipIdx).map (fun p =>
          if p.2 = (intervalPlace k) ∨ (k = .min10 ∧ p.2 = 0) then aggFrom t else p.1) })
      else c
    | none => c)

/-- The per-window quantity whose channels a value of a synchrophasor report uses: 2j and 2j + 1 magnitude and angle of channel j, 16 to 19 of the
positive-sequence voltage and current, 20 frequency, 21 ROCOF (R241). -/
def phasorUses (i : Nat) : Nat := if i < 16 then 8 + i / 2 else if i < 18 then 44 else if i < 20 then 47 else 49

/-- Values of a synchrophasor report. -/
def phasorValues : Nat := 22

/-- Half the stretch of samples that a report uses about its instant, as Table 08-6 has it available: one nominal cycle for class P, 5
reporting intervals for class M (DEDUCED, log 8). -/
def phasorReach (classM : Bool) (rate nominal : Nat) : Nat := if classM then 5000000000 / rate else 1000000000 / nominal

/-- Quality of value i of a report at r: the lowest of the samples used (R242). -/
def phasorQc (w : Nat) (x : MSet) (r reach i : Nat) : Nat :=
  let used := x.hist.filter (fun p => decide (r ≤ p.1 + reach ∧ p.1 ≤ r + reach))
  let q := quantityQc w (phasorUses i) (used.map (·.2))
  if x.fresh then qMin q 1 else q

/-- The angle at r of the reference of R241: a cosine at nominal frequency, zero-phase at each second boundary. -/
def phasorRef (nominal : Nat) (r : Instant) : Int := wrapTurn ((nominal * (r % 1000000000) * 2 ^ 48 / 1000000000 : Nat) : Int)

/-- The values of a report of set s at r: the phasors of the 8 channels and the positive-sequence ones by the reference, frequency, ROCOF. What
the filters of the class make of the samples is the standard's (log 8). -/
def Chip.phasorReport (c : Chip) (s : Nat) (f : SetCfg) (classM : Bool) (rate : Nat) (r : Instant) : List Rat :=
  let reach := phasorReach classM rate c.nominal
  let used := (c.mset s).hist.filter (fun p => decide (r ≤ p.1 + reach ∧ p.1 ≤ r + reach))
  let at_ := used.map (·.1)
  let pr := c.primary f.source (used.map (·.2))
  let series (k : Nat) : List (Instant × Rat) := at_.zip (seriesOf f.wiring pr k)
  let back := cUnit (-(phasorRef c.nominal r))
  let ph := (List.range 8).map (fun k => cMul (Config.phasorAt classM rate r (series k)) back)
  let z (k : Nat) : Rat × Rat := nth (0, 0) ph k
  let pos (k : Nat) : Rat × Rat := nth (0, 0) (sequences (z k) (z (k + 1)) (z (k + 2))) 1
  let u := [series 0, series 1, series 2]
  ((ph ++ [pos 0, pos 4]).flatMap (fun a => [sqrtRat (cSq a), degrees (argOf a)])) ++
    [Config.phasorFreq classM false rate r u, Config.phasorFreq classM true rate r u]

/-- SYNCHROPHASOR_REPORT: at a reporting instant, aligned to whole seconds (R241). -/
def execSynchrophasorReport (t : Instant) (s : Fin 8) (st : State) : Host.Outcome State Fault Refusal :=
  st.onChip (fun c =>
    let s := s.val
    match c.setCfg s with
    | some f =>
      let rate := fieldOf f.phasor 7 0
      let classM := f.phasor.testBit 8
      if (phasorRates c.nominal).contains rate then
        let r := t / 1000000000 * 1000000000 + (t % 1000000000) * rate / 1000000000 * 1000000000 / rate
        let x := c.mset s
        if x.phPair.instant < r ∧ x.n0.isSome = true ∧ c.portFenced 15 = false then
          let c := c.at_ t
          let vals := c.phasorReport s f classM rate r
          let c := c.modSet s (fun x => { x with phPair := c.pairAt r })
          c.forAll (List.range phasorValues) (fun c i => c.putResult s (512 + i)
            (quantityWord (phasorQc f.wiring x r (phasorReach classM rate c.nominal) i) (ratF32 (nth 0 vals i))) t)
        else c
      else c
    | none => c)

/-! ### Accumulators in the parameter store (R245) -/

/-- The 12 bytes of an accumulator. -/
def accBytes (z : Int) : List Byte := leBytes ((z % 2 ^ 96).toNat) 12

/-- Save the accumulators of the 8 sets. -/
def Chip.saveAccumulators (c : Chip) : Chip :=
  let c := c.forAll (List.range 8) (fun c s =>
    let x := c.mset s
    (c.persist 3 (0x2700 + s) 0 (x.acc.flatMap accBytes ++ x.frac.flatMap (fun f => leBytes f 4))).wrPair (0x2700 + s) 0x0B (c.pairAt c.now))
  c.modMeas (fun m => { m with savedAt := c.now })

/-- ACCUMULATOR_SAVE every 60 s. -/
def execAccumulatorSave (t : Instant) (st : State) : Host.Outcome State Fault Refusal :=
  st.onChip (fun c => if c.running = true ∧ c.meas.savedAt + 60000000000 ≤ t then (c.at_ t).saveAccumulators else c)

/-- ACCUMULATOR_RESET: done at the next window end; its audit record has no code of its own (log 35). -/
def execAccumulatorReset (a : Acc) (s : Fin 8) (v : Nat) (st : State) : Host.Outcome State Fault Refusal :=
  st.onChip (fun c => c.writeNum a (0x2700 + s.val) 0x0A v (fun c w =>
    .ok ((c.modSet s.val (fun x => { x with resets := x.resets ||| (v % 256) })).eventAs c.now Config.resetEventCode sevAudit false 4 s.val
      w.org w.csn (leBytes s.val 1 ++ leBytes v 1))))

/-! ### Publication (R236) -/

/-- The grid word of local channel ch at g, where it is still kept. -/
def Chip.gridPast (c : Chip) (ch : Nat) (g : Instant) : Option Word := ((c.chan ch).past.find? (fun p => p.1 == g)).map (·.2)

/-- The published value of local channel ch at `num / den` nanoseconds: linear between the grid samples about it, in units of 1 mA or 10 mV, with
the lower-ranked of their codes in the reverse of the mapping of R234. -/
def Chip.published (c : Chip) (ch num den : Nat) : Option (Int × SvQual) :=
  let step := tickNs * den
  let g := num / step * tickNs
  match c.gridPast ch g, c.gridPast ch (if num % step = 0 then g else g + tickNs) with
  | some a, some b =>
    let k : Rat := c.unit (ch / 8) (ch % 8) * (if ch % 8 < 4 then 100 else 1000)
    let v : Rat := ((sampleVal a * (step - num % step : Nat) + sampleVal b * (num % step : Nat) : Int) : Rat) / (step : Rat)
    some (nearestRat (v * k), publishedQual (qMin (sampleQc a) (sampleQc b)))
  | _, _ => none

/-- The channels of a published dataset in order: 4 currents, 4 voltages (R236). -/
def publishedChans (set : Nat) : List Nat := (List.range 8).map (fun j => 8 * set + (if j < 4 then 4 + j else j - 4))

/-- SV_PUBLICATION_FRAME of local set `set` whose first sample has count `count`, by a chip that acts; a standby in hot shadow sends nothing, and
its sequence number advances with the active's (R288, R294). The samples are those of the latest second
for which the last one does not lie after t. -/
def execSvPublicationFrame (t : Instant) (set : Fin 2) (count : Nat) (st : State) : Host.Outcome State Fault Refusal :=
  st.onChip (fun c =>
    match c.meas.image with
    | some im => (match im.pubs.find? (fun p => p.1 == set.val) with
      | some (_, rate) =>
        let n := if rate = 4800 then 1 else 6
        let sec := if t % 1000000000 * rate < (count + n - 1) * 1000000000 then t / 1000000000 - 1 else t / 1000000000
        let vals := (List.range n).map (fun i => (publishedChans set.val).map (fun ch =>
          c.published ch ((sec * rate + count + i) * 1000000000) rate))
        if c.emitsPub = true ∧ c.running = true ∧ count < rate ∧ count % n = 0 ∧ vals.all (fun v => v.all (·.isSome)) = true then
          let synch := if (c.pairAt t).w1.getLsbD 7 then 2 else 0
          let q := (c.at_ t).nextPubSeq true
          if c.acts then q.2.emit (busPorts true) (.sv c.net.pubP c.pubTag q.1 set.val count synch (vals.map (fun v => v.filterMap id))) else q.2
        else c
      | none => c)
    | none => c)

/-! ### Rotating calibration (R229, R230) -/

/-- Report the calibration state (0x2600.08). -/
def Chip.syncCal (c : Chip) : Chip :=
  let q := c.meas.calQueue.foldl (fun n k => setFieldOf n (5 + k) (5 + k) 1) 0
  c.wr 0x2600 0x08 (match c.meas.cal with
    | some r => q + 16 + r.ch
    | none => q)

/-- Start the next queued calibration where none runs. -/
def Chip.nextCal (c : Chip) : Chip :=
  (match c.meas.cal, c.meas.calQueue with
    | none, k :: r => c.modMeas (fun m => { m with cal := some ⟨k, 0, c.now, 0x3F800000, 0, 0⟩, calQueue := r })
    | _, _ => c).syncCal

/-- Queue a channel that is neither queued nor in calibration. -/
def Chip.queueCal (c : Chip) (ch : Nat) : Chip :=
  let busy := match c.meas.cal with
    | some r => r.ch == ch
    | none => false
  if busy || c.meas.calQueue.contains ch then c else c.modMeas (fun m => { m with calQueue := m.calQueue ++ [ch] })

def execCalibrationRequest (a : Acc) (v : Nat) (st : State) : Host.Outcome State Fault Refusal :=
  st.onChip (fun c => c.writeNum a 0x2600 0x07 v (fun c _ =>
    .ok (c.forAll (if v.testBit 4 then List.range 16 else [v % 16]) (fun c ch => c.queueCal ch)).nextCal))

/-- CALIBRATION_ROTATION: with continuous rotation in the image, one channel every 10 s. -/
def execCalibrationRotation (t : Instant) (st : State) : Host.Outcome State Fault Refusal :=
  st.onChip (fun c =>
    match c.meas.image with
    | some im =>
      if im.rotate = true ∧ t % 10000000000 = 0 ∧ c.meas.senseLost = false ∧ c.running = true then
        let c := (c.at_ t).queueCal (c.meas.nextRot % 16)
        (c.modMeas (fun m => { m with nextRot := (m.nextRot + 1) % 16 })).nextCal
      else c
    | none => c)

/-- CALIBRATION_MATCH from 100 ms: the calibration channel takes the input of the channel with the gain, offset and delay that match it. -/
def execCalibrationMatch (x : CalMatch) (st : State) : Host.Outcome State Fault Refusal :=
  st.onChip (fun c =>
    match c.meas.cal with
    | some r => if r.step = 0 ∧ r.start + 100000000 ≤ x.t then
        (c.at_ x.t).modMeas (fun m => { m with cal := some { r with step := 1, gain := x.gain, offset := x.offset, delay := x.delay } }) else c
    | none => c)

/-- A change of source is due: the sample released next is the first of a window that begins at or after `from_`. -/
def Chip.switchDue (c : Chip) (ch : Nat) (from_ : Instant) : Bool :=
  c.atBoundary (ch / 8) && (match c.meas.lastG with
    | some l => decide (from_ ≤ l + tickNs)
    | none => true)

/-- CALIBRATION_SWITCH_OVER at the first cycle boundary after 300 ms. -/
def execCalibrationSwitchOver (t : Instant) (st : State) : Host.Outcome State Fault Refusal :=
  st.onChip (fun c =>
    match c.meas.cal with
    | some r =>
      if r.step = 1 ∧ r.start + 300000000 ≤ t ∧ c.switchDue r.ch (r.start + 300000000) = true then
        ((c.at_ t).modMeas (fun m => { m with cal := some { r with step := 2 } })).modChan r.ch (fun x => { x with fromCal := true, chg := true })
      else c
    | none => c)

/-- CALIBRATION_RETURN at the first cycle boundary after 400 ms with the gain and offset found, which become the coefficients of the band in
use; a gain more than 0.5 % from the one it would replace is discarded with its offset. -/
def execCalibrationReturn (t : Instant) (coef : BitVec 32 × Int) (st : State) : Host.Outcome State Fault Refusal :=
  st.onChip (fun c =>
    match c.meas.cal with
    | some r =>
      if r.step = 2 ∧ r.start + 400000000 ≤ t ∧ c.switchDue r.ch (r.start + 400000000) = true then
        let ix := 0x2610 + r.ch
        let band := nth 0 c.meas.setBand (r.ch / 8)
        let old := real32Rat (nth (0x3F800000, 0) (c.chan r.ch).coefs band).1
        let bad := decide (absRat old < 200 * absRat (real32Rat coef.1 - old))
        let c := (c.at_ t).modChan r.ch (fun x => { x with
          fromCal := false, chg := true, calBad := bad, coefs := if bad then x.coefs else modNth (0x3F800000, 0) (fun _ => coef) x.coefs band })
        let c := if bad then c.event 0x0814 sevMajor 4 r.ch []
          else (c.wr ix 0x06 coef.1.toNat).wrPair ix 0x05 (c.pairAt t)
        (c.modMeas (fun m => { m with cal := none })).nextCal
      else c
    | none => c)

/-- The band after a temperature: up at the upper edge + 1 °C, down below the lower edge − 1 °C. -/
def bandAfter (temp : Rat) : Nat → Nat → Nat
  | 0, b => b
  | k + 1, b =>
    if ((-20 + 20 * (b : Int) + 1 : Int) : Rat) ≤ temp ∧ b < 7 then bandAfter temp k (b + 1)
    else if temp < ((-40 + 20 * (b : Int) - 1 : Int) : Rat) ∧ 0 < b then bandAfter temp k (b - 1)
    else b

/-- SENSE_TEMPERATURE_READ: the band in use follows at the next window of each set (R230); a band change restarts the calibration under way
(R229), at that window where the grid takes the samples of the calibration channel, which may not change within one (DEDUCED, log 111). -/
def execSenseTemperatureRead (t : Instant) (temp : BitVec 32) (st : State) : Host.Outcome State Fault Refusal :=
  st.onChip (fun c =>
    if c.running = true ∧ c.meas.senseLost = false then
      let c := (c.at_ t).wr 0x2600 0x05 temp.toNat
      let b := c.rd 0x2600 0x06
      let b' := bandAfter (real32Rat temp) 8 b
      if b' = b then c
      else
        let c := c.wr 0x2600 0x06 b'
        c.modMeas (fun m => { m with cal := m.cal.map (fun r =>
          if r.step < 2 then { r with step := 0, start := t } else if r.step = 2 then { r with step := 3 } else r) })
    else c)

/-! ### Captures (R247, R248) -/

/-- A capture command of the row. -/
def Chip.captureWrite (c : Chip) (a : Acc) (v cmd : Nat) (f : Chip → Chip) : Chip :=
  if fieldOf v 3 0 = cmd then
    c.writeNum a 0x2600 0x0B v (fun c _ => .ok (f (c.modMeas (fun m => { m with named := fieldOf v 15 8 }))))
  else c

/-- Lock or unlock a stored capture; a number that names none is without effect (log 40). -/
def Chip.lockCapture (c : Chip) (n : Nat) (on : Bool) : Chip :=
  c.modMeas (fun m => { m with stored := m.stored.map (fun x => if x.num % 256 = n then { x with locked := on } else x) })

def execCaptureTrigger (a : Acc) (v : Nat) (st : State) : Host.Outcome State Fault Refusal :=
  st.onChip (fun c => c.captureWrite a v 1 (fun c => c.triggerCapture 255))
def execCaptureLock (a : Acc) (v : Nat) (st : State) : Host.Outcome State Fault Refusal :=
  st.onChip (fun c => c.captureWrite a v 2 (fun c => c.lockCapture (fieldOf v 15 8) true))
def execCaptureUnlock (a : Acc) (v : Nat) (st : State) : Host.Outcome State Fault Refusal :=
  st.onChip (fun c => c.captureWrite a v 3 (fun c => c.lockCapture (fieldOf v 15 8) false))

/-- The waveform store: its sectors, and how many a capture takes; a capture takes whole sectors, since those are erased one by one
(DESIGN CHOICE, log 144). -/
abbrev waveSectors : Nat := 128
def captureSectors (x : Capture) : Nat := ((captureBytes x).length + 65535) / 65536
def storedSectors (l : List Capture) : Nat := (l.map captureSectors).sum

/-- Make room for a capture: the oldest that is not locked goes first; none where only locked ones are left. -/
def makeRoom (need : Nat) : Nat → List Capture → Option (List Capture)
  | 0, l => if storedSectors l + need ≤ waveSectors then some l else none
  | k + 1, l =>
    if storedSectors l + need ≤ waveSectors then some l
    else match l.findIdx? (fun x => !x.locked) with
      | some i => makeRoom need k (l.eraseIdx i)
      | none => none

/-- The sectors that a new capture takes beside those that stand: the lowest that are free. -/
def freeSectors (l : List Capture) (need : Nat) : List Nat :=
  ((List.range waveSectors).filter (fun i => l.all (fun x => !x.sectors.contains i))).take need

/-- CAPTURE_COMPLETE: the post-trigger stretch has ended; the capture goes into the waveform store, or is dropped where only locked ones stand in
its way; so is one that is larger than the whole store (DESIGN CHOICE, log 129), and one that the flash die, fenced, cannot take
(Table 01-7). -/
def execCaptureComplete (t : Instant) (st : State) : Host.Outcome State Fault Refusal :=
  st.onChip (fun c =>
    match c.meas.capture, c.meas.lastG with
    | some x, some g =>
      if x.endsAt ≤ g then
        let c := (c.at_ t).modMeas (fun m => { m with capture := none })
        match (if c.portFenced 2 then none else makeRoom (captureSectors x) c.meas.stored.length c.meas.stored) with
        | some l =>
          let secs := freeSectors l (captureSectors x)
          (c.modMeas (fun m => { m with stored := l ++ [{ x with sectors := secs }] })).modDie (fun d =>
            d.putCapture secs (captureAs leBytes x))
        | none => (c.bump 0x2600 0x0C).event 0x0817 sevMinor 4 0 []
      else c
    | _, _ => c)

/-- A read of the flash die on behalf of a message: single-bit errors are corrected and counted; a record with a flagged group is absent
(R345, R356). -/
def Chip.readFlash (c : Chip) (x : FlashReads) : Chip :=
  (c.bumpBy 0x2D00 0x07 x.single).modRec (fun r => { r with
    live := r.live.filter (fun e => !x.flagged.contains e.seq), place := r.place.filter (fun p => !x.flagged.contains p.1) })

def execCaptureDataRead (m : Msg) (offset want : Nat) (st : State) : Host.Outcome State Fault Refusal :=
  st.onChip (fun c => c.readOwn m 0x2600 0x0D offset want (fun c => (c.readFlash { m.ecc with flagged := [] }, c.namedCapture)))

/-- CAPTURE_PAGE_FETCH: the page that the request word of a class names reaches its region port. -/
def execCapturePageFetch (t : Instant) (cls : Fin 16) (st : State) : Host.Outcome State Fault Refusal :=
  st.onChip (fun c =>
    let n := cls.val
    match (c.cl n).cfg with
    | some g => (match g.pageReq with
      | some (a, _) =>
        let r := Config.pageRequest (WMem.get (c.cl n).pub a)
        (match c.meas.stored.find? (fun x => x.num == r.1) with
          | some x =>
            if (c.cl n).everDisp && !c.portFenced 15 then
              (c.at_ t).arrive n ⟨.capturePage, t, (x.samples.drop (256 * r.2)).take 256, 0, false⟩
            else c
          | none => c)
      | none => c)
    | none => c)

/-! ### Camp mode (R250-R253) -/

/-- Local channel of camp channel ch. -/
def campChan (ch : Nat) : Nat := if ch < 4 then 4 + ch else 8 + ch

/-- RMS of a camp window of samples in units of range peak ÷ 2^23, in those of range peak ÷ 16 384 and rounded down (R251). -/
def campRms (l : List Int) : Nat := Nat.sqrt ((l.map (fun v => v.natAbs * v.natAbs)).sum / (80 * 2 ^ 18))

/-- The RMS of a camp window is below `pct` per cent of threshold `thr`. -/
def campBelow (l : List Int) (thr pct : Nat) : Bool :=
  decide ((l.map (fun v => v.natAbs * v.natAbs)).sum * 10000 < 80 * 2 ^ 18 * (thr * pct) * (thr * pct))

/-- CAMP_WINDOW_END: the RMS of a window of 80 samples against both stages. -/
def execCampWindowEnd (t : Instant) (ch : Fin 8) (samples : List Int) (st : State) : Host.Outcome State Fault Refusal :=
  st.onChip (fun c =>
    match c.meas.campOn && samples.length == 80, (c.target 5).meas with
    | true, some im =>
      let k := nth ⟨0, 0, 0, 0, 0, 0⟩ im.chans (campChan ch.val)
      let rms := campRms samples
      let c := c.at_ t
      c.forAll [0, 1] (fun c stg =>
        let i := 2 * ch.val + stg
        let thr := if stg = 0 then k.stage1 else k.stage2
        let x := nth ⟨false, 0, 0⟩ c.meas.campStages i
        let put (c : Chip) (y : CampStage) : Chip := c.modMeas (fun m => { m with campStages := modNth ⟨false, 0, 0⟩ (fun _ => y) m.campStages i })
        if x.up then
          let y : CampStage := ⟨true, x.wins + 1, max x.peak rms⟩
          if campBelow samples thr 95 then (put c ⟨false, 0, 0⟩).campRecord i true y else put c y
        else if campBelow samples thr 100 then c else (put c ⟨true, 0, rms⟩).campRecord i false ⟨true, 0, rms⟩)
    | _, _ => c)

/-- The 128 bits of a camp record (Table 08-10) as bytes, least significant first as the flash die stores numbers (R2). -/
def campBytes (r : CampRec) : List Byte :=
  leBytes ((((((r.dt * 2 ^ 15 + r.sub) * 8 + r.ch) * 2 + bit01 r.stg2) * 2 + bit01 r.drop) * 16) * 2 ^ 48 + r.rms * 2 ^ 32 + r.dur * 2 ^ 16 + r.seq) 16

/-- Station time of a calendar reading by the relation last recorded before entry (R253); zero where there is none. -/
def Chip.campTime (c : Chip) (r : CampRec) : Instant :=
  let d (k n : Nat) : Nat := ofBcd (r.dt / 2 ^ (4 * k) % 2 ^ (4 * n))
  let v : CalVal := ⟨r.sub, d 0 2, d 2 2, d 4 2, d 6 2, d 8 2, d 10 4 - 2000⟩
  match c.meas.campRel with
  | some (t, k) => (((t : Int) + ((calCounts v : Int) - k) * 1000000000 / 32768)).toNat
  | none => 0

/-- CAMP_RECORD_TRANSFER: every camp record that the queue of the recorder takes moves to it, in order (R253). -/
def execCampRecordTransfer (t : Instant) (st : State) : Host.Outcome State Fault Refusal :=
  st.onChip (fun c =>
    if c.running = true ∧ c.meas.campOn = false then
      let c := c.at_ t
      let n := 256 - c.recd.queue.length
      let take := c.campRecs.take n
      let recs : List EvRec := take.map (fun r =>
        let p := TimePair.of (c.campTime r) (0xFE * 2 ^ 8 + 2 ^ 4)
        (⟨p, if r.stg2 then 0x0816 else 0x0815, if r.stg2 then sevMajor else sevMinor, false, 6, r.ch, 0, [], 0, 0, 0, campBytes r⟩ : EvRec))
      let c := (c.modRec (fun x => { x with queue := queueEvents x.queue recs })).bumpBy 0x2600 0x0E take.length
      { c with campRecs := c.campRecs.drop n }
    else c)

end Sys2Proof.Machine
end

