-- ==== Sys2Proof/Machine/Pair.lean ====
section
/-! DEFINITION. The pair (06): frames of the Onbex link, role transitions of Table 06-5, hot shadow, dispatch hash, takeover and
handover. CMD frames are in the file of the dictionary, whose writes they carry. -/

namespace Sys2Proof.Machine

/-! ### Link, frames, sequence numbers (R174-R177) -/

def Chip.linkUp (c : Chip) : Bool := c.bit 0x2400 0x0A 0
/-- The partner's baton toggles. -/
def Chip.batonSeen (c : Chip) : Bool := c.bit 0x2400 0x0A 2

/-- A copy is abandoned (Table 06-5): JOINING, or FENCED with cause 12 at the third in succession. -/
def Chip.abandonCopy (c : Chip) : Chip :=
  let n := c.pair.abandoned + 1
  if 3 ≤ n then (c.setPair psFenced 12).modPair (fun p => { p with abandoned := 0 })
  else (c.setPair psJoining 0).modPair (fun p => { p with abandoned := n })

/-- Sequence number x comes before y, compared modulo 2^32 over half the range. -/
def lsnBefore (x y : Nat) : Bool := decide (0 < (y + 2 ^ 32 - x) % 2 ^ 32 ∧ (y + 2 ^ 32 - x) % 2 ^ 32 < 2 ^ 31)

/-- A frame is lost for good (R177): SYNCHRONISING restarts the copy; hot shadow treats it as a missing seal. -/
def Chip.frameLost (c : Chip) : Chip :=
  if c.pairState = psSynchronising then c.abandonCopy
  else if c.pairState = psStandbyReady then c.modPair (fun p => { p with lost := true })
  else c

/-- Take a link sequence number: the chip after it, with NAK sent on a gap, and whether the frame is taken (log 37). A missing frame
that a later retransmission has passed is lost. -/
def Chip.takeLsn (c : Chip) (lsn : Nat) : Chip × Bool :=
  match c.pair.lsnIn with
  | none => (c.modPair (fun p => { p with lsnIn := some lsn }), true)
  | some l =>
    let k := (lsn + 2 ^ 32 - l) % 2 ^ 32
    if 0 < k ∧ k < 2 ^ 31 then
      let gap := (List.range (k - 1)).map (fun i => (l + 1 + i) % 2 ^ 32)
      let c := c.modPair (fun p => { p with lsnIn := some lsn, missing := p.missing ++ gap })
      (if 1 < k then c.send (.nak ((l + 1) % 2 ^ 32)) else c, true)
    else
      let late := c.pair.missing.filter (fun x => lsnBefore x lsn)
      let got := c.pair.missing.contains lsn
      let c := c.modPair (fun p => { p with missing := p.missing.filter (fun x => lsnBefore lsn x) })
      (if late ≠ [] then c.frameLost else c, got)

/-- Receive a frame that carries `f` and does `eff`: the port carries frames, and the header and payload are those of such a frame; a
CRC error, and a frame of a reserved type, is discarded and counted (R176, R177). -/
def Chip.onFrame (c : Chip) (rx : Rx) (f : OnbexOut) (eff : Chip → Chip) : Chip :=
  if c.onbexOpen then
    let c' := c.at_ rx.t
    if rx.crcOk = false then c'.bump 0x2400 0x10
    else if frameTypes.contains rx.typ = false then (c'.takeLsn rx.lsn).1.bump 0x2400 0x10
    else if rxCarries rx f then
      match c'.takeLsn rx.lsn with
      | (c, true) => eff c
      | (c, false) => c
    else c
  else c

/-- A HEARTBEAT carries the number of the last frame sent: a difference is a gap. -/
def Chip.heartbeatLsn (c : Chip) (lsn : Nat) : Chip :=
  match c.pair.lsnIn with
  | none => c.modPair (fun p => { p with lsnIn := some lsn })
  | some l =>
    let k := (lsn + 2 ^ 32 - l) % 2 ^ 32
    if 0 < k ∧ k < 2 ^ 31 then
      let gap := (List.range k).map (fun i => (l + 1 + i) % 2 ^ 32)
      (c.modPair (fun p => { p with lsnIn := some lsn, missing := p.missing ++ gap })).send (.nak ((l + 1) % 2 ^ 32))
    else c

/-- NAK: every stored frame from the first missing one on is sent again, in order (R177), with RTX set; its copy stays in the store. -/
def execNak (rx : Rx) (first : Nat) (s : State) : Host.Outcome State Fault Refusal :=
  s.onChip (fun c => c.onFrame rx (.nak first) (fun c =>
    c.modPair (fun p => { p with resent := (p.store.map (·.1)).filter (fun x => !lsnBefore x first) })))

/-! ### Heartbeat and baton (R173, R177, R185) -/

/-- HEARTBEAT_TRANSMIT: every microsecond while the link is up, with the LSN of the last frame sent. -/
def execHeartbeatTransmit (t : Instant) (s : State) : Host.Outcome State Fault Refusal :=
  s.onChip (fun c =>
    let due := match c.pair.hbSent with
      | some (l, _, _) => decide (l + 1000 ≤ t)
      | none => true
    if c.onbexOpen = true ∧ due = true then
      let c := c.at_ t
      let f : OnbexOut := .heartbeat (c.rd 0x2400 0x03) c.pair.sideB (c.pairAt t) (c.pairAt c.pair.began)
      c.modPair (fun p => { p with hbSent := some (t, (p.lsnOut + 2 ^ 32 - 1) % 2 ^ 32, f) })
    else c)

/-- A grant is cancelled; the hold-off restarts (R191). -/
def Chip.cancelGrant (c : Chip) : Chip :=
  if c.pair.grant.isSome || c.pair.asked then
    c.modPair (fun p => { p with grant := none, asked := false, readySince := if p.readySince.isSome then some c.now else none })
  else c

/-- The partner's state changes: a grant does not survive it, a partner no longer ready ends the updates under way (R210), and the
active copies to a partner that synchronises (R179). -/
def Chip.partnerTo (c : Chip) (st : Nat) : Chip :=
  if c.partnerState = st then c
  else
    let was := c.partnerReady
    let c := (c.wr 0x2400 0x04 st).cancelGrant
    let c := if was then c.abortUpdates 20 else c
    if c.pairState = psActive ∧ st = psSynchronising then
      c.modPair (fun p => { p with copying := true, synced := [], sharedSynced := false })
    else c.modPair (fun p => { p with copying := false })

/-- HEARTBEAT of the partner. A standby in timebase state 4 takes the active's time, half the round trip later (R185). A partner
of the same side fences a joining chip (R425). -/
def execHeartbeat (rx : Rx) (state : Nat) (sideB : Bool) (sent began : TimePair) (s : State) : Host.Outcome State Fault Refusal :=
  s.onChip (fun c =>
    if c.onbexOpen then
      let c' := c.at_ rx.t
      if rx.crcOk = false then c'.bump 0x2400 0x10
      else if frameTypes.contains rx.typ = false then c'.bump 0x2400 0x10
      else if rxCarries rx (.heartbeat state sideB sent began) then
        let c := c'.heartbeatLsn rx.lsn
        let c := c.modPair (fun p => { p with lastHb := some rx.t, partnerBegan := began.instant, partnerSideB := sideB })
        let c := (c.setBit 0x2400 0x0A 1 true).partnerTo state
        let c := if c.rd 0x2A00 0x01 = 4 then
            (c.modTb (fun b => { b with bestSeen := fieldOf sent.w1.toNat 17 0 })).at_ (sent.instant + c.rd 0x2400 0x0B / 2)
          else c
        if c.pairState = psJoining ∧ sideB = c.pair.sideB then c.setPair psFenced 10 else c
      else c
    else c)

/-- A seal fault of Table 06-5: in hot shadow the chip synchronises again, in SYNCHRONISING the class leaves hot shadow (R182). -/
def Chip.sealFault (c : Chip) (n : Nat) : Chip :=
  if c.pairState = psStandbyReady then (c.bump 0x2400 0x0D).setPair psSynchronising 9
  else c.modPair (fun p => { p with synced := p.synced.filter (· != n) })

/-- A held release whose M + 6.7 µs has passed by t is a seal fault (R182). -/
def Chip.expireHeld (c : Chip) (t : Instant) : Chip :=
  match c.pair.heldRel.find? (fun p => decide (p.2 + 6700 < t)) with
  | some p => (c.modPair (fun x => { x with heldRel := x.heldRel.filter (fun q => q.1 != p.1) })).sealFault p.1
  | none => c

/-- Whether a seal that this chip holds takes a queued item: among the edits of its class the first NED, among the commands the first NCM
(Table 06-3). -/
def Chip.sealTakes (c : Chip) (q : Queued) : Bool :=
  c.pair.seals.any (fun x => x.e.cls.val == q.cls &&
    (if isEdit q then c.sealedEdits x.e else (c.dueCmds q.cls x.e.m.instant).take x.e.ncm).contains q)

/-- A new active sources the currents that it held armed (R190). -/
def Chip.sourceAo (c : Chip) : Chip :=
  if c.field.linkUp && c.fieldAlive && !c.field.failing then
    c.forAll (List.range 4) (fun c o => c.driveAo o (c.aoch o).armed.1 (c.aoch o).armed.2)
  else c

/-- A chip that enters hot shadow arms what its classes command, as the copied images tell it: the last dispatched word, or the safe state of a
class that has stopped. -/
def Chip.armAo (c : Chip) : Chip :=
  c.forAll (List.range 16) (fun c n => match (c.cl n).cfg with
    | some g => g.aoOut.foldl (fun c p =>
        let w := (WMem.get (c.cl n).pub p.2).toNat
        if (c.cl n).undisp.contains p.2 then c
        else
          let c := c.dispatchAo p.1 (fieldOf w 31 0) (fieldOf w 47 44)
          if isBusy (c.clState n) then c else c.safeAo p.1) c
    | none => c)

/-- A takeover (R188): ACTIVE; frames not confirmed are emitted, AO currents sourced, held releases started from the own queues. Edits
and commands of the old active that no seal held here covers are lost (R190); items of the old active serve the seals that are held. -/
def Chip.takeOver (c : Chip) (cause : Nat) : Chip :=
  let held := c.pair.heldRel
  let frames := c.pair.heldFrames
  let c := (c.bump 0x2400 0x0C).setPair psActive cause
  let c := { c with regions := c.regions.map (fun (r : Region) => { r with queue := r.queue.filter (fun q => c.sealTakes q) }) }
  let c := frames.foldl (fun c p => c.goosePublish p.2 (fun a => WMem.get (c.cl p.2).pub a) p.1) c
  let c := c.sourceAo
  (held.foldl (fun c p => (c.applyEdits (clsRegion (c.cl p.1)) p.2).musterClass p.1 p.2) c).sendSeals

/-- A takeover after which no partner is ready: updates under way are aborted (R210). -/
def Chip.takeOverAlone (c : Chip) (cause : Nat) : Chip := (c.takeOver cause).abortUpdates 20

/-- BATON_STOPPED: no edge for 2.0 µs. -/
def execBatonStopped (t : Instant) (s : State) : Host.Outcome State Fault Refusal :=
  s.onChip (fun c =>
    if c.pair.inForce = true ∧ c.batonSeen = true then
      let c := ((c.at_ t).setBit 0x2400 0x0A 2 false).expireHeld t
      if c.pairState = psSynchronising then c.abandonCopy
      else if c.pairState = psStandbyReady ∧ c.bit 0x2400 0x0A 1 = false then c.takeOverAlone 3
      else c
    else c)

/-- BATON_TOGGLING: a joining chip with equal CAPS synchronises; of two active chips the later one, or side B, fences itself. -/
def execBatonToggling (t : Instant) (s : State) : Host.Outcome State Fault Refusal :=
  s.onChip (fun c =>
    if c.pair.inForce = true ∧ c.batonSeen = false then
      let c := (c.at_ t).setBit 0x2400 0x0A 2 true
      if c.pairState = psJoining ∧ c.pair.capsEqual = true ∧ c.linkUp = true then c.setPair psSynchronising 0
      else if c.pairState = psActive then
        let later := c.linkUp && decide (c.pair.partnerBegan < c.pair.began)
        let tie := (!c.linkUp || c.pair.began == c.pair.partnerBegan) && c.pair.sideB
        if later || tie then c.setPair psFenced 6 else c
      else c
    else c)

/-- HEARTBEAT_LOSS: none for 4.5 µs. -/
def execHeartbeatLoss (t : Instant) (s : State) : Host.Outcome State Fault Refusal :=
  s.onChip (fun c =>
    match c.pair.lastHb with
    | some l =>
      if c.pair.inForce = true ∧ c.bit 0x2400 0x0A 1 = true ∧ l + 4500 ≤ t then
        let c := (((c.at_ t).setBit 0x2400 0x0A 1 false).partnerTo 15).expireHeld t
        if c.pairState = psStandbyReady ∧ c.batonSeen = false then c.takeOverAlone 3 else c
      else c
    | none => c)

/-! ### Link loss and return (R189) -/

/-- ONBEX_LINK_LOSS: LNE shows the lanes that are still trained; with the baton toggling a standby fences itself; the active reports a
split link, whose event has no code of its own (log 35). -/
def execOnbexLinkLoss (x : LaneLoss) (s : State) : Host.Outcome State Fault Refusal :=
  s.onChip (fun c =>
    if c.pair.inForce = true ∧ c.linkUp = true then
      let c := ((c.at_ x.t).setBit 0x2400 0x0A 0 false).setFld 0x2400 0x0A 7 4 x.lanes.toNat
      let c := (c.modPair (fun p => { p with lsnIn := none, missing := [], capsSeen := none, capsEqual := false })).partnerTo 15
      if c.pairState = psSynchronising then c.abandonCopy
      else if c.pairState = psStandbyReady ∧ c.batonSeen = true then c.setPair psFenced 7
      else if c.pairState = psActive then
        (c.setBit 0x2400 0x0A 3 true).event (Config.pairEventCode 0) sevMajor 9 0 []
      else c
    else c)

/-- ONBEX_LINK_UP with all four lanes: the round trip is measured. While the port is fenced the link carries no frame (R37). -/
def execOnbexLinkUp (t : Instant) (roundTrip : Nat) (s : State) : Host.Outcome State Fault Refusal :=
  s.onChip (fun c =>
    if c.pair.inForce = true ∧ c.linkUp = false then
      let c := ((c.at_ t).setFld 0x2400 0x0A 7 4 0xF).setBit 0x2400 0x0A 0 true
      let c := (c.setBit 0x2400 0x0A 3 false).wr 0x2400 0x0B (min roundTrip 8000)
      if c.portFenced 14 then c else c.onbexBack
    else c)

/-! ### Joining (R178, R179) -/

/-- The CAPS of the partner equal those of this chip, firmware version aside (R179). -/
def Chip.capsMatch (c : Chip) (p : Caps) : Bool := decide ({ p with firmware := c.ownCaps.firmware } = c.ownCaps)

/-- CAPS of the partner: compared; an active chip answers with its own (log 38). -/
def execCaps (rx : Rx) (p : Caps) (s : State) : Host.Outcome State Fault Refusal :=
  s.onChip (fun c => c.onFrame rx (.caps p) (fun c =>
    let eq := c.capsMatch p
    let c := c.modPair (fun x => { x with capsSeen := some p, capsEqual := eq })
    if c.pairState = psJoining then
      if eq = false then c.setPair psFenced 10
      else if c.batonSeen then c.setPair psSynchronising 0 else c
    else if c.pairState = psActive then c.send (.caps c.ownCaps)
    else c))

/-- JOINING_TIMEOUT: after 5 ms the election, or a lone start (Table 06-5). -/
def execJoiningTimeout (t : Instant) (s : State) : Host.Outcome State Fault Refusal :=
  s.onChip (fun c =>
    if c.pairState = psJoining ∧ c.pair.joinedAt + 5000000 ≤ t then
      let pref := c.rd 0x2400 0x05
      let mine := if pref = 0 then !c.pair.sideB else pref == (if c.pair.sideB then 2 else 1)
      let elected := c.linkUp && decide (c.partnerState = psJoining) && c.pair.capsEqual && mine
      let alone := !c.linkUp && !c.batonSeen
      if elected || alone then (c.at_ t).setPair psActive 1 else c
    else c)

/-- STATE: a page received in SYNCHRONISING. -/
def execState (rx : Rx) (sp : PageSpace) (page : Nat) (words : List Word) (s : State) : Host.Outcome State Fault Refusal :=
  s.onChip (fun c => c.onFrame rx (.state sp page words) (fun c =>
    if c.pairState = psSynchronising then
      (c.takePage sp page words).modPair (fun p => { p with pages := p.pages ++ [(sp, page)] })
    else c))

/-- Whether the copy has brought a page that the given test picks. -/
def Chip.pageCame (c : Chip) (f : PageSpace → Option (Fin 16)) (n : Nat) : Bool := c.pair.pages.any (fun p => match f p.1 with
  | some k => k.val == n
  | none => false)
/-- The classes running on the active whose state the copy has brought: those alone have event flags. -/
def Chip.copiedClasses (c : Chip) : List Nat :=
  (List.range 16).filter (c.pageCame (fun
    | .eventFlags k => some k
    | _ => none))
/-- The classes that the copy has brought in a state in which they do not run. -/
def Chip.copiedRest (c : Chip) : List Nat :=
  (List.range 16).filter (fun n => c.pageCame (fun
    | .ioQuality k => some k
    | _ => none) n && !c.copiedClasses.contains n)

/-- The D-banks of a class that a copy has brought in full are rewritten: their fences end (Table 01-7). -/
def Chip.banksCopied (c : Chip) (n : Nat) : Chip :=
  c.forAll ((clsTeam (c.cl n)).filter (fun e => (List.range 49).all (fun i => c.pair.pages.any (fun p => p.2 == i && (match p.1 with
    | .dBank x => x.val == e
    | _ => false)))))
    (fun c e => c.bankRewritten e .data)

/-- STATE_END: the class enters hot shadow; with every running class and the shared state, STANDBY_READY. -/
def execStateEnd (rx : Rx) (cls : Option (Fin 16)) (s : State) : Host.Outcome State Fault Refusal :=
  s.onChip (fun c => c.onFrame rx (.stateEnd (cls.map (·.val))) (fun c =>
    if c.pairState = psSynchronising then
      let c := match cls with
        | some n => ((c.banksCopied n.val).toState n.val csRunning).modPair (fun p => { p with synced := n.val :: p.synced })
        | none => c.modPair (fun p => { p with sharedSynced := true, synced := p.synced ++ c.copiedRest })
      if c.pair.sharedSynced = true ∧ c.copiedClasses.all (fun n => c.pair.synced.contains n) = true then (c.setPair psStandbyReady 0).armAo
      else c
    else c))

/-! ### What the active sends (R180, R205) -/

/-- Whether a class is in hot shadow on this chip. -/
def Chip.shadows (c : Chip) (n : Nat) : Bool :=
  c.pairState == psStandbyReady || (c.pairState == psSynchronising && c.pair.synced.contains n)

/-- ITEM: items wait for the seals that take them. A frame of several items is laid out as its first one is (log 36). -/
def execItem (rx : Rx) (items : List (Fin 16 × Item)) (s : State) : Host.Outcome State Fault Refusal :=
  s.onChip (fun c => c.onFrame rx (.item 0 default) (fun c =>
    if c.pairState = psStandbyReady ∨ c.pairState = psSynchronising then
      let c := c.bumpBy 0x2200 0x09 ((items.filter (fun p => p.2.late)).length)
      let c := c.bumpBy 0x2600 0x0A ((items.filter (fun p => decide (6 < p.2.qc))).length)
      c.modPair (fun p => { p with fwdItems := p.fwdItems ++ items.map (fun q => (q.1.val, q.2)) })
    else c))

/-- EDIT: queued as the active queued it. -/
def execEdit (rx : Rx) (q : Queued) (s : State) : Host.Outcome State Fault Refusal :=
  s.onChip (fun c => c.onFrame rx (.edit q) (fun c =>
    if c.pairState = psStandbyReady ∨ c.pairState = psSynchronising then
      c.modRegion q.region (fun x => { x with queue := x.queue ++ [q] })
    else c))

/-- An item forwarded for class n is taken by muster m: it stands before the cut-off, or it is a frozen word of m itself (log 100). -/
def fwdTaken (n : Nat) (m : Instant) (p : Nat × Item) : Bool :=
  p.1 == n && (match p.2.src with
    | .frozen _ => decide (p.2.stamp ≤ m)
    | _ => before m p.2.stamp)
/-- Items forwarded for class n that muster m takes. -/
def Chip.fwdOf (c : Chip) (n : Nat) (m : Instant) : List Item := (c.pair.fwdItems.filter (fwdTaken n m)).map (·.2)

/-- The hash of the image that this standby assembles for the muster that a seal names. -/
def Chip.ownImageHash (c : Chip) (e : SealEntry) : Nat :=
  let n := e.cls.val
  let m := e.m.instant
  if 0 < e.ncm then c.imageHash n (c.takenCmds n m) else (c.freeze false n m (c.fwdOf n m)).imageHash n (c.sealedEdits e)

/-- One entry of a seal: late by more than M + 3.0 µs, or of a differing image hash, it is a seal fault (R182). -/
def Chip.takeSeal (c : Chip) (t : Instant) (e : SealEntry) : Chip :=
  let n := e.cls.val
  if c.shadows n then
    let m := e.m.instant
    if t ≤ m + 3000 ∧ c.ownImageHash e = e.hash then
      c.modPair (fun p => { p with seals := p.seals ++ [⟨e, t, true⟩] })
    else c.sealFault n
  else c

def execSeal (rx : Rx) (es : List SealEntry) (s : State) : Host.Outcome State Fault Refusal :=
  s.onChip (fun c => c.onFrame rx (.seal es) (fun c => es.foldl (fun c e => c.takeSeal rx.t e) (c.dispatchAll rx.t)))

/-- ACCUM: the standby takes the active's accumulators (R185). -/
def execAccum (rx : Rx) (accs : List (List Int)) (s : State) : Host.Outcome State Fault Refusal :=
  s.onChip (fun c => c.onFrame rx (.accum accs) (fun c =>
    if c.pairState = psStandbyReady ∨ c.pairState = psSynchronising then
      c.modMeas (fun m => { m with sets := (m.sets.zipIdx).map (fun p => match accs[p.2]? with
        | some l => { p.1 with acc := l }
        | none => p.1) })
    else c))

/-- ACCUM_TRANSMIT at a second boundary (Table 06-2). -/
def execAccumTransmit (t : Instant) (s : State) : Host.Outcome State Fault Refusal :=
  s.onChip (fun c =>
    if t % 1000000000 = 0 ∧ c.pairState = psActive then (c.at_ t).send (.accum (c.meas.sets.map (·.acc))) else c)

/-! ### Hot shadow (R181, R182, R184) -/

/-- Key of a source in `discr`, for the sources that R184 compares. -/
def discrKey : ItemSrc → Nat
  | .diLevel => 1
  | .supply => 2
  | .ai a => 16 + a.val
  | .diRecord d => 64 + d.val
  | _ => 0

/-- Whether this chip's own word x of a source differs from the active's word w (R184). -/
def Chip.differs (c : Chip) (src : ItemSrc) (w x : Word) : Bool :=
  match src with
  | .diLevel => w != x
  | .supply => fieldOf w.toNat 3 0 != fieldOf x.toNat 3 0
  | .ai _ =>
    let a := fieldOf w.toNat 31 0
    let b := fieldOf x.toNat 31 0
    decide (c.rd 0x2400 0x09 * 1000 < max a b - min a b)
  | .diRecord _ => w.getLsbD 0 != x.getLsbD 0
  | _ => false

/-- Compare the image of class n frozen at m with the one of this chip's own inputs at the same muster. -/
def Chip.compareInputs (c : Chip) (n : Nat) (m : Instant) : Chip :=
  match (c.cl n).cfg with
  | none => c
  | some g =>
    if (c.cl n).ownM = some m then
      g.inputs.foldl (fun c p =>
        let k := discrKey p.src
        if k = 0 then c
        else
          let old := NMem.get c.pair.discr k
          let new := if c.differs p.src (WMem.get (c.cl n).img p.addr) (WMem.get (c.cl n).own p.addr) then (if old = 0 then m + 2 else old)
            else 0
          c.modPair (fun x => { x with discr := NMem.set x.discr k new })) c
    else c

/-- Execute the release of class n at m from its seal. Items that a seal with commands alone does not take stay for the next taken
muster, as they do on the active; the own items whose stamps a taken seal covers are dropped (R184). -/
def Chip.shadowRelease (c : Chip) (n : Nat) (m : Instant) (e : SealEntry) : Chip :=
  let its := c.fwdOf n m
  let c := c.modPair (fun p => { p with seals := p.seals.filter (fun x => !(x.e.cls.val == n && x.e.m.instant == m)) })
  if 0 < e.ncm then c.takeCmds n m
  else
    let c := c.modPair (fun p => { p with fwdItems := p.fwdItems.filter (fun q => !fwdTaken n m q) })
    let c := c.applySealed e
    let c := c.bumpBy 0x2200 0x07 ((c.region (clsRegion (c.cl n))).queue.filter (fun q => isEdit q && q.cls == n && before m q.stamp)).length
    let c := (c.freeze false n m its).startCycle n m e.m
    let c := (c.modCl n (fun k => { k with cycle := k.cycle.map (fun cy => { cy with cy := e.cy }) })).wr (0x2210 + n) 0x09 e.cy
    (c.compareInputs n m).modCl n (fun k => { k with items := k.items.filter (fun i => !before m i.stamp) })

/-- Class n is expected to muster at m with a seal: it has a release, or it is stopped and has commands due (R180, R182). -/
def Chip.sealExpected (c : Chip) (n : Nat) (m : Instant) : Bool :=
  c.releasedAt n m && (c.runsFrom n m || !(c.takenCmds n m).isEmpty)

/-- SHADOW_START at M + 3.0 µs: with its seal the release starts, else a standby holds it, as it does after a frame was lost for good
(R177); a chip that took over since M starts it from its own queues, and goes on with the seals it holds (R181, R182, R188). -/
def execShadowStart (t : Instant) (cls : Fin 16) (s : State) : Host.Outcome State Fault Refusal :=
  s.onChip (fun c =>
    let n := cls.val
    let m := t - 3000
    let took := c.pairState == psActive && decide (m < c.pair.began ∧ (c.cl n).lastM ≠ some m)
    if 3000 ≤ t ∧ isTick m = true ∧ (c.shadows n || took) = true then
      let c := (c.dispatchAll t).at_ t
      if (c.cl n).cycle.isSome then c
      else
        match c.pair.seals.find? (fun x => x.e.cls.val == n && x.e.m.instant == m), c.pair.lost with
        | some x, false => c.shadowRelease n m x.e
        | _, _ =>
          if took then ((c.applyEdits (clsRegion (c.cl n)) m).musterClass n m).sendSeals
          else if c.sealExpected n m then c.modPair (fun p => { p with heldRel := p.heldRel ++ [(n, m)] })
          else c
    else c)

/-- SEAL_FAULT_DEADLINE at M + 6.7 µs of a held release. -/
def execSealFaultDeadline (t : Instant) (cls : Fin 16) (s : State) : Host.Outcome State Fault Refusal :=
  s.onChip (fun c =>
    if c.pair.heldRel.any (fun p => p.1 == cls.val && decide (p.2 + 6700 ≤ t)) then
      let c := (c.at_ t).modPair (fun p => { p with heldRel := p.heldRel.filter (fun q => q.1 != cls.val) })
      c.sealFault cls.val
    else c)

/-- INPUT_DISCREPANCY: a difference of a source has lasted the set time; it is counted and recorded once (R184). -/
def execInputDiscrepancy (t : Instant) (src : ItemSrc) (s : State) : Host.Outcome State Fault Refusal :=
  s.onChip (fun c =>
    let k := discrKey src
    let since := NMem.get c.pair.discr k
    if c.pairState = psStandbyReady ∧ k ≠ 0 ∧ 2 ≤ since ∧ since - 2 + c.rd 0x2400 0x08 * 1000000 ≤ t then
      let c := (c.at_ t).modPair (fun p => { p with discr := NMem.set p.discr k 1 })
      (c.bump 0x2400 0x0F).event (Config.pairEventCode 2) sevMinor 9 0 []
    else c)

/-! ### Dispatch hash (R187) -/

/-- A mismatch at D: the active records it and goes on; the standby synchronises again without emitting the frames of D. -/
def Chip.hashMismatch (c : Chip) (d : Instant) : Chip :=
  let c := (c.bump 0x2400 0x0E).cancelGrant
  let c := c.modPair (fun p => { p with
    ownHash := p.ownHash.filter (fun x => x.1 != d), partnerHash := p.partnerHash.filter (fun x => x.1 != d),
    heldFrames := p.heldFrames.filter (fun x => x.1.instant != d) })
  if c.pairState = psActive then c.event (Config.pairEventCode 1) sevMajor 9 0 []
  else (c.bump 0x2400 0x0D).setPair psSynchronising 8

/-- The standby emits the frames of D whose hash has matched. -/
def Chip.hashMatch (c : Chip) (d : Instant) : Chip :=
  let mine := c.pair.heldFrames.filter (fun x => x.1.instant == d)
  let c := c.modPair (fun p => { p with heldFrames := p.heldFrames.filter (fun x => x.1.instant != d) })
  mine.foldl (fun c p => c.goosePublish p.2 (fun a => WMem.get (c.cl p.2).pub a) p.1) c

/-- HASH of the partner for D: where it equals the own one and D has passed the standby emits its frames; a difference has its effect at
D + 2.5 µs, until when an ABDICATE makes the standby take over instead (R187). -/
def execHash (rx : Rx) (h : Nat) (d : TimePair) (s : State) : Host.Outcome State Fault Refusal :=
  s.onChip (fun c => c.onFrame rx (.hash h d) (fun c =>
    if c.pairState = psActive ∨ c.pairState = psStandbyReady then
      let d := d.instant
      let c := c.modPair (fun p => { p with partnerHash := p.partnerHash.filter (fun x => x.1 != d) ++ [(d, h)] })
      match c.pair.ownHash.find? (fun x => x.1 == d) with
      | some x => if d ≤ rx.t ∧ x.2 = h then c.hashMatch d else c
      | none => c
    else c))

/-- HASH_DEADLINE at D + 2.5 µs of the oldest own hash: equal, unequal, or absent while the link is up and the partner shadows. -/
def execHashDeadline (t : Instant) (s : State) : Host.Outcome State Fault Refusal :=
  s.onChip (fun c =>
    match c.pair.ownHash.find? (fun x => decide (x.1 + 2500 ≤ t)) with
    | some (d, h) =>
      let c := c.at_ t
      let other := c.pair.partnerHash.find? (fun x => x.1 == d)
      let drop (c : Chip) : Chip := c.modPair (fun p => { p with
        ownHash := p.ownHash.filter (fun x => x.1 != d), partnerHash := p.partnerHash.filter (fun x => x.1 != d) })
      (match other with
        | some x => if x.2 = h then drop (c.hashMatch d) else c.hashMismatch d
        | none =>
          if c.linkUp = true ∧ (c.partnerReady = true ∨ c.pairState = psStandbyReady) then c.hashMismatch d else drop c)
    | none => c)

/-! ### Takeover, handover, commands (R188-R193, R197) -/

/-- ABDICATE of the partner: a standby in hot shadow takes over. -/
def execAbdicate (rx : Rx) (cause : Nat) (s : State) : Host.Outcome State Fault Refusal :=
  s.onChip (fun c => c.onFrame rx (.abdicate cause) (fun c =>
    let c := c.expireHeld rx.t
    if c.pairState = psStandbyReady ∧ cause < 16 then c.takeOverAlone 2 else c.cancelGrant))

/-- FENCE of the partner. -/
def execFenceFrame (rx : Rx) (cause : Nat) (s : State) : Host.Outcome State Fault Refusal :=
  s.onChip (fun c => c.onFrame rx (.fence cause) (fun c => if cause < 16 then c.partnerTo psFenced else c))

/-- The handover tick of a grant at t: the first tick boundary at least 1 ms after (R191). -/
def handoverTick (t : Instant) : Instant := settingTick t

/-- The active grants a handover with the given cause. -/
def Chip.grantRole (c : Chip) (t : Instant) (cause : Nat) : Chip :=
  (c.modPair (fun p => { p with grant := some (handoverTick t), grantCause := cause })).send (.roleGrant (handoverTick t))

/-- ROLE: a request is granted by an active whose partner is ready; a grant names Th. The frame carries no cause, and each chip takes the
one it knows of, so that the two can report different ones (DESIGN CHOICE, log 109): the active 5 while an update of the MSS awaits
its swap and 4 otherwise, the standby 4 where it asked and 5 where it did not. -/
def execRole (rx : Rx) (grant : Option Instant) (s : State) : Host.Outcome State Fault Refusal :=
  s.onChip (fun c => c.onFrame rx (match grant with
    | none => .roleRequest
    | some th => .roleGrant th) (fun c =>
    match grant with
    | none =>
      if c.partnerReady && c.pair.grant.isNone then
        let update := c.rd 0x2514 0x05 == 4
        (c.grantRole rx.t (if update then 5 else 4)).modTarget 4 (fun x => if update then { x with swapDue := true } else x)
      else c
    | some th =>
      if c.pairState = psStandbyReady then
        c.modPair (fun p => { p with grant := some th, grantCause := if p.asked then 4 else 5 })
      else c))

/-- REVERT_HOLD_OFF_EXPIRY on a preferred standby. -/
def execRevertHoldOffExpiry (t : Instant) (s : State) : Host.Outcome State Fault Refusal :=
  s.onChip (fun c =>
    match c.pair.readySince with
    | some r =>
      if c.pairState = psStandbyReady ∧ c.rd 0x2400 0x06 = 1 ∧ c.rd 0x2400 0x05 = (if c.pair.sideB then 2 else 1) ∧
          c.pair.asked = false ∧ r + c.rd 0x2400 0x07 * 1000000000 ≤ t then
        ((c.at_ t).modPair (fun p => { p with asked := true })).send .roleRequest
      else c
    | none => c)

/-- The items that this chip received before Th and that its musters from Th on will take go to the new standby (R180, R191). -/
def Chip.forwardItems (c : Chip) : Chip :=
  c.forAll (List.range 16) (fun c n => (c.cl n).items.foldl (fun c i => c.send (.item n i)) c)

/-- HANDOVER_TICK at Th: the two chips swap roles (R191). A chip that turns standby sources 0 mA on every AO and holds their currents armed (Table
06-6). -/
def execHandoverTick (t : Instant) (s : State) : Host.Outcome State Fault Refusal :=
  s.onChip (fun c =>
    match c.pair.grant with
    | some th =>
      if th ≤ t then
        let c := c.at_ t
        let cause := c.pair.grantCause
        if c.pairState = psActive then
          let c := c.setPair psStandbyReady cause
          if c.field.linkUp && c.fieldAlive && !c.field.failing then
            c.forAll (List.range 4) (fun c o => c.driveAo o 0 false)
          else c
        else if c.pairState = psStandbyReady then
          let n := c.rd 0x2400 0x0C
          ((c.takeOver cause).wr 0x2400 0x0C n).forwardItems
        else c
      else c
    | none => c)

/-- What a write of 0x2400.20 does (Table 06-14). -/
def Chip.pairCommand (c : Chip) (t : Instant) (cmd : Nat) : Except Nat Chip :=
  match cmd with
  | 1 => if c.pairState = psStandbyReady then .ok ((c.bump 0x2400 0x0D).setPair psSynchronising 0) else .error abState
  | 2 => if c.partnerReady then .ok (c.grantRole t 5) else .error abState
  | 3 =>
    let gone := match c.pair.fencedBy with
      | 11 => false
      | 10 => c.pair.sideB != c.pair.partnerSideB && (match c.pair.capsSeen with
        | some p => c.capsMatch p
        | none => true)
      | 7 => c.linkUp
      | _ => true
    if c.pairState = psFenced ∧ gone = true then .ok (c.setPair psJoining 0) else .error abState
  | 4 =>
    if c.pair.inForce = true ∧ c.pairState ≠ psFenced then
      .ok ((if c.partnerReady then c.abdicateChip else c.setPair psFenced 0).modPair (fun p => { p with fencedBy := 0 }))
    else .error abState
  | _ => .error abRange

/-- A pair command from the wire, if it is the one of the row. -/
def Chip.pairWrite (c : Chip) (a : Acc) (v cmd : Nat) : Chip :=
  if fieldOf v 3 0 = cmd then c.writeNum a 0x2400 0x20 v (fun c _ => c.pairCommand a.t cmd) else c

def execResynchronise (a : Acc) (v : Nat) (s : State) : Host.Outcome State Fault Refusal := s.onChip (fun c => c.pairWrite a v 1)
def execPlannedSwap (a : Acc) (v : Nat) (s : State) : Host.Outcome State Fault Refusal := s.onChip (fun c => c.pairWrite a v 2)
def execLeaveFenced (a : Acc) (v : Nat) (s : State) : Host.Outcome State Fault Refusal := s.onChip (fun c => c.pairWrite a v 3)
def execFenceThisChip (a : Acc) (v : Nat) (s : State) : Host.Outcome State Fault Refusal := s.onChip (fun c => c.pairWrite a v 4)

end Sys2Proof.Machine
end

