-- ==== Sys2Proof/Machine/Verifier.lean ====
section
/-! DEFINITION. The verifier: what is found of an application image on every path of its code (R62, R64, R81, R83, R84, R94, R95, R97, R100,
R106, R107, R111, R134, R139, R143, R146, R150, R198). A path takes every choice that a guard leaves open (log 7); what register values
can be is free (`Config.provenRange`, `Config.branchBound`), as no rule says how the verifier proves it. -/

namespace Sys2Proof.Machine

/-! ### Lists and times of classes -/

/-- Pairwise relation over a list. -/
def allPairs {α : Type} (p : α → α → Bool) : List α → Bool
  | [] => true
  | x :: l => l.all (p x) && allPairs p l

/-- Every choice of one element from each list. -/
def choose {α : Type} : List (List α) → List (List α)
  | [] => [[]]
  | l :: ls => (choose ls).flatMap (fun r => l.map (fun x => x :: r))

/-- Members of a class as set in its image. -/
def cfgTeam (g : ClsCfg) : List Nat := (List.range 36).filter (fun e => g.members.testBit e)

/-- σ of R63 in ns. -/
def sigmaNs (g : ClsCfg) : Nat := if g.foc then 40000 else 0
/-- The right side of R63. -/
def latestNs (g : ClsCfg) : Nat := g.offset + g.overrun * g.period * tickNs

/-! ### One bundle -/

/-- An operation of a bundle with its guard. -/
structure VOp where
  sl : Slot
  i  : Instr
  pg : BitVec 4
  pi : Bool
  deriving DecidableEq, Repr

/-- An operation of a slot, where its word is one (R87, R99). -/
def vOp (e : Fin 32) (d : Bool) (w : Nat) (sl : Slot) : Option VOp :=
  (decodeOp e true d 0 sl (slotBits w sl)).map (fun i => ⟨sl, i, fPg (slotBits w sl), fPi (slotBits w sl)⟩)

/-- The four operations of a bundle for an engine of profile E or D (R85, R100). -/
def bundleOps (e : Fin 32) (d : Bool) (w : Nat) : Option (List VOp) :=
  match vOp e d w .b, vOp e d w .a, vOp e d w .m, vOp e d w .c with
  | some b, some a, some m, some c => some [b, a, m, c]
  | _, _, _, _ => none

/-- An operation that its guard lets execute on some path: one under (!P0) never does. -/
def VOp.mayRun (o : VOp) : Bool := !(o.pg == 0 && o.pi)
/-- Two guards of which never both pass: the same predicate, one inverted (R107). -/
def VOp.opposite (x y : VOp) : Bool := x.pg == y.pg && x.pi != y.pi

/-- The fields that the word of an operation reserves are zero and its modifier is defined (R111, R112). -/
def fieldsDefined : Instr → Bool
  | .adds _ _ _ _ m | .subs _ _ _ _ m | .min _ _ _ _ m | .max _ _ _ _ m | .ext _ _ _ _ m | .cvtFi _ _ _ m | .cvtIf _ _ _ m
  | .cvtDi _ _ _ m | .cvtId _ _ _ m => decide (m.toNat < 2)
  | .ctd _ _ b => b == 0
  | .ba2p _ d | .cmpEq _ d _ _ | .cmpNe _ d _ _ | .cmpLt _ d _ _ | .cmpLe _ d _ _ | .cmpLtu _ d _ _ | .cmpLeu _ d _ _ | .cmpGt _ d _ _
  | .cmpGe _ d _ _ | .cmpGtu _ d _ _ | .cmpF _ d _ _ _ | .cmpD _ d _ _ _ | .tcmpLt _ d _ _ | .tcmpLe _ d _ _ | .tcmpEq _ d _ _
  | .bcy _ d _ _ | .bbw _ d _ _ | .wfe _ d | .sev _ _ d _ | .clev _ d => decide (d.toNat < 16)
  | .p2ba _ a | .andp _ a | .orp _ a => decide (a.toNat < 16)
  | _ => true

/-- A word spells its operation with every reserved field zero. An operand field that an operation does not use counts as reserved, whether or not
its table says so: the operand bits of `nop`, destination and source B of `br Ga` and `call Ga`, the unused fields of `ba2p` and `p2ba`, Gb of `dabs`
(DESIGN CHOICE, log 139). -/
def wordDefined (w : BitVec 32) (i : Instr) : Bool :=
  fieldsDefined i && (match encodeOp i with
    | some p => p.2 == w
    | none => w.extractLsb' 0 20 == 0)

/-- Results of an operation: distance and destination (Table 03-13); those of G0 and P0 are discarded (R75). -/
def regAt (k : Nat) (n : RegNo) : List (Nat × Dest) := if n = 0 then [] else [(k, .g n.toNat)]
def predAt (k : Nat) (n : RegNo) : List (Nat × Dest) := if predOf n = 0 then [] else [(k, .p (predOf n).toNat)]
def pairAt' (k : Nat) (n : RegNo) : List (Nat × Dest) := regAt k n ++ regAt k (gNext n)

def resultsOf : Instr → List (Nat × Dest)
  | .ldBa .. | .ldnBa .. | .andBa .. | .andnBa .. | .orBa .. | .ornBa .. | .xorBa .. | .popa .. | .popo .. | .notba .. | .red .. | .fed ..
  | .p2ba .. | .andp .. | .orp .. | .ton .. | .tof .. | .tp .. | .ctu .. | .ctd .. => [(1, .ba)]
  | .ba2p _ d => predAt 1 d
  | .add _ d _ _ | .sub _ d _ _ | .and _ d _ _ | .or _ d _ _ | .xor _ d _ _ | .andn _ d _ _ | .adds _ d _ _ _ | .subs _ d _ _ _
  | .min _ d _ _ _ | .max _ d _ _ _ | .sel _ d _ _ | .abs _ d _ | .not _ d _ | .cnt _ d _ | .clz _ d _ | .shl _ d _ _ | .shr _ d _ _
  | .sar _ d _ _ | .rol _ d _ _ | .ror _ d _ _ | .ext _ d _ _ _ | .ins _ d _ _ | .mfs _ _ d _ | .mov _ d _ | .tsub _ d _ _
  | .badd _ d _ _ | .bsub _ d _ _ | .bshl _ d _ _ | .bshr _ d _ _ | .dmv _ d _ _ => regAt 1 d
  | .bdaj _ d _ => regAt 2 d
  | .cmpEq _ d _ _ | .cmpNe _ d _ _ | .cmpLt _ d _ _ | .cmpLe _ d _ _ | .cmpLtu _ d _ _ | .cmpLeu _ d _ _ | .cmpGt _ d _ _ | .cmpGe _ d _ _
  | .cmpGtu _ d _ _ | .cmpF _ d _ _ _ | .cmpD _ d _ _ _ | .tcmpLt _ d _ _ | .tcmpLe _ d _ _ | .tcmpEq _ d _ _ | .bcy _ d _ _
  | .bbw _ d _ _ => predAt 2 d
  | .mul _ d _ _ | .mulh _ d _ _ | .mulhU _ d _ _ | .ldD _ d _ _ | .ldi _ d _ _ => regAt 3 d
  | .div _ d _ _ | .divU _ d _ _ | .rem _ d _ _ | .remU _ d _ _ | .fdiv _ d _ _ | .b2d _ d _ | .d2b _ d _ => regAt 24 d
  | .fadd _ d _ _ | .fsub _ d _ _ | .fmul _ d _ _ | .fmin _ d _ _ | .fmax _ d _ _ | .fabs _ d _ | .fneg _ d _ | .cvtFi _ d _ _
  | .cvtIf _ d _ _ | .inW _ d _ _ | .inB _ d _ | .inX _ d _ _ | .mbget _ d _ _ | .mbhdr _ d _ _ => regAt 4 d
  | .cvtId _ d _ _ | .cvtDs _ d _ => regAt 6 d
  | .dadd _ d _ _ | .dsub _ d _ _ | .dmul _ d _ _ | .dmin _ d _ _ | .dmax _ d _ _ | .dabs _ d _ | .dneg _ d _ | .cvtDi _ d _ _
  | .cvtSd _ d _ => pairAt' 6 d
  | .ddiv _ d _ _ => pairAt' 24 d
  | .tadd _ d _ _ => pairAt' 1 d
  | .ldG _ d _ _ => regAt 8 d
  | _ => []

/-- An access to memory: space as in `Eff.place`, first and last word that it can reach, whether it writes. -/
structure VAccess where
  space : Nat
  lo    : Nat
  hi    : Nat
  write : Bool
  deriving DecidableEq, Repr

/-- The accesses of an operation; `rng k a b` bounds an address of k bits. A `set` or `rst` counts as a write (R113). -/
def accessesOf (rng : Nat → RegNo → Src → Nat × Nat) : Instr → List VAccess
  | .ldBa _ b | .ldnBa _ b | .andBa _ b | .andnBa _ b | .orBa _ b | .ornBa _ b | .xorBa _ b => (match b with
    | .io w _ => [⟨2, w.toNat, w.toNat, false⟩]
    | .dsp w _ => [⟨0, w.toNat, w.toNat, false⟩])
  | .outBit _ b | .outnBit _ b | .setBit _ b | .rstBit _ b => (match b with
    | .io w _ => [⟨2, w.toNat, w.toNat, true⟩]
    | .dsp w _ => [⟨0, w.toNat, w.toNat, true⟩])
  | .red _ w _ | .fed _ w _ => [⟨0, w.toNat, w.toNat, true⟩]
  | .ton _ a _ _ | .tof _ a _ _ | .tp _ a _ _ | .ctu _ a _ | .ctd _ a _ | .cld _ a _ => [⟨0, (rng 15 a (.reg 0)).1, (rng 15 a (.reg 0)).2, true⟩]
  | .ldD _ _ a b => [⟨0, (rng 15 a b).1, (rng 15 a b).2, false⟩]
  | .stD _ _ a b => [⟨0, (rng 15 a b).1, (rng 15 a b).2, true⟩]
  | .ldG _ _ a b => [⟨1, (rng 20 a b).1, (rng 20 a b).2, false⟩]
  | .stG _ _ a b => [⟨1, (rng 20 a b).1, (rng 20 a b).2, true⟩]
  | .inW _ _ a b => [⟨2, (rng 20 a b).1, (rng 20 a b).2, false⟩]
  | .outW _ _ a b => [⟨2, (rng 20 a b).1, (rng 20 a b).2, true⟩]
  | .inB _ _ a => [⟨2, (rng 26 a (.reg 0)).1 / 64, (rng 26 a (.reg 0)).2 / 64, false⟩]
  | .outB _ _ a => [⟨2, (rng 26 a (.reg 0)).1 / 64, (rng 26 a (.reg 0)).2 / 64, true⟩]
  | .inX _ _ a i => [⟨2, (rng 20 a (.imm i)).1, (rng 20 a (.imm i)).2, false⟩]
  | .mbput _ _ a b => [⟨2, 0x4000 + (rng 14 a b).1, 0x4000 + (rng 14 a b).2, true⟩]
  | .mbget _ _ a b => [⟨2, 0x4000 + (rng 14 a b).1, 0x4000 + (rng 14 a b).2, false⟩]
  | .mbhdr _ _ a i => [⟨2, 0x4000 + (rng 14 a (.imm i)).1, 0x4000 + (rng 14 a (.imm i)).2, false⟩]
  | _ => []

/-- Two accesses can reach one word. -/
def VAccess.meets (x y : VAccess) : Bool := x.space == y.space && decide (x.lo ≤ y.hi ∧ y.lo ≤ x.hi)

/-- A register bit address whose index is provably 48 to 63: every address that it can take lies there (R97). -/
def badBit (rng : Nat → RegNo → Src → Nat × Nat) : Instr → Bool
  | .inB _ _ a | .outB _ _ a => let r := rng 26 a (.reg 0); r.1 / 64 == r.2 / 64 && decide (48 ≤ r.1 % 64)
  | _ => false

/-- Most undo entries that an operation can create (R153): a write each, the mark of a mailbox, an event. -/
def undoOf' (rng : Nat → RegNo → Src → Nat × Nat) (i : Instr) : Nat :=
  ((accessesOf rng i).filter (·.write)).length + (match i with
    | .mbput .. | .wfe .. | .sev .. | .clev .. => 1
    | _ => 0)

/-- A form I operation of slot A or M (R89). -/
def formI : Instr → Bool
  | .add _ _ _ (.imm _) | .sub _ _ _ (.imm _) | .and _ _ _ (.imm _) | .or _ _ _ (.imm _) | .xor _ _ _ (.imm _) | .min _ _ _ (.imm _) _
  | .max _ _ _ (.imm _) _ | .shl _ _ _ (.imm _) | .shr _ _ _ (.imm _) | .sar _ _ _ (.imm _) | .rol _ _ _ (.imm _) | .ror _ _ _ (.imm _)
  | .ext _ _ _ (.imm _) _ | .ins _ _ _ (.imm _) | .mov .. | .cmpEq _ _ _ (.imm _) | .cmpNe _ _ _ (.imm _) | .cmpLt _ _ _ (.imm _)
  | .cmpLe _ _ _ (.imm _) | .cmpLtu _ _ _ (.imm _) | .cmpGt .. | .cmpGe .. | .cmpGtu .. | .mul _ _ _ (.imm _) | .bshl _ _ _ (.imm _)
  | .bshr _ _ _ (.imm _) | .ldD _ _ _ (.imm _) | .stD _ _ _ (.imm _) | .ldG _ _ _ (.imm _) | .stG _ _ _ (.imm _) | .ldi _ _ _ (.imm _)
  | .inW _ _ _ (.imm _) | .outW _ _ _ (.imm _) | .inX .. | .mbput _ _ _ (.imm _) | .mbget _ _ _ (.imm _) | .mbhdr .. => true
  | _ => false

/-- An operation that may not stand in the last bundle of a loop body (R134). -/
def endsBody : Instr → Bool
  | .br .. | .call .. | .ret .. | .loop .. => true
  | _ => false

/-! ### One member: every path of its code -/

/-- What a member does that another can meet, or that takes time. -/
inductive VAct where
  | wait (e : Nat)
  | send (e mask : Nat)
  | clear (e : Nat)
  | hold (last : Option Nat)
  | access (x : VAccess)
  | sched (lo hi : Nat) (tLo tHi : Nat)
  deriving DecidableEq, Repr

/-- What the verifier knows of a member's program: engine, code, profile, mode, check points, milestone points. -/
structure VEnv where
  e      : Fin 32
  code   : NMem
  prof   : Bool
  det    : Bool
  checks : List Nat
  points : List Nat
  deriving DecidableEq, Repr

/-- A path so far: the flow of the engine, call targets under way, call depth of each loop level, rung depth, results in flight with the
operations behind them, bundles since the last check and milestone points, backward branches taken, undo entries, actions with the bundles
and undo entries before them (latest first), rows of Table 02-6 that the path fails, whether it has ended, and ended only for its
length. -/
structure VPath where
  w       : Work
  callees : List Nat
  depths  : List Nat
  rung    : Nat
  writes  : List (Nat × Dest × VOp)
  sinceCk : Nat
  sinceMs : Nat
  jumps   : List Nat
  undo    : Nat
  acts    : List (Nat × Nat × VAct)
  fails   : List Nat
  ended   : Bool
  long    : Bool
  deriving DecidableEq, Repr

/-- Rows of Table 02-6. -/
def rowLoops : Nat := 6
def rowColl : Nat := 7
def rowDet : Nat := 8
def rowStruct : Nat := 9

/-- A path fails a row where b holds. -/
def VPath.failIf (s : VPath) (b : Bool) (row : Nat) : VPath := if b then { s with fails := row :: s.fails } else s
/-- A path ends, failing a row. -/
def VPath.stop (s : VPath) (row : Nat) : VPath := { s with fails := row :: s.fails, ended := true }

/-- The least and the greatest address, count or target of k bits that an operation can take from register a and b: exact where no register
but G0 is read, else what the verifier proves. -/
def VPath.range (s : VPath) (v : VEnv) (sl : Slot) (k : Nat) (a : RegNo) (b : Src) : Nat × Nat :=
  let exact := match b with
    | .imm _ => a == 0
    | .reg r => a == 0 && r == 0
  if exact then (addrOf s.w k a b, addrOf s.w k a b)
  else match Config.provenRange v.code s.w.arch.pc sl with
    | some (lo, hi) => if lo ≤ hi ∧ hi < 2 ^ k then (lo, hi) else (0, 2 ^ k - 1)
    | none => (0, 2 ^ k - 1)

/-- The outputs that scheduled-write descriptors from lo to hi can name, as KND and CH: the bits between are reserved (Table 04-16). -/
def outputsOf (lo hi : Nat) : List (Nat × Nat) :=
  ((List.range (hi / 2 ^ 32 + 1 - lo / 2 ^ 32)).map (fun i =>
    let d := lo / 2 ^ 32 + i
    (d / 2 ^ 14, d % 32))).eraseDups

/-- Two scheduled writes can be to one output at one T (R95); NS counts in steps of 25 ns (R132). -/
def schedMeets (lo hi tLo tHi lo' hi' tLo' tHi' : Nat) : Bool :=
  (outputsOf lo hi).any (fun o => (outputsOf lo' hi').contains o) && decide (tLo / 25 ≤ tHi' / 25 ∧ tLo' / 25 ≤ tHi / 25)

/-- The least and greatest T of the `sow` of a bundle, where nothing bounds it any. -/
def VPath.timeOf (s : VPath) (v : VEnv) : Nat × Nat := (Config.provenTime v.code s.w.arch.pc).getD (0, 2 ^ 96)

/-- The last bundle of a body holds a branch, call, return or loop operation, whatever its guard (R134). -/
def lastHolds (v : VEnv) (t : Nat) : Bool := match bundleOps v.e v.prof (NMem.get v.code t) with
  | some ops => ops.any (fun o => endsBody o.i)
  | none => false

/-- The long immediate of a bundle. -/
def immOf (ops : List VOp) : Option (Bool × BitVec 28) := ops.findSome? (fun o => match o.i with
  | .imm _ _ sx x => some (sx, x)
  | _ => none)

/-- The bundle at the PC issues: what its operations write and reach, and what of it the rules refuse on any path. A check point counts itself among
the 256 bundles since the last one (DESIGN CHOICE, log 140). -/
def VPath.issueOps (s : VPath) (v : VEnv) (w : Nat) (ops : List VOp) : VPath :=
  let pc := s.w.arch.pc
  let s := { s with w := { s.w with bundle := { emptyBundle with imm := immOf ops } } }
  let run := ops.filter (·.mayRun)
  let new := run.flatMap (fun o => (resultsOf o.i).map (fun p => (s.w.issued + p.1, p.2, o)))
  let clash (x y : Nat × Dest × VOp) : Bool := x.1 == y.1 && x.2.1 == y.2.1 && !x.2.2.opposite y.2.2
  let acc := run.flatMap (fun o => (accessesOf (s.range v o.sl) o.i).map (fun x => (o, x)))
  let stores := acc.filter (fun p => p.2.write)
  let undo := s.undo + (run.map (fun o => undoOf' (s.range v o.sl) o.i)).sum
  let s := s.failIf (ops.any (fun o => !wordDefined (slotBits w o.sl) o.i)) rowStruct
  let s := s.failIf (run.any (fun o => badBit (s.range v o.sl) o.i)) rowStruct
  let s := s.failIf (ops.any (fun o => match o.i with
    | .loop _ t _ => decide (t.toNat ≤ pc) || lastHolds v t.toNat
    | _ => false)) rowStruct
  let s := s.failIf (v.det && ops.any (fun o => match o.i with
    | .inX .. => true
    | .mfs _ _ _ sr => sr == 3
    | _ => false)) rowDet
  let s := s.failIf (new.any (fun x => s.writes.any (clash x)) || !allPairs (fun x y => !clash x y) new ||
    !allPairs (fun (x y : VOp × VAccess) => !(x.2.meets y.2 && !x.1.opposite y.1)) stores) rowColl
  let s := s.failIf (decide (256 < s.sinceCk + 1) || decide (256 < s.sinceMs + 1)) rowStruct
  { s with
    writes := (s.writes ++ new).filter (fun x => decide (s.w.issued + 1 < x.1)), undo := undo,
    acts := (acc.map (fun p => (s.w.issued, undo, VAct.access p.2))).reverse ++ s.acts,
    sinceCk := if v.checks.contains pc then 0 else s.sinceCk + 1, sinceMs := if v.points.contains pc then 0 else s.sinceMs + 1 }

/-- The rung stack after a slot B operation (R83). -/
def VPath.rungs (s : VPath) (i : Instr) : VPath := match i with
  | .push _ => { s.failIf (decide (16 ≤ s.rung)) rowStruct with rung := s.rung + 1 }
  | .popa _ | .popo _ => { s.failIf (s.rung == 0) rowStruct with rung := s.rung - 1 }
  | _ => s

/-- Issue goes on as a control operation says; a loop level keeps the call depth at which it was entered. -/
def VPath.advance (s : VPath) (ctl : Option Ctl) : VPath :=
  let w := nextPc s.w ctl
  let n := w.arch.loops.length
  { s with
    w := { w with issued := w.issued + 1 },
    depths := if s.depths.length < n then s.w.arch.ret.length :: s.depths else s.depths.drop (s.depths.length - n) }

/-- A branch to t leaves the body of a loop entered at this call depth (R134). -/
def VPath.leaves (s : VPath) (t : Option Nat) : Bool :=
  (s.w.arch.loops.zip s.depths).any (fun p => p.2 == s.w.arch.ret.length && (match t with
    | some t => !(decide (p.1.start ≤ t ∧ t ≤ p.1.stop))
    | none => true))

/-- The bundles a branch or call can go to; none where nothing bounds a target in a register. -/
def VPath.targets (s : VPath) (v : VEnv) : Target → List Nat
  | .bundle t => [t.toNat]
  | .reg a =>
    if a = 0 then [0]
    else match Config.provenRange v.code s.w.arch.pc .c with
      | some (lo, hi) => if hi < 2 ^ 14 then (List.range (hi + 1 - lo)).map (lo + ·) else []
      | none => []

/-- The counts that a loop can take; none where nothing bounds a count in a register (R62). -/
def VPath.counts (s : VPath) (v : VEnv) : LoopCount → List Nat
  | .count k => [k.toNat]
  | .reg a =>
    if a = 0 then [0]
    else match Config.provenRange v.code s.w.arch.pc .c with
      | some (lo, hi) => (List.range (hi + 1 - lo)).map (lo + ·)
      | none => []

/-- A branch taken to t. One that goes back is taken no oftener than the verifier proves (R62). -/
def VPath.branchTo (s : VPath) (v : VEnv) (t : Nat) : List VPath :=
  let s := s.failIf (s.leaves (some t)) rowStruct
  if s.w.arch.pc < t then [s.advance (some (.branch (some t)))]
  else match Config.branchBound v.code s.w.arch.pc with
    | some k => if s.jumps.count s.w.arch.pc < k then [{ s with jumps := s.w.arch.pc :: s.jumps }.advance (some (.branch (some t)))] else []
    | none => [s.stop rowLoops]

/-- A call to t (R84). -/
def VPath.callTo (s : VPath) (t : Nat) : VPath :=
  if s.callees.contains t ∨ 8 ≤ s.w.arch.ret.length then s.stop rowStruct
  else { s with callees := t :: s.callees }.advance (some (.callTo (some t)))

/-- A loop over the body up to t with k iterations (R134). One that is refused for its t goes on behind it, so that what else is wrong of the image
is found too (R64). -/
def VPath.loopTo (s : VPath) (t k : Nat) : VPath :=
  if 2 ≤ s.w.arch.loops.length then s.stop rowStruct
  else if t ≤ s.w.arch.pc then s.advance none
  else s.advance (some (.loopTo t k))

/-- An action of the slot C operation of the bundle. -/
def VPath.act (s : VPath) (a : VAct) : VPath := { s with acts := (s.w.issued, s.undo, a) :: s.acts }

/-- What the slot C operation does, executed: every way it can go on. -/
def VPath.flowOn (s : VPath) (v : VEnv) (i : Instr) : List VPath := match i with
  | .br _ t =>
    (match s.targets v t with
      | [] => [s.stop rowStruct]
      | l => l.flatMap (fun t => s.branchTo v t))
  | .call _ t =>
    (match s.targets v t with
      | [] => [s.stop rowStruct]
      | l => l.map (fun t => s.callTo t))
  | .ret _ =>
    if s.w.arch.ret = [] then [s.stop rowStruct]
    else
      let s := s.failIf (s.leaves none) rowStruct
      [{ s with callees := s.callees.tail }.advance (some (.retTo true))]
  | .loop _ t k =>
    (match s.counts v k with
      | [] => [s.stop rowLoops]
      | l => l.map (fun k => s.loopTo t.toNat k))
  | .eoc .. => [{ (s.advance none) with ended := true }]
  | .wfe _ d => [(s.act (.wait (eventNo d))).advance none]
  | .sev _ _ d m => [(s.act (.send (eventNo d) m.toNat)).advance none]
  | .clev _ d => [(s.act (.clear (eventNo d))).advance none]
  | .wtu _ _ a i =>
    let last := if a = 0 then some i.toInt.toNat else (Config.provenRange v.code s.w.arch.pc .c).map (·.2)
    [(s.act (.hold last)).advance none]
  | _ => [s.advance none]

/-- The same, squashed: a branch, call or return keeps its delay bundles (R103). -/
def VPath.flowOff (s : VPath) (i : Instr) : VPath := match i with
  | .br .. => s.advance (some (.branch none))
  | .call .. => s.advance (some (.callTo none))
  | .ret .. => s.advance (some (.retTo false))
  | _ => s.advance none

/-- Whether an operation executes or not, of which both can be. -/
def VOp.choices (o : VOp) : List Bool := match o.i with
  | .imm .. => [true]
  | _ => if o.pg = 0 then [!o.pi] else [true, false]
/-- Two operations of a bundle under one predicate go together. -/
def VOp.agree (x y : VOp) (p : Bool × Bool) : Bool := x.pg != y.pg || x.pg == 0 || (p.1 != p.2) == (x.pi != y.pi)

/-- A path by one bundle: every way it goes on. -/
def VPath.next (s : VPath) (v : VEnv) : List VPath :=
  let w := NMem.get v.code s.w.arch.pc
  match bundleOps v.e v.prof w with
  | some [b, a, m, c] =>
    if s.w.delay ≠ 0 ∧ isControl c.i = true then [s.stop rowStruct]
    else
      let s := s.issueOps v w [b, a, m, c]
      let isImm := (immOf [c]).isSome
      (b.choices.flatMap (fun x => c.choices.map (fun y => (x, y)))).filter (fun p => isImm || b.agree c p) |>.flatMap (fun p =>
        let s := if p.1 then s.rungs b.i else s
        let s := match m.i with
          | .sow _ _ d =>
            let r := s.range v .m 48 d (.reg 0)
            let x := s.timeOf v
            if m.mayRun then s.act (.sched r.1 r.2 x.1 x.2) else s
          | _ => s
        if p.2 then s.flowOn v c.i else [s.flowOff c.i])
  | _ => [s.stop rowStruct]

/-- Every path of a member of at most n bundles; a longer one is marked. -/
def VPath.run (v : VEnv) : Nat → VPath → List VPath
  | 0, s => [{ s with long := true }]
  | n + 1, s => (s.next v).flatMap (fun s => if s.ended then [s] else s.run v n)

/-- The start of every path (R76). -/
def VPath.entry (pc : Nat) : VPath :=
  ⟨{ Work.reset with arch := Arch.entry pc }, [], [], 0, [], 0, 0, [], 0, [], [], false, false⟩

/-! ### A team: every order of its members' events (R94, R95, R139) -/

/-- A member of a team under way: actions to come and done (latest first), ns of waits, and bundles and undo entries of its whole path. -/
structure VMember where
  left  : List (Nat × Nat × VAct)
  past  : List VAct
  extra : Nat
  b     : Nat
  u     : Nat
  deriving DecidableEq, Repr

/-- An event under way or arrived: target, event, sender, place of the `sev` in the sender's actions, its instant. -/
structure VFlag where
  dst  : Nat
  ev   : Nat
  src  : Nat
  at_  : Nat
  t    : Nat
  deriving DecidableEq, Repr

/-- A team under way: events that have not arrived yet, in the order of their sending; flags set; waits matched with the events
they took (member, place, sender, place), and whether an event was lost or a wait not ended. -/
structure VTeam where
  mems  : List VMember
  sent  : List VFlag
  flags : List VFlag
  taken : List (Nat × Nat × Nat × Nat)
  bad   : Bool
  deriving DecidableEq, Repr

/-- The instant after M at which the bundle after b others issues, u undo entries and x ns of waits on the way, with every milestone hold
of 84 ns in a region of interval I (R148, R150). -/
def vClock (I b u x : Nat) : Nat := b + x + 84 * (b / (I - 256) + u / 7160)

def VTeam.mem (t : VTeam) (i : Nat) : VMember := nth ⟨[], [], 0, 0, 0⟩ t.mems i
/-- Member i has done its next action, having waited `extra` ns so far. -/
def VTeam.step (t : VTeam) (i extra : Nat) : VTeam :=
  { t with mems := modNth ⟨[], [], 0, 0, 0⟩ (fun m => match m.left with
    | x :: l => { m with left := l, past := x.2.2 :: m.past, extra := extra }
    | [] => m) t.mems i }

/-- Whether an action concerns no other member. -/
def VAct.isLocal : VAct → Bool
  | .wait _ | .send .. | .clear _ => false
  | _ => true

/-- A milestone hold can fall on the path of a member, so that its bundles do not stand at fixed distances (R148, R150). -/
def VMember.holds (I : Nat) (m : VMember) : Bool := decide (0 < m.b / (I - 256) + m.u / 7160)

/-- The instant at which the next action of a member issues. -/
def VMember.clock (I : Nat) (m : VMember) : Nat := match m.left with
  | (b, u, _) :: _ => vClock I b u m.extra
  | [] => vClock I m.b m.u m.extra

/-- An event arrives 8 ns after its `sev` (R138). One of a member to itself has arrived by any later action of that member 8 ns on; before that it
can arrive while the member waits or has ended, or where a milestone hold can fall between. One of another member can arrive at any time. -/
def VTeam.mayArrive (I : Nat) (t : VTeam) (f : VFlag) : Bool :=
  let m := t.mem f.dst
  (t.sent.find? (fun g => g.src == f.src && g.dst == f.dst && g.ev == f.ev)) == some f &&
    (f.src != f.dst || m.holds I || decide (f.t + 8 ≤ m.clock I) || (match m.left with
      | (_, _, .wait _) :: _ => true
      | [] => true
      | _ => false))

/-- An event arrives: it is lost where its flag is set already (R139). -/
def VTeam.arrive (t : VTeam) (f : VFlag) : VTeam :=
  let same (g : VFlag) : Bool := g.dst == f.dst && g.ev == f.ev
  { t with sent := t.sent.erase f, bad := t.bad || t.flags.any same, flags := t.flags.filter (fun g => !same g) ++ [f] }

/-- The next action of member i, if it can be done now. -/
def VTeam.go (I : Nat) (t : VTeam) (i : Nat) : Option VTeam :=
  let m := t.mem i
  let at_ := m.past.length
  if t.sent.any (fun f => f.src == i && f.dst == i && decide (f.t + 8 ≤ m.clock I)) then none
  else match m.left with
  | [] => none
  | (b, u, a) :: _ =>
    match a with
    | .wait e =>
      (match t.flags.find? (fun f => f.dst == i && f.ev == e) with
        | some f =>
          let own := vClock I (b + 1) u m.extra
          some { (t.step i (m.extra + (f.t + 8 - own))) with
            flags := t.flags.filter (fun g => !(g.dst == i && g.ev == e)), taken := (i, at_, f.src, f.at_) :: t.taken }
        | none => none)
    | .send e mask =>
      let dst := (List.range t.mems.length).filter (fun p => mask.testBit p)
      some { (t.step i m.extra) with sent := t.sent ++ dst.map (fun p => ⟨p, e, i, at_, vClock I b u m.extra⟩) }
    | .clear e => some { (t.step i m.extra) with flags := t.flags.filter (fun g => !(g.dst == i && g.ev == e)) }
    | .hold (some last) => some (t.step i (m.extra + (last - vClock I (b + 1) u m.extra)))
    | .hold none => some { (t.step i m.extra) with bad := true }
    | _ => some (t.step i m.extra)

/-- Every order in which a team can do at most n things more, actions and arrivals of events: what concerns a member alone is done first; a team that
cannot go on waits without end. -/
def VTeam.run (I : Nat) : Nat → VTeam → List VTeam
  | 0, t => [t]
  | n + 1, t =>
    match ((List.range t.mems.length).filter (fun i => match (t.mem i).left with
      | x :: _ => x.2.2.isLocal
      | [] => false)).findSome? (fun i => t.go I i) with
    | some t => t.run I n
    | none =>
      match (List.range t.mems.length).filterMap (fun i => t.go I i) ++ (t.sent.filter (fun f => t.mayArrive I f)).map (fun f => t.arrive f) with
      | [] => [{ t with bad := t.bad || t.mems.any (fun m => m.left != []) }]
      | l => l.flatMap (fun t => t.run I n)

/-- Action k of member a comes before action l of member b by an event: a `sev` of a after it, taken by a wait of b before that (R94). -/
def VTeam.ordered (t : VTeam) (a k b l : Nat) : Bool :=
  t.taken.any (fun x => x.1 == b && x.2.2.1 == a && decide (k < x.2.2.2 ∧ x.2.1 < l))

/-- Two accesses can meet in a word that the members of a class share: of its partition, or an I/O word that it owns. -/
def sharedWord (g : ClsCfg) (x y : VAccess) : Bool :=
  let lo := max x.lo y.lo
  let hi := min x.hi y.hi
  x.meets y && (if x.space = 1 then g.part.any (fun p => decide (p.1 ≤ hi ∧ lo < p.1 + p.2))
    else x.space == 2 && g.owned.any (fun a => decide (lo ≤ a ∧ a ≤ hi)))

/-- Every write of a word that another member reads comes before the read (R94); of two writes of one word, and of two scheduled writes that
can be to one output at one T, one comes before the other (R95). -/
def VTeam.orderOk (g : ClsCfg) (t : VTeam) : Bool :=
  let hist (i : Nat) : List (VAct × Nat) := (t.mem i).past.reverse.zipIdx
  (List.range t.mems.length).all (fun a => (List.range t.mems.length).all (fun b => a == b ||
    (hist a).all (fun x => (hist b).all (fun y => match x.1, y.1 with
      | .access p, .access q =>
        !p.write || !sharedWord g p q || (if q.write then t.ordered a x.2 b y.2 || t.ordered b y.2 a x.2 else t.ordered a x.2 b y.2)
      | .sched lo hi tLo tHi, .sched lo' hi' tLo' tHi' =>
        !schedMeets lo hi tLo tHi lo' hi' tLo' tHi' || t.ordered a x.2 b y.2 || t.ordered b y.2 a x.2
      | _, _ => true))))

/-! ### A class -/

/-- What the verifier knows of member e of a class. -/
def vEnv (im : AppImage) (g : ClsCfg) (e : Nat) : VEnv where
  e := ⟨e % 32, by omega⟩
  code := ((im.code.find? (fun p => p.1 == e)).map (·.2)).getD []
  prof := g.profD
  det := g.det
  checks := ((im.checks.find? (fun p => p.1 == e)).map (fun p => p.2.map (·.1))).getD []
  points := ((im.points.find? (fun p => p.1 == e)).map (·.2)).getD []

/-- The paths of every member of a class, by position: a path that meets R63 issues fewer bundles than the right side has ns. -/
def classPaths (im : AppImage) (g : ClsCfg) : List (List VPath) :=
  (cfgTeam g).zipIdx.map (fun p => VPath.run (vEnv im g p.1) (latestNs g + 1) (VPath.entry (nth 0 g.entries p.2)))

/-- A team whose members take one path each. -/
def teamOf (ps : List VPath) : VTeam := ⟨ps.map (fun p => ⟨p.acts.reverse, [], 0, p.w.issued, p.undo⟩), [], [], [], false⟩

/-- Every course of a team: an action is at most one `sev` to 8 members. -/
def teamRuns (I : Nat) (paths : List (List VPath)) : List VTeam :=
  (choose paths).flatMap (fun ps => VTeam.run I (9 * (ps.map (fun p => p.acts.length)).sum + 1) (teamOf ps))

/-- What the verifier finds of a class: rows of Table 02-6 that it fails, and W (R62). A path too long for R63 makes W exceed it. -/
structure Verified where
  fails : List Nat
  wcet  : Nat
  deriving DecidableEq, Repr

/-- W and the refusals of a class of an image: every row that it fails, so that the first of them can be named (R64). -/
def verifyClass (im : AppImage) (g : ClsCfg) : Verified :=
  let paths := classPaths im g
  let runs := teamRuns im.interval paths
  ⟨paths.flatten.flatMap (·.fails) ++ (if g.det && !runs.all (fun t => t.orderOk g) then [rowDet] else []) ++
      (if runs.any (·.bad) then [rowStruct] else []),
    if paths.flatten.any (·.long) then latestNs g + 1
    else (runs.flatMap (fun t => t.mems.map (fun m => vClock im.interval m.b m.u m.extra))).foldl max 0⟩

/-- W of a class (R62). -/
def classW (im : AppImage) (g : ClsCfg) : Nat := (verifyClass im g).wcet

/-- Some path of a class writes the word (space, address) at position pos; in region memory, at any (R198). -/
def classWrites (im : AppImage) (g : ClsCfg) (pos : Option Nat) (x : VAccess) : Bool :=
  ((cfgTeam g).zip (classPaths im g)).any (fun p => (pos == none || pos == some p.1) && p.2.any (fun s => s.acts.any (fun a => match a.2.2 with
    | .access y => y.write && y.meets x
    | _ => false)))

end Sys2Proof.Machine
end

