-- ==== Sys2Proof/Machine/Updates.lean ====
section
/-! DEFINITION. Image updates (07): header, transfer, checks, activation, trial, confirmation and fallback. -/

namespace Sys2Proof.Machine

/-! ### Header (R207, R208) -/

/-- A numeric header field at byte `off`, least significant byte first. -/
def headField (bs : List Byte) (off n : Nat) : Nat := leNat ((bs.drop off).take n)

/-- The fields of a header (Table 07-3). -/
def parseHeader (bs : List Byte) : Header where
  magic := headField bs 0 4
  typ := headField bs 4 1
  hver := headField bs 5 1
  part := headField bs 6 2
  step := headField bs 8 1
  rmask := headField bs 9 1 % 16
  key := headField bs 10 1
  ver := headField bs 12 4
  arc := headField bs 16 4
  len := headField bs 20 4
  hash := beNat ((bs.drop 24).take 32)
  migN := headField bs 56 4
  migR := headField bs 60 4

/-- Image type and largest body of a target (Table 07-2). -/
def targetType (t : Nat) : Nat := if t < 4 then 1 else if t = 4 then 2 else 3
def largestBody (t : Nat) : Nat := (if t < 4 then 4194304 else if t = 4 then 3670016 else 524288) - 256

/-- Owner lock: the object, or LOCK_N low (Table 07-5). -/
def Chip.ownerLocked (c : Chip) : Bool := c.rd 0x2500 0x03 == 1 || c.bit 0x2500 0x04 1

/-- Pair mode on and no chip of the pair in STANDBY_READY (Table 07-5). -/
def Chip.pairUnready (c : Chip) : Bool := c.pair.inForce && !(c.partnerReady || c.pairState == psStandbyReady)

/-- The refusal states checked at the header and at activation: reason code and abort code. -/
def Chip.refusalState (c : Chip) : Option (Nat × Nat) :=
  if c.ownerLocked then some (10, abLocked)
  else if c.rd 0x2F00 0x05 = 1 then some (11, abState)
  else if c.pairUnready then some (12, abState)
  else none

/-- An update of target t is in progress (R212). -/
def Chip.updating (c : Chip) (t : Nat) : Bool := c.rd (0x2510 + t) 0x05 != 0

/-- The checks of Table 07-4 in order. -/
def Chip.headerFault (c : Chip) (t : Nat) (bs : List Byte) : Option (Nat × Nat) :=
  let h := parseHeader bs
  if c.updating t then some (9, abBusy)
  else match c.refusalState with
    | some r => some r
    | none =>
      if h.magic ≠ 0x53574958 ∨ h.hver ≠ 1 then some (1, abState)
      else if h.typ ≠ targetType t then some (2, abState)
      else if h.part ≠ 0x4832 ∨ h.step ≠ 0xB0 then some (3, abState)
      else if (if t < 4 then h.rmask.testBit t else h.rmask == 0) = false then some (4, abState)
      else if largestBody t < h.len then some (5, abState)
      else if 4 ≤ h.key ∨ Config.keyProvisioned h.key = false ∨ c.bit 0x2500 0x0B h.key = true then some (6, abState)
      else if Config.sigVerifies h.key (Config.sha256 (bs.take 192)) (beNat ((bs.drop 192).take 64)) = false then some (7, abState)
      else if h.arc < c.rd (0x2510 + t) 0x09 then some (8, abState)
      else none

/-- Outcome of a write of an update object: the chip, or reason code (0 where none is set) and abort code. -/
abbrev UpdRes := Except (Nat × Nat) Chip

/-- A header is written to target t: the update begins and the other bank is erased (R208); its edit set is emptied (Table 12-3). -/
def Chip.headerEff (c : Chip) (now : Instant) (t : Nat) (bs : List Byte) : UpdRes :=
  match c.headerFault t bs with
  | some r => .error r
  | none =>
    if c.storeFree = false then .error (0, abBusy)
    else
      let h := parseHeader bs
      let other := 1 - c.bankOf t
      let c := ((c.wr (0x2510 + t) 0x05 (if h.len = 0 then 2 else 1)).wr (0x2510 + t) 0x03 0).wr (0x2510 + t) 0x08 0
      let c := (c.setBankState t other 1).modTarget t (fun x => { x with
        head := some h, body := [], lastBody := now, ta := none, prevApp := none, prevMeas := none, otherHash := 0 })
      let area := bankArea t other
      .ok ((c.modDie (fun d => (d.eraseRange area.1 area.2).program area.1 bs)).persist 7 t other [])

/-- A body write: offset, then bytes (R209). A retry of bytes that stand is accepted in every state of the update, as that of the write that
completed the body. -/
def Chip.bodyEff (c : Chip) (now : Instant) (t : Nat) (data : List Byte) : UpdRes :=
  let off := leNat (data.take 4)
  let bs := data.drop 4
  let x := c.target t
  let have_ := c.rd (0x2510 + t) 0x03
  match x.head with
  | some h =>
    if c.rd (0x2510 + t) 0x05 = 1 ∧ off = have_ ∧ have_ + bs.length ≤ h.len then
      let n := have_ + bs.length
      let c := c.modTarget t (fun x => { x with body := x.body ++ bs, lastBody := now })
      let g := newGroups (x.body ++ bs) have_ (n == h.len)
      let c := c.modDie (fun d => d.program ((bankArea t (1 - c.bankOf t)).1 + 256 + g.1) g.2)
      .ok ((c.wr (0x2510 + t) 0x03 n).wr (0x2510 + t) 0x05 (if n = h.len then 2 else 1))
    else if off + bs.length ≤ have_ ∧ (x.body.drop off).take bs.length = bs then
      .ok (c.modTarget t (fun x => { x with lastBody := now }))
    else .error (0, abState)
  | none => .error (0, abState)

/-- End a write of an update object: the reason code of a refusal goes to 0x2500.08. -/
def Chip.concludeUpdate (c : Chip) (w : Who) (ix sub t : Nat) (data : List Byte) (r : UpdRes) : Chip :=
  match r with
  | .error (reason, code) => (if reason = 0 then c else c.wr 0x2500 0x08 (reason + t * 256)).refuse w code
  | .ok c' => c.conclude w ix sub data (.ok c')

/-- A write of an update object from the wire. -/
def Chip.writeUpdate (c : Chip) (a : Acc) (ix sub t v : Nat) (data : List Byte) (eff : Chip → UpdRes) : Chip :=
  if c.reach ix then
    match (c.at_ a.t).identify a (msgBytes 0x11 (a.sid.getD 0) a.ctr a.csn (writePayload ix sub 1 0 data)) with
    | .ended c => c
    | .go c w =>
      match c.checkWrite w ix sub data.length v with
      | .ended c => c
      | .go c w => c.concludeUpdate w ix sub t data (eff c)
  else c

/-- HEADER. -/
def execHeader (a : Acc) (tgt : Fin 6) (bytes : List Byte) (s : State) : Host.Outcome State Fault Refusal :=
  s.onChip (fun c => c.writeUpdate a (0x2510 + tgt.val) 0x01 tgt.val 0 bytes (fun c => c.headerEff a.t tgt.val bytes))

/-- BODY. -/
def execBody (a : Acc) (tgt : Fin 6) (offset : Nat) (bytes : List Byte) (s : State) : Host.Outcome State Fault Refusal :=
  s.onChip (fun c =>
    let data := leBytes offset 4 ++ bytes
    c.writeUpdate a (0x2510 + tgt.val) 0x02 tgt.val 0 data (fun c => c.bodyEff a.t tgt.val data))

/-! ### Checks of an application image (Table 02-6) -/

/-- Two lists share nothing. -/
def apart (a b : List Nat) : Bool := a.all (fun x => !b.contains x)

/-- Outputs of a class have no other owner in another class. -/
def ownApart (a b : ClsCfg) : Bool :=
  apart a.owned b.owned && apart (a.doOut.map (·.1)) (b.doOut.map (·.1)) && apart (a.aoOut.map (·.1)) (b.aoOut.map (·.1))

/-- Range of period, phase, offset, overrun allowance and roll call (R39, R55, R63, R376, R377). -/
def timesOk (g : ClsCfg) : Bool :=
  decide (1 ≤ g.period ∧ g.period ≤ 160000 ∧ g.phase < g.period ∧ 5000 ≤ g.offset ∧ g.offset ≤ g.period * tickNs ∧
    g.offset % 500 = 0 ∧ g.overrun ≤ 7) &&
  (match g.rollCall with
    | some (p, o, cl) => rollOk p o cl && decide (p * 1000 % (g.period * tickNs) = 0)
    | none => true) && g.remote.all (fun x => decide (1 ≤ x.maxAge ∧ x.maxAge ≤ 65535))

/-- Execution time of a class with W of `wcet` ns (R63; R183 with pair mode on; R202 where the class owns an edit entry). -/
def execTimeOk (pair edits : Bool) (g : ClsCfg) (wcet : Nat) : Bool :=
  decide (wcet + 4000 + sigmaNs g + (if pair then 3000 else 0) ≤ latestNs g) &&
    (!edits || decide (wcet + 5000 + sigmaNs g ≤ g.period * tickNs))

/-- Largest value a type holds in an editable immediate field of `bits` bits: the range must fit (R198). -/
def immFits (typ bits v : Nat) : Bool :=
  if typ = 0 then decide (-(2 ^ (bits - 1) : Int) ≤ (toWord v).toInt ∧ (toWord v).toInt < 2 ^ (bits - 1))
  else decide (v < 2 ^ bits)

/-- The operation in a slot of a bundle of a class's member has a property. -/
def opHas (im : AppImage) (g : ClsCfg) (pos bundle : Nat) (sl : Slot) (p : Instr → Bool) : Bool :=
  let v := vEnv im g pos
  match vOp v.e v.prof (NMem.get v.code bundle) sl with
  | some o => p o.i
  | none => false

/-- An edit entry lies in what its class owns, its field in an operation that has it, and the program writes none of its words (R198). -/
def editOk (im : AppImage) (e : EditEntry) : Bool :=
  match im.classes.find? (fun g => g.num == e.cls) with
  | none => false
  | some g =>
    let last := if e.typ = 4 then 1 else 0
    match e.target with
    | .dWord pos a => g.members.testBit pos && decide (a + last < 32768) && !classWrites im g (some pos) ⟨0, a, a + last, false⟩
    | .gWord a => inRanges g.part a && inRanges g.part (a + last) && !classWrites im g none ⟨1, a, a + last, false⟩
    | .imm8 pos b inM => g.members.testBit pos && e.typ != 4 && opHas im g pos b (if inM then .m else .a) formI &&
        immFits e.typ 8 e.min && immFits e.typ 8 e.max
    | .immX pos b => g.members.testBit pos && e.typ != 4 && opHas im g pos b .c (fun i => match i with
          | .imm .. => true
          | _ => false) &&
        immFits e.typ 28 e.min && immFits e.typ 28 e.max

/-- An export names a word that its class dispatches; one of type REAL64 two of them (R198; DEDUCED, log 137). -/
def exportOk (im : AppImage) (e : ExportEntry) : Bool :=
  match im.classes.find? (fun g => g.num == e.cls) with
  | some g => g.owned.contains e.addr && (e.typ != 4 || g.owned.contains (e.addr + 1))
  | none => false

/-- A migration entry of 2 words (R216): the 12 bits of the count hold 4 096 as zero (DEDUCED, log 118). -/
def migEntry (w0 w1 : Word) : MigEntry :=
  let n := fieldOf w0.toNat 35 24
  ⟨fieldOf w0.toNat 19 0, if n = 0 then 4096 else n, fieldOf w1.toNat 19 0⟩
/-- The entries of a migration table. -/
def migEntries : List Word → List MigEntry
  | w0 :: w1 :: l => migEntry w0 w1 :: migEntries l
  | _ => []
/-- The reserved bits of a table are zero and no entry is cut short (R111). -/
def migFormOk : List Word → Bool
  | w0 :: w1 :: l => fieldOf w0.toNat 47 36 == 0 && fieldOf w0.toNat 23 20 == 0 && fieldOf w1.toNat 47 20 == 0 && migFormOk l
  | [] => true
  | _ => false

/-- Destinations of a migration table are retained words of the classes whose image it copies into, apart from one another, and at most
65 536 words move (R216). -/
def migOk (gs : List ClsCfg) (l : List Word) : Bool :=
  let l' := migEntries l
  migFormOk l && decide ((l'.map (·.cnt)).sum ≤ 65536) &&
    allPairs (fun (a b : MigEntry) => decide (a.dst + a.cnt ≤ b.dst ∨ b.dst + b.cnt ≤ a.dst)) l' &&
    l'.all (fun m => (List.range m.cnt).all (fun i => gs.any (fun g => inRanges g.retained (m.dst + i))))

/-- Configurations of the classes of the other regions. -/
def Chip.otherCfgs (c : Chip) (r : Nat) : List ClsCfg := (c.cls.filter (fun k => clsRegion k != r)).filterMap (·.cfg)

/-- Partitions lie in region memory outside the ledger area and apart from one another, retained words in them (R93, R151). -/
def partsOk (gs : List ClsCfg) : Bool :=
  let ps := gs.flatMap (·.part)
  ps.all (fun p => decide (p.1 + p.2 ≤ 0xFF000)) && allPairs (fun (a b : Nat × Nat) => decide (a.1 + a.2 ≤ b.1 ∨ b.1 + b.2 ≤ a.1)) ps &&
    gs.all (fun g => g.retained.all (fun x => g.part.any (fun p => decide (p.1 ≤ x.1 ∧ x.1 + x.2 ≤ p.1 + p.2))))

/-- The first row of Table 02-6, from 1, that an image of region r fails; 0 for none. Each row is looked at where none before it failed. -/
def Chip.appCheck (c : Chip) (r : Nat) (im : AppImage) : Nat :=
  let gs := im.classes
  let others := c.otherCfgs r
  let finds (row : Nat) : Bool := gs.any (fun g => (verifyClass im g).fails.contains row)
  let into := match (c.target r).app with
    | some o => o.classes
    | none => gs
  let team := gs.all (fun g => (cfgTeam g).all (fun e => e / 8 == r && decide (e < 32)) && g.members != 0) &&
    allPairs (fun (a b : ClsCfg) => (a.members &&& b.members) == 0) gs
  let nums := gs.all (fun g => decide (g.num < 16) && others.all (fun o => o.num != g.num)) &&
    allPairs (fun (a b : ClsCfg) => a.num != b.num) gs
  let struct := !finds rowStruct && partsOk gs && decide (im.edits.length + im.exports.length ≤ 1024) && im.edits.all (editOk im) &&
    im.exports.all (exportOk im) && migOk gs im.migFwd && migOk into im.migRev
  let times := gs.all timesOk && decide (2000 ≤ im.interval ∧ im.interval ≤ 10000 ∧ im.interval % 1000 = 0)
  if team = false then 1
  else if nums = false then 2
  else if gs.all (fun g => !g.profD || (cfgTeam g).length == 1) = false then 3
  else if (allPairs ownApart gs && gs.all (fun g => others.all (ownApart g))) = false then 4
  else if times = false then 5
  else if finds rowLoops then rowLoops
  else if finds rowColl then rowColl
  else if finds rowDet then rowDet
  else if struct = false then rowStruct
  else if gs.all (fun g => execTimeOk c.pair.inForce (im.edits.any (fun e => e.cls == g.num)) g (classW im g)) = false then 10
  else if c.pair.inForce && gs.any (fun g => !g.det) then 11
  else 0

/-- Bundles of a position's code: up to the last that is not zero. -/
def codeLength (m : NMem) : Nat := match m.getLast? with
  | some p => p.1 + 1
  | none => 0

/-- Region-memory words that an image needs for staging (R209). -/
def stagingNeed (im : AppImage) : Nat :=
  3 * (im.code.map (fun p => codeLength p.2)).sum + 32768 * (im.classes.map (fun g => (cfgTeam g).length)).sum

/-- Region-memory words that an image leaves outside its partitions and the ledger, image and mailbox areas: the ledger area holds 2 048
(R151), the other two the 16 384 words each of the bit window and of the mailboxes (Table 03-10; DEDUCED, log 119). -/
def leftFree (im : AppImage) : Nat := 2 ^ 20 - (((im.classes.flatMap (·.part)).map (·.2)).sum + 2048 + 32768)

/-- The need of each of two images fits in what the other leaves free; with no image in force the areas alone are taken. -/
def stagingOk (old : Option AppImage) (im : AppImage) : Bool :=
  match old with
  | some o => decide (stagingNeed im ≤ leftFree o ∧ stagingNeed o ≤ leftFree im)
  | none => decide (stagingNeed im ≤ 2 ^ 20 - (2048 + 32768))

/-- A check of the body has failed: reason code, event, bank incomplete (R209). A failed loader check is named by 0x0202. -/
def Chip.checkFailed (c : Chip) (t reason row : Nat) : Chip :=
  let c := if row = 0 then c.event 0x0702 sevMajor 11 t (beBytes t 1 ++ beBytes reason 1) else c.event 0x0202 sevMajor 11 t (beBytes row 1)
  c.abortUpdate t reason

/-- All checks have passed: the bank is complete and the target ready. -/
def Chip.checkPassed (c : Chip) (t : Nat) (h : Header) (app : Option AppImage) (meas : Option MeasImage) : Chip :=
  let c := ((c.wr (0x2510 + t) 0x05 3).setBankState t (1 - c.bankOf t) 2).wr (0x2510 + t) 0x08 h.ver
  c.modTarget t (fun x => { x with prevApp := app, prevMeas := meas, otherHash := h.hash, arcNew := h.arc })

/-- MIGN and MIGR, each at most 4 096, count the entries of the tables (R207). -/
def migCounts (h : Header) (im : AppImage) : Bool :=
  decide (h.migN ≤ 4096 ∧ h.migR ≤ 4096) && (migEntries im.migFwd).length == h.migN && (migEntries im.migRev).length == h.migR

/-- The first row of Table 02-6 that an image fails with its header: a table of the wrong length is one of program structure (R64). -/
def Chip.imageRow (c : Chip) (k : Nat) (h : Header) (im : AppImage) : Nat :=
  let row := c.appCheck k im
  if (row = 0 ∨ rowStruct < row) ∧ migCounts h im = false then rowStruct else row

/-- IMAGE_CHECK_COMPLETE. A header whose migration counts do not fit its image fails the checks of the body, as Table 07-4 has no row for
them (DESIGN CHOICE, log 118). -/
def execImageCheckComplete (t : Instant) (tgt : Fin 6) (s : State) : Host.Outcome State Fault Refusal :=
  s.onChip (fun c =>
    let k := tgt.val
    let x := c.target k
    match x.head with
    | some h =>
      if c.rd (0x2510 + k) 0x05 = 2 then
        let c := c.at_ t
        if Config.sha256 x.body ≠ h.hash then c.checkFailed k 13 0
        else if k < 4 then
          match Config.parseApp k x.body with
          | none => c.checkFailed k 14 9
          | some im =>
            let row := c.imageRow k h im
            if row ≠ 0 then c.checkFailed k 14 row
            else if stagingOk x.app im then c.checkPassed k h (some im) none else c.checkFailed k 15 0
        else if h.migN ≠ 0 ∨ h.migR ≠ 0 then c.checkFailed k 14 0
        else if k = 4 then c.checkPassed k h none none
        else
          match Config.parseMeas x.body with
          | some im => if measOk im then c.checkPassed k h none (some im) else c.checkFailed k 14 0
          | none => c.checkFailed k 14 0
      else c
    | none => c)

/-- TRANSFER_TIMEOUT: 300 s without a body write. -/
def execTransferTimeout (t : Instant) (tgt : Fin 6) (s : State) : Host.Outcome State Fault Refusal :=
  s.onChip (fun c =>
    if c.rd (0x2510 + tgt.val) 0x05 = 1 ∧ (c.target tgt.val).lastBody + 300000000000 ≤ t then (c.at_ t).abortUpdate tgt.val 19 else c)

/-! ### Update commands (Table 07-9) -/

/-- The activation instant of target t for a requested one (R213, R221, R222). -/
def Chip.activationAt (c : Chip) (t : Nat) (req : Instant) : Option Instant :=
  if t < 4 then activationTick req (c.runningCfgs t)
  else if t = 4 then some req
  else some ((req + 999999999) / 1000000000 * 1000000000)

/-- The requested instant of target t; one already past counts as now (log 41). -/
def Chip.requested (c : Chip) (t : Nat) (now : Instant) : Instant := max (c.rdPair (0x2510 + t) 0x04).instant now

/-- What an update command does. -/
def Chip.updateCommand (c : Chip) (now : Instant) (act t : Nat) : UpdRes :=
  let st := c.rd (0x2510 + t) 0x05
  let x := c.target t
  let early := match x.ta with
    | some ta => decide (now + 1000000 ≤ ta)
    | none => false
  match act with
  | 1 => if 1 ≤ st ∧ st ≤ 3 then .ok (c.abortUpdate t 19) else .error (0, abState)
  | 2 =>
    if st = 3 ∨ (st = 4 ∧ early = true) then
      match c.refusalState with
      | some r => .error r
      | none =>
        if t < 4 ∧ c.inMotion t = true then .error (16, abState)
        else
          match c.activationAt t (c.requested t now) with
          | some ta => .ok (((c.wrPair (0x2510 + t) 0x04 (c.pairAt ta)).wr (0x2510 + t) 0x05 4).modTarget t (fun x => { x with ta := some ta }))
          | none => .error (17, abState)
    else .error (0, abState)
  | 3 => if st = 4 ∧ early = true then .ok ((c.wr (0x2510 + t) 0x05 3).modTarget t (fun x => { x with ta := none })) else .error (0, abState)
  | 4 => if c.onTrial t then .ok (c.confirmTrial t) else .error (0, abState)
  | 5 => if c.onTrial t then .ok (c.failTrial t) else .error (0, abState)
  | _ => .error (0, abRange)

/-- An update command from the wire, if it is the one of the row. -/
def Chip.updateWrite (c : Chip) (a : Acc) (v act : Nat) : Chip :=
  if fieldOf v 7 4 = act then
    c.writeUpdate a 0x2500 0x01 (fieldOf v 2 0) v (beBytes v a.len) (fun c => c.updateCommand a.t act (fieldOf v 2 0))
  else c

def execAbortTransfer (a : Acc) (v : Nat) (s : State) : Host.Outcome State Fault Refusal := s.onChip (fun c => c.updateWrite a v 1)
def execActivate (a : Acc) (v : Nat) (s : State) : Host.Outcome State Fault Refusal := s.onChip (fun c => c.updateWrite a v 2)
def execCancelActivation (a : Acc) (v : Nat) (s : State) : Host.Outcome State Fault Refusal := s.onChip (fun c => c.updateWrite a v 3)
def execConfirm (a : Acc) (v : Nat) (s : State) : Host.Outcome State Fault Refusal := s.onChip (fun c => c.updateWrite a v 4)
def execFallBack (a : Acc) (v : Nat) (s : State) : Host.Outcome State Fault Refusal := s.onChip (fun c => c.updateWrite a v 5)

/-- What a write of 0x2500.0A does: slots are revoked for good, by a record of the calibration and identity area (R207, R344). -/
def Chip.revokeKeys (c : Chip) (v : Nat) : Except Nat Chip :=
  if c.storeFree then .ok ((c.persist kndRevoke 0x2500 0x0A (leBytes (c.rd 0x2500 0x0B ||| v % 16) 1)).wr 0x2500 0x0B (c.rd 0x2500 0x0B ||| v % 16)) else .error abBusy

def execKeySlotRevocation (a : Acc) (v : Nat) (s : State) : Host.Outcome State Fault Refusal :=
  s.onChip (fun c => c.writeNum a 0x2500 0x0A v (fun c _ => c.revokeKeys v))

/-! ### Putting a bank in force -/

/-- The two banks of target t change places; one that left force without ever having been written stays empty (Table 07-11). -/
def Chip.swapBanks (c : Chip) (t : Nat) (trial : Bool) : Chip :=
  let b := 1 - c.bankOf t
  let ix := 0x2510 + t
  let ver := c.rd ix 0x07
  let c := (c.wr ix 0x07 (c.rd ix 0x08)).wr ix 0x08 ver
  let left := c.fld ix 0x06 (2 * (1 - b) + 1) (2 * (1 - b))
  let c := (((c.setFld ix 0x06 4 4 b).setBit ix 0x06 5 trial).setBankState t b 3).setBankState t (1 - b) (if left = 3 then 2 else left)
  c.modTarget t (fun x => { x with
    app := x.prevApp, prevApp := x.app, meas := x.prevMeas, prevMeas := x.meas, hash := x.otherHash, otherHash := x.hash, fallAt := none })

/-- The other bank of target t is put in force, on trial or not; the selection is written to the parameter store (R214). -/
def Chip.flipBank (c : Chip) (t : Nat) (trial : Bool) (at_ : Instant) : Chip :=
  let c := (c.swapBanks t trial).wrPair (0x2510 + t) 0x0A (c.pairAt at_)
  c.persist 4 t 0 (leBytes (c.bankOf t) 1 ++ leBytes (bit01 trial) 1)

/-- The latest words and quality that some class holds of a source: the region ports keep them across an activation. -/
def latestOf (ks : List Cls) (src : ItemSrc) : Option (List Word × Nat) :=
  ks.findSome? (fun k => match k.cfg with
    | some g => (g.inputs.find? (fun p => p.src == src)).map (fun p =>
        ((List.range (placeLen p)).map (fun i => WMem.get k.img (p.addr + i)), NMem.get k.imgQ (baseKey p.addr)))
    | none => none)

/-- Words and quality of an input placement before anything arrives: what the ports hold, else the initial values of a subscription, else
nothing, Invalid (R293). -/
def firstWords (ks : List Cls) (subs : List GooseSub) (p : Place) : List Word × Nat :=
  match latestOf ks p.src with
  | some x => x
  | none => (match p.src with
    | .goose k m => (match subs.find? (fun s => s.num == k) with
      | some s => ([nth 0 s.initial m], 2)
      | none => ([], 2))
    | _ => ([], 2))

/-- The last dispatched value of word a among the classes before an activation. -/
def dispatchedOf (ks : List Cls) (a : Nat) : Option (Cls × Word) :=
  (ks.find? (fun k => ownsIo k a && !k.undisp.contains a)).map (fun k => (k, WMem.get k.pub a))

/-- The stop instant that the quality of word a of a class counts from, if it has one. -/
def stopOf (k : Cls) (a : Nat) : Option Instant := k.stopAt.or ((k.kept.find? (fun p => p.1 == a)).map (·.2))

/-- CY of each mailbox of a class as its image puts it in force, where the value of its first word was dispatched by an old class (R131, R215). -/
def carriedCycles (ks : List Cls) (g : ClsCfg) : List (Nat × Nat) :=
  g.boxes.filterMap (fun b => (dispatchedOf ks b.base).map (fun p => (b.base, boxCycle p.1 b.base)))

/-- A class as its image puts it in force: owned words keep the value an old class dispatched, each with its quality, others have their
initial value (R57, R215); inputs keep what the ports hold. -/
def newClass (ks : List Cls) (subs : List GooseSub) (g : ClsCfg) : Cls :=
  let carried := g.owned.filterMap (fun a => (dispatchedOf ks a).map (fun p => (a, p)))
  let img := g.inputs.foldl (fun (m : WMem × NMem) p =>
    let w := firstWords ks subs p
    (putWords m.1 p.addr w.1, NMem.set m.2 (baseKey p.addr) w.2)) ([], [])
  { Cls.reset with
    cfg := some g, img := img.1, imgQ := img.2,
    pub := g.owned.foldl (fun m a => WMem.set m a (match dispatchedOf ks a with
      | some p => p.2
      | none => WMem.get g.initial a)) [],
    undisp := g.owned.filter (fun a => !carried.any (fun p => p.1 == a)), boxOld := carriedCycles ks g,
    boxFr := (g.boxes.filter (fun b => (dispatchedOf ks b.base).any (fun p => p.1.boxFr.contains (b.base - 0x4000)))).map (·.base - 0x4000),
    kept := carried.filterMap (fun p => (stopOf p.2.1 p.1).map (fun d => (p.1, d))),
    items := ((ks.filter (fun k => (k.cfg.map (·.num)) == some g.num)).flatMap (·.items)) }

/-- The registers of a class (Tables 02-9 to 02-11), and those of its member of the roll call, whose values come from the image
(Table 13-6). -/
def Chip.reportClass (c : Chip) (r : Nat) (im : AppImage) (g : ClsCfg) : Chip :=
  let w := classW im g
  let ix := 0x2210 + g.num
  let flags := g.overrun % 8 + bit01 g.profD * 16 + bit01 g.det * 32 + bit01 g.foc * 64 + bit01 g.auto * 128
  let c := ((c.wr ix 0x01 ((g.members >>> (8 * r)) % 256 * 256 + r)).wr ix 0x02 g.period).wr ix 0x03 g.phase
  let c := ((c.wr ix 0x04 g.offset).wr ix 0x05 w).wr ix 0x06 (latestNs g - (w + 4000 + sigmaNs g))
  let c := ((c.wr ix 0x07 flags).wr ix 0x09 0).setBit 0x2200 0x04 g.num (!g.det)
  match g.rollCall with
  | some (p, o, cl) => c.showWindow g.num p o cl
  | none => c.showWindow g.num 0 0 0

/-- A class leaves the chip: out of the roll call, its registers at their defaults. -/
def Chip.dropClass (c : Chip) (n : Nat) : Chip :=
  let c := c.toState n csNone
  let c := [0x01, 0x02, 0x03, 0x04, 0x05, 0x06, 0x07, 0x09].foldl (fun c i => c.wr (0x2210 + n) i 0) c
  ((c.setBit 0x2200 0x04 n false).showWindow n 0 0 0).modCl n (fun _ => Cls.reset)

/-- The copies of a migration table: every source is read before any destination is written (R216). -/
def migrate (l : List MigEntry) (old new : WMem) : WMem :=
  (l.flatMap (fun m => (List.range m.cnt).map (fun i => (m.dst + i, WMem.get old (m.src + i))))).foldl (fun g p => WMem.set g p.1 p.2) new

/-- Publications, subscriptions and CAN objects follow the images in force; those that stay keep their state. -/
def Chip.rebuildNet (c : Chip) : Chip :=
  let ims := c.regions.filterMap (·.image)
  let gs := sortBy (fun (a b : GooseCfg) => decide (a.num ≤ b.num)) (ims.flatMap (·.goose))
  let subs := ims.flatMap (·.subs)
  let tx := gs.map (fun g => match c.net.tx.find? (fun x => (x.cfg.map (·.num)) == some g.num) with
    | some x => { x with cfg := some g }
    | none => ⟨some g, 0, 0, [], false, none, 0, ⟨0, 0⟩⟩)
  let ss := (List.range 256).map (fun k => match subs.find? (fun s => s.num == k) with
    | some s => if (c.goosub k).cfg = some s then c.goosub k else { GooseSt.reset with cfg := some s, state := 1, vals := s.initial }
    | none => GooseSt.reset)
  let txs (k : Nat) : List CanObj := (ims.flatMap (·.canTx)).filter (fun o => o.port == k)
  let can := (c.net.can.zipIdx).map (fun p => { p.1 with
    wire := p.1.wire.bind (fun w => match w.obj with
      | none => some w
      | some i => ((txs p.2).idxOf? (nth default p.1.tx i).obj).map (fun j => { w with obj := some j })),
    rx := ((ims.flatMap (·.canRx)).filter (fun o => o.port == p.2)).map (fun o =>
      (p.1.rx.find? (fun x => x.obj == o)).getD ⟨o, none, 0, 0, false, false⟩),
    tx := (txs p.2).map (fun o =>
      (p.1.tx.find? (fun x => x.obj == o)).getD ⟨o, [], false, 0, 0, 0⟩) })
  c.modNet (fun n => { n with tx := tx, subs := ss, can := can })

/-- PRF of a position (Table 03-4). -/
def prfOf (g : ClsCfg) (e : Nat) : Nat := bit01 g.profD + bit01 (g.dzt.testBit e) * 2 + bit01 g.det * 4

/-- A position as an image loads it: its class and member index, entry milestones written (R149). -/
def loadedWork (gs : List ClsCfg) (e : Nat) : Work :=
  match gs.find? (fun g => g.members.testBit e) with
  | some g => entryMark { Work.reset with prf := prfOf g e, eidCls := g.num, eidMix := (cfgTeam g).idxOf e }
  | none => Work.reset

/-- Load image `im` into region r: code, initial data, migrated words, classes in state 1, networks, then the edit set of the bank. -/
def Chip.installImage (c : Chip) (r : Nat) (im : Option AppImage) (mig : List MigEntry) : Chip :=
  let ks := c.cls
  let old := (c.region r).gmem
  let gs := match im with
    | some im => im.classes.map (fun g => (im, g))
    | none => []
  let subs := match im with
    | some im => im.subs
    | none => []
  let c := c.forAll ((List.range 16).filter (fun n => (c.cl n).cfg.isSome && clsRegion (c.cl n) == r)) (fun c n => c.dropClass n)
  let c := gs.foldl (fun c p =>
    ((c.modCl p.2.num (fun _ => newClass ks subs p.2)).reportClass r p.1 p.2).toState p.2.num csLoaded) c
  let gs := gs.map (·.2)
  let c := c.forAll ((List.range 8).map (8 * r + ·)) (fun c e =>
    let c := c.modWork e (fun _ => loadedWork gs e)
    let code := match im with
      | some im => ((im.code.find? (fun p => p.1 == e)).map (·.2)).getD []
      | none => []
    let data := match im with
      | some im => ((im.dInit.find? (fun p => p.1 == e)).map (·.2)).getD []
      | none => []
    (c.modIbank e (fun _ => code)).modDbank e (fun _ => data))
  let c := c.modRegion r (fun x => { x with
    image := im, editAt := [], orphans := x.orphans.filter (fun a => !gs.any (fun g => g.owned.contains a.addr)),
    gmem := match im with
      | some im => migrate mig old im.mInit
      | none => [] })
  let c := c.wr 0x2300 (0x01 + r) (match im with
    | some im => im.interval
    | none => 10000)
  (c.rebuildNet).reapplyEdits r none

/-! ### Activation of a region (R214-R216) -/

/-- Words, DOs and AOs that classes of the chip own. -/
def Chip.ownedWords (c : Chip) : List Nat := (c.cls.filterMap (·.cfg)).flatMap (·.owned)
def Chip.ownedDo (c : Chip) : List Nat := ((c.cls.filterMap (·.cfg)).flatMap (·.doOut)).map (·.1)
def Chip.ownedAo (c : Chip) : List Nat := ((c.cls.filterMap (·.cfg)).flatMap (·.aoOut)).map (·.1)

/-- A takeover or a planned swap of region r that has not come to pass ends with the works it was for: the relief stays relief, a failed
silicon is tested for its own position (R165), and one that a request named is tested as the request asked, without a swap (R168; DEDUCED,
log 117). -/
def Chip.endTakeover (c : Chip) (r : Nat) : Chip :=
  let x := c.region r
  let c := c.modRegion r (fun x => { x with attach := none, swap := none })
  match x.attach, x.swap with
  | some a, _ => (c.setReliefState r 0).queueTest a.silFailed .ownPosition false
  | none, some (e, _) => (c.setReliefState r 0).queueTest (silOf r (c.servedBy e)) .ownPosition true
  | none, none => c

/-- A word of a class of ks as it stands once no class owns it (R215). -/
def orphanOf (ks : List Cls) (heldFrom : Instant) (a : Nat) : Option Orphan :=
  (ks.find? (fun k => ownsIo k a)).map (fun k =>
    ⟨a, WMem.get k.pub a, k.undisp.contains a, stopOf k a, heldFrom, k.cfg.bind (fun g =>
      (g.boxes.find? (fun b => decide (b.base ≤ a) && decide (a < b.base + b.words))).map (fun b =>
        (b.base, g.num, k.boxFr.contains (b.base - 0x4000), boxCycle k b.base)))⟩)

/-- From Ta: the other bank is put in force, and the region pauses until Ta + 250 µs. -/
def Chip.switchImage (c : Chip) (r : Nat) (ta : Instant) (trial : Bool) (mig : List MigEntry) : Chip :=
  let mine := (List.range 16).filter (fun n => (c.cl n).cfg.isSome && clsRegion (c.cl n) == r)
  let ran := mine.foldl (fun m n => if isBusy (c.clState n) then setFieldOf m n n 1 else m) 0
  let words := c.ownedWords
  let ks := c.cls
  let dos := c.ownedDo
  let aos := c.ownedAo
  let c := c.forAll mine (fun c n => c.discardEdits n)
  let c := c.flipBank r trial ta
  let c := c.installImage r (c.target r).app mig
  let nw := c.ownedWords
  let nd := c.ownedDo
  let na := c.ownedAo
  let lost := (words.filter (fun a => !nw.contains a)).filterMap (orphanOf ks (ta + 250000))
  ((c.endTakeover r).modRegion r (fun x => { x with paused := true, orphans := x.orphans ++ lost })).modTarget r (fun x => { x with
    ta := none, trialEnd := none, resumeAt := some (ta + 250000), wasRunning := ran, isFallback := !trial,
    lostDo := dos.filter (fun a => !nd.contains a),
    lostAo := aos.filter (fun a => !na.contains a) })

/-- ACTIVATION_TICK: every old class has dispatched; the activation is cancelled while an output is in motion, or begins (R211, R214). -/
def execActivationTick (t : Instant) (tgt : Fin 4) (s : State) : Host.Outcome State Fault Refusal :=
  s.onChip (fun c =>
    let r := tgt.val
    match (c.target r).ta with
    | some ta =>
      if c.rd (0x2510 + r) 0x05 = 4 ∧ ta ≤ t then
        let c := (c.dispatchAll t).at_ t
        if c.inMotion r then
          (((c.wr (0x2510 + r) 0x05 3).wr 0x2500 0x08 (16 + r * 256)).modTarget r (fun x => { x with ta := none })).event 0x0703 sevMajor 11 r []
        else
          let mig := match (c.target r).prevApp with
            | some im => migEntries im.migFwd
            | none => []
          c.switchImage r ta true mig
      else c
    | none => c)

/-- The fences that keep a class from running: of its region, of a bank of its positions, of the silicon that serves one of its works or
that left it without any (Table 01-7, R167). -/
def Chip.lostFences (c : Chip) (n : Nat) : List StopFence :=
  let r := clsRegion (c.cl n)
  let team := clsTeam (c.cl n)
  (if c.bit 0x2100 0x02 (8 + r) then [.region] else []) ++
    ((c.region r).banks.filter (fun p => team.contains p.1)).map (fun p => .bank p.1 p.2) ++
    team.filterMap (fun e =>
      let s := c.servedBy e
      if s = 15 then some (.silicon (if c.silFenced e then e else 32 + r))
      else if c.silFenced (silOf r s) then some (.silicon (silOf r s)) else none)

/-- A class that is loaded beside such a fence enters state 6 (R163). -/
def Chip.stopLost (c : Chip) (n : Nat) : Chip := (c.lostFences n).foldl (fun c f => c.stopHw n f) c

/-- A class of a region that resumes at m: it runs again with CY 0, waits, or is stopped by a fence. In a region left off it waits for the
next start-up (R403). -/
def Chip.resumeClass (c : Chip) (n : Nat) (m : Instant) (ran : Nat) : Chip :=
  match (c.cl n).cfg with
  | some g =>
    let c := c.stopLost n
    if c.clState n = csHwFault ∨ c.regionOn (clsRegion (c.cl n)) = false then c
    else if ran.testBit n || g.auto then (c.modCl n (fun k => { k with notBefore := m })).toState n csRestarting
    else c
  | none => c

/-- REGION_RESUME at Ta + 250 µs: outputs that lost their owner take their safe state, and the trial begins or the fallback ends (R214, R215, R217). -/
def execRegionResume (t : Instant) (tgt : Fin 4) (s : State) : Host.Outcome State Fault Refusal :=
  s.onChip (fun c =>
    let r := tgt.val
    let x := c.target r
    match x.resumeAt with
    | some m =>
      if m ≤ t then
        let c := (c.at_ t).modRegion r (fun y => { y with paused := false })
        let c := if c.drives then
            let c := c.forAll x.lostDo (fun c d => c.safeDo d)
            c.forAll x.lostAo (fun c o => c.safeAo o)
          else c
        let mine := (List.range 16).filter (fun n => (c.cl n).cfg.isSome && clsRegion (c.cl n) == r)
        let c := c.forAll mine (fun c n => c.resumeClass n m x.wasRunning)
        let c := c.wr (0x2510 + r) 0x05 (if x.isFallback then 0 else 5)
        c.modTarget r (fun y => { y with
          resumeAt := none, lostDo := [], lostAo := [], head := if x.isFallback then none else y.head,
          trialEnd := if x.isFallback then none else some (m + c.rd 0x2500 0x05 * 1000000000) })
      else c
    | none => c)

/-! ### Trial and fallback (R217, R218) -/

/-- TRIAL_PERIOD_EXPIRY. -/
def execTrialPeriodExpiry (t : Instant) (tgt : Fin 6) (s : State) : Host.Outcome State Fault Refusal :=
  s.onChip (fun c =>
    match (c.target tgt.val).trialEnd with
    | some e => if e ≤ t then (c.at_ t).failTrial tgt.val else c
    | none => c)

/-- The previous bank of a target without regions is put back in force. -/
def Chip.flipBack (c : Chip) (t : Nat) : Chip :=
  let c := (c.flipBank t false c.now).wr (0x2510 + t) 0x05 0
  (c.modTarget t (fun x => { x with head := none, ta := none, trialEnd := none })).event 0x0705 sevMajor 11 t []

/-- FALLBACK_TICK: the failed trial's previous bank is in force again. -/
def execFallbackTick (t : Instant) (tgt : Fin 6) (s : State) : Host.Outcome State Fault Refusal :=
  s.onChip (fun c =>
    let k := tgt.val
    match (c.target k).fallAt with
    | some f =>
      if f ≤ t then
        let c := (if k < 4 then c.dispatchAll t else c).at_ t
        if k < 4 then
          let mig := match (c.target k).app with
            | some im => migEntries im.migRev
            | none => []
          (c.switchImage k f false mig).event 0x0705 sevMajor 11 k []
        else if k = 4 then (c.flipBack 4).mssReset
        else
          let c := c.flipBack 5
          c.saveAccumulators.installMeas (c.target 5).meas
      else c
    | none => c)

/-! ### Management firmware and measurement configuration (R221, R222) -/

/-- A trial of target t begins at m. -/
def Chip.beginTrial (c : Chip) (t : Nat) (m : Instant) : Chip :=
  (c.wr (0x2510 + t) 0x05 5).modTarget t (fun x => { x with ta := none, trialEnd := some (m + c.rd 0x2500 0x05 * 1000000000) })

/-- The time in which the firmware is back after a restart of its MSS (R221). -/
def mssBackNs : Nat := 200000000

/-- MSS_FIRMWARE_ACTIVATION (R221): the MSS of a chip that is alone, or that was standby at the activation instant, is reset into the new bank; the
latter will ask for the planned swap. That of the former active follows once that swap has made it standby. Where the partner's restart has failed no
swap is asked for within its 200 ms, and the step of the active ends: the new bank stays verified (DESIGN CHOICE, log 136). -/
def execMssFirmwareActivation (t : Instant) (s : State) : Host.Outcome State Fault Refusal :=
  s.onChip (fun c =>
    match (c.target 4).ta with
    | some ta =>
      let x := c.target 4
      if c.rd 0x2514 0x05 = 4 ∧ ta ≤ t then
        let first := c.pairState == psStandbyReady && decide (c.pair.began ≤ ta)
        let follows := c.pairState == psStandbyReady && decide (ta < c.pair.began) && x.swapDue
        if c.pairState = psAlone ∨ first = true ∨ follows = true then
          (((c.at_ t).flipBank 4 true t).beginTrial 4 t).mssReset.modTarget 4 (fun x => { x with swapDue := first })
        else if c.pair.grant.isNone = true ∧ ta + mssBackNs ≤ t then
          ((c.at_ t).wr 0x2514 0x05 3).modTarget 4 (fun x => { x with ta := none, swapDue := false })
        else c
      else c
    | none => c)

/-- MSS_FIRMWARE_BACK: the firmware answers again; a standby whose firmware is on trial asks for the planned swap. A restart that fails
returns to the previous bank. -/
def execMssFirmwareBack (t : Instant) (ok : Bool) (s : State) : Host.Outcome State Fault Refusal :=
  s.onChip (fun c =>
    if c.running = true ∧ c.dict.mssUp = false then
      let c := c.at_ t
      if ok then
        let c := c.modDict (fun d => { d with mssUp := true })
        if (c.target 4).swapDue = true ∧ c.pairState = psStandbyReady ∧ c.rd 0x2514 0x05 = 5 ∧ c.partnerState = psActive then
          ((c.modPair (fun p => { p with asked := true })).modTarget 4 (fun x => { x with swapDue := false })).send .roleRequest
        else c
      else if c.rd 0x2514 0x05 = 5 then (c.flipBack 4).mssReset
      else c
    else c)

/-- MEASUREMENT_CONFIG_ACTIVATION at a whole second. -/
def execMeasurementConfigActivation (t : Instant) (s : State) : Host.Outcome State Fault Refusal :=
  s.onChip (fun c =>
    match (c.target 5).ta with
    | some ta =>
      if c.rd 0x2515 0x05 = 4 ∧ ta ≤ t then
        let c := ((c.at_ t).flipBank 5 true ta).beginTrial 5 ta
        c.saveAccumulators.installMeas (c.target 5).meas
      else c
    | none => c)

end Sys2Proof.Machine
end

