-- ==== Sys2Proof/Machine/Flash.lean ====
section
/-! DEFINITION. The flash controller (12): records of the parameter store, compaction and wear, event records, reading and clearing. -/

namespace Sys2Proof.Machine

/-! ### Sectors of a store (R347, R354, R355) -/

/-- Group 0 of a sector's header: erase count, half, 0x53 (R347). -/
def headerGroup (half : Bool) (erases : Nat) : List Byte := leBytes erases 4 ++ leBytes (bit01 half) 1 ++ [0x53, 0, 0]

/-- A header group programmed 0x00: group 1 of a full sector, group 2 before its erase. -/
def zeroGroup : List Byte := List.replicate 8 0

/-- Record bytes of a sector. -/
abbrev sectorSpace : Nat := 65472
/-- Length of a record in flash (Table 12-4). -/
def recLen (pay : List Byte) : Nat := 24 + 8 * ((pay.length + 7) / 8)

/-- The sector of lowest erase count among those erased, the first of equals (R354). -/
def nextErased (l : List Sector) : Option Nat :=
  ((l.zipIdx).foldl (fun (b : Option (Sector × Nat)) p => if p.1.st = 0 then
    (match b with
      | some x => if p.1.erases < x.1.erases then some p else some x
      | none => some p) else b) none).map (·.2)

/-- Take n bytes in a half: the open sector where they fit, else a newly opened one; none without an erased sector. -/
def takeSpace (l : List Sector) (n : Nat) : Option (List Sector × Nat) :=
  match l.findIdx? (fun s => s.st == 1 && decide (s.used + n ≤ sectorSpace)) with
  | some i => some (upd (fun s => { s with used := s.used + n }) l i, i)
  | none =>
    match nextErased l with
    | some i => some (upd (fun s => { s with st := 1, used := n }) (l.map (fun s => if s.st = 1 then { s with st := 2 } else s)) i, i)
    | none => none

/-- Whether a record is the current one of its key (R350). -/
def isCurrent (s : Store) (r : PRec) : Bool := storeCurrent s r.knd r.ix r.sub == some r

/-- A copy of a record lies in sector i of a half. -/
def copyIn (b : Bool) (i : Nat) (r : PRec) : Bool := if b then r.b && r.sb == i else r.a && r.sa == i

/-- The current records with a copy in sector i of a half. -/
def currentIn (s : Store) (b : Bool) (i : Nat) : List PRec := s.recs.filter (fun r => copyIn b i r && isCurrent s r)

/-- Bytes of current records in sector i of a half. -/
def liveIn (s : Store) (b : Bool) (i : Nat) : Nat := ((currentIn s b i).map (fun r => recLen r.pay)).sum

def halfOf (s : Store) (b : Bool) : List Sector := if b then s.halfB else s.halfA
def setHalf (s : Store) (b : Bool) (l : List Sector) : Store := if b then { s with halfB := l } else { s with halfA := l }

/-! The parameter store, and with `ident` the record part of the calibration and identity area, which keeps its rules (R344). -/

def Chip.storeAt (c : Chip) (ident : Bool) : Store := if ident then c.ident else c.store
def Chip.modStoreAt (c : Chip) (ident : Bool) (f : Store → Store) : Chip := if ident then c.modIdent f else c.modStore f

/-- The area of a half, and which half of which store an area is; none of the recorder. -/
def areaOf (ident half : Bool) : FlashArea := match ident, half with
  | false, false => .storeA
  | false, true => .storeB
  | true, false => .identA
  | true, true => .identB
def halfAt : FlashArea → Option (Bool × Bool)
  | .storeA => some (false, false)
  | .storeB => some (false, true)
  | .identA => some (true, false)
  | .identB => some (true, true)
  | .recorder => none

/-- Whether a record belongs to the calibration and identity area. -/
def isIdent (knd : Nat) : Bool := decide (kndKey ≤ knd)

/-- Lowest and highest erase count of a half. -/
def lowErase (l : List Sector) : Nat := (l.map (·.erases)).foldl min ((l.map (·.erases)).headD 0)
def highErase (l : List Sector) : Nat := (l.map (·.erases)).foldl max 0

/-- The full sector of a list that compaction takes (R354): one worn 1 000 beyond the lowest first, else that with the least live data. -/
def victimOf (l : List Sector) (live : Nat → Nat) : Option Nat :=
  let full := (List.range l.length).filter (fun i => (nth ⟨0, 0, 0⟩ l i).st == 2)
  match full.find? (fun i => decide (lowErase l + 1000 < (nth ⟨0, 0, 0⟩ l i).erases)) with
  | some i => some i
  | none => (full.foldl (fun (m : Option (Nat × Nat)) i =>
      let n := live i
      match m with
      | some x => if n < x.2 then some (i, n) else some x
      | none => some (i, n)) none).map (·.1)

/-- Bytes that records can still take in a half. -/
def freeSpace (l : List Sector) : Nat :=
  (l.map (fun s => if s.st = 0 then sectorSpace else if s.st = 1 then sectorSpace - s.used else 0)).sum

/-- Bring 0x2D00.01, .04 and .05 up to date; the event of wear is recorded once (R355). -/
def Chip.syncStore (c : Chip) : Chip :=
  let a := c.store.halfA
  let b := c.store.halfB
  let hi := max (highErase a) (highErase b)
  let c := ((c.wr 0x2D00 0x01 (min (freeSpace a) (freeSpace b))).wr 0x2D00 0x04 hi).wr 0x2D00 0x05 (min (lowErase a) (lowErase b))
  if 90000 < hi ∧ c.store.worn = false then (c.modStore (fun s => { s with worn := true })).event 0x0C04 sevMajor 12 0 [] else c

/-- Whether the flash die is written to: the chip runs and the die is not fenced. -/
def Chip.flashOn (c : Chip) : Bool := c.running && !c.portFenced 2

/-! ### The bytes of a record (Table 12-4) -/

/-- Header and padded payload of a copy; B names copy B. -/
def recordBody (knd ix sub rsn : Nat) (b : Bool) (pay : List Byte) : List Byte :=
  leBytes ix 2 ++ leBytes sub 1 ++ leBytes knd 1 ++ leBytes pay.length 2 ++ leBytes (bit01 b) 1 ++ [0] ++ leBytes rsn 6 ++ [0, 0] ++
    padBytes (8 * ((pay.length + 7) / 8)) pay

/-- MARK of a record. -/
def recordMark : List Byte := [0x56, 0x4C, 0x44, 0x4D]

/-- A whole copy: its last group holds the CRC and the valid mark. -/
def recordCopy (knd ix sub rsn : Nat) (b : Bool) (pay : List Byte) : List Byte :=
  let body := recordBody knd ix sub rsn b pay
  body ++ leBytes (crc32 body) 4 ++ recordMark

/-- Whether the bytes of a record or an event record stand (R350, R356): MARK and CRC correct, no group flagged. -/
def marked (mark bs : List Byte) (flags : List Bool) : Bool :=
  let n := bs.length - 8
  bs.drop (n + 4) == mark && leNat ((bs.drop n).take 4) == crc32 (bs.take n) && !flags.contains true
def copyStands (bs : List Byte) (flags : List Bool) : Bool := marked recordMark bs flags

/-- How many bytes of a copy were programmed, and where the operation under way ends: header and payload go page by page, the mark group is
an operation of its own (R349). `len` is the length of the copy, `off` its offset in the record space of its sector. -/
def cutExtent (len off : Nat) (mark : Bool) (done : Nat) : Nat × Nat :=
  if mark then (len - 8 + min done 8, len)
  else
    let n := min done (len - 8)
    let pageEnd := ((64 + off + n) / 256 + 1) * 256 - (64 + off)
    (n, if n = len - 8 then n else min (len - 8) pageEnd)

/-! ### Program operations on a store (R347, R349, R351) -/

/-- The address of a record at an offset of a sector's record space. -/
def recordAddr (area : FlashArea) (i off : Nat) : Nat := sectorAddr area i + 64 + off

/-- What taking space did to the sectors of an area comes into their headers: group 1 of those that are full now, group 0 of the one that was
opened (R347). `cut` cuts the operation that opens a sector. -/
def dieHeaders (d : FlashDie) (area : FlashArea) (half : Bool) (old new : List Sector) (cut : Option Nat) (draw : Nat) : FlashDie :=
  (((old.zip new).zipIdx).foldl (fun d p =>
    let a := sectorAddr area p.2
    if p.1.1.st = 1 ∧ p.1.2.st = 2 then d.program (a + 8) zeroGroup
    else if p.1.1.st = 0 ∧ p.1.2.st = 1 then d.write a (headerGroup half p.1.2.erases) cut draw
    else d) d)

/-- Take n bytes in a half: the chip with the sector's headers, the sector and the offset. -/
def Chip.openSpace (c : Chip) (ident half : Bool) (n : Nat) : Option (Chip × Nat × Nat) :=
  let old := halfOf (c.storeAt ident) half
  match takeSpace old n with
  | some (l, i) =>
    some ((c.modStoreAt ident (fun s => setHalf s half l)).modDie (fun d => dieHeaders d (areaOf ident half) half old l none 0), i,
      (nth ⟨0, 0, 0⟩ l i).used - n)
  | none => none

/-- A copy is programmed at its place: header and payload, then the mark group (R349); or cut in one of the two, `mark` or before. -/
def Chip.putCopy (c : Chip) (ident half : Bool) (i off : Nat) (bs : List Byte) (cut : Option (Bool × Nat)) : Chip :=
  let a := recordAddr (areaOf ident half) i off
  match cut with
  | none => c.modDie (fun d => (d.program a (bs.take (bs.length - 8))).program (a + (bs.length - 8)) (bs.drop (bs.length - 8)))
  | some (mark, done) =>
    let x := cutExtent bs.length off mark done
    let c' := (c.modDie (fun d => d.tear a c.free x.1 x.2 bs)).modStoreAt ident (fun s =>
      setHalf s half (upd (fun z => { z with used := off + x.2 }) (halfOf s half) i))
    { c' with free := c'.free + bs.length }

/-- A record of the parameter store is written: counted in 0x2D00.02. -/
def Chip.countRecord (c : Chip) (ident : Bool) : Chip := if ident then c else c.bump 0x2D00 0x02

/-- A record comes into the index of its store, with the newest RSN. -/
def Chip.addRecord (c : Chip) (ident : Bool) (r : PRec) : Chip := c.modStoreAt ident (fun s => { s with rsn := r.rsn, recs := s.recs ++ [r] })

/-- Both copies of one record, with the next RSN, in four steps; none where a half has no space (R349). -/
def Chip.putRecord (c : Chip) (knd ix sub : Nat) (pay : List Byte) : Option Chip :=
  let id := isIdent knd
  let n := recLen pay
  match c.openSpace id false n with
  | none => none
  | some (c, i, oa) => match c.openSpace id true n with
    | none => none
    | some (c, j, ob) =>
      let rsn := ((c.storeAt id).rsn + 1) % 2 ^ 48
      let c := (c.putCopy id false i oa (recordCopy knd ix sub rsn false pay) none).putCopy id true j ob (recordCopy knd ix sub rsn true pay) none
      some ((c.addRecord id ⟨knd, ix, sub, rsn, pay, true, true, i, j, oa, ob⟩).countRecord id).syncStore

/-! ### Background work: compaction and repair (R352, R354) -/

/-- Move the copy of a record in half b to a place. -/
def moveCopy (b : Bool) (j off : Nat) (r : PRec) : PRec := if b then { r with b := true, sb := j, ob := off } else { r with a := true, sa := j, oa := off }

/-- A copy of record r is written into the open sector of a half; cut, it takes its space and the record keeps its place. -/
def Chip.recopy (c : Chip) (ident half : Bool) (r : PRec) (cut : Option (Bool × Nat)) : Option Chip :=
  match c.openSpace ident half (recLen r.pay) with
  | some (c, j, off) =>
    let c := c.putCopy ident half j off (recordCopy r.knd r.ix r.sub r.rsn half r.pay) cut
    some (if cut.isSome then c else c.modStoreAt ident (fun s => { s with recs := s.recs.map (fun x => if x = r then moveCopy half j off x else x) }))
  | none => none

/-- Work that a copy into an area is still part of. -/
def copiesInto (area : FlashArea) (w : FlashWork) : Bool := match w with
  | .copy a _ => a == area
  | .slot _ => area == .recorder
  | _ => false

/-- What a half begins where it has fewer than two erased sectors: the current records of the victim are copied, and its erase begins. -/
def Chip.planHalf (c : Chip) (ident half : Bool) : Chip :=
  let area := areaOf ident half
  let s := c.storeAt ident
  let l := halfOf s half
  if 2 ≤ (l.filter (fun x => x.st == 0)).length ∨ l.any (fun x => x.st == 3) = true ∨
      c.die.work.any (fun w => match w with | .retire a _ => a == area | _ => false) = true then c
  else match victimOf l (liveIn s half) with
    | none => c
    | some i => c.modDie (fun d => { d with work := d.work ++ (currentIn s half i).map (fun r => .copy area r.rsn) ++ [.retire area i] })

/-- Every half that needs it begins its compaction. -/
def Chip.planStores (c : Chip) : Chip :=
  ((((c.planHalf false false).planHalf false true).planHalf true false).planHalf true true)

/-! ### Event records (R356, R359, R360) -/

/-- Live records at most, and live audit records at most. -/
abbrev recorderCapacity : Nat := 64260
abbrev auditCap : Nat := 8192

/-- Drop the first element that a test picks. -/
def dropFirst {α : Type} (p : α → Bool) (l : List α) : List α := match l.findIdx? p with
  | some i => l.eraseIdx i
  | none => l

/-- Make room for a new record of a severity: the live records left and whether one was displaced; none where nothing gives way (R360). -/
def recRoom (live : List EvRec) (sev : Nat) : Option (List EvRec × Bool) :=
  if sev = sevAudit ∧ auditCap ≤ (live.filter (fun r => r.sev == sevAudit)).length then
    some (dropFirst (fun r => r.sev == sevAudit) live, true)
  else if live.length < recorderCapacity then some (live, false)
  else if sev = sevAudit then some (live.drop 1, true)
  else if live.any (fun r => decide (r.sev ≤ sev)) then some (dropFirst (fun r => decide (r.sev ≤ sev)) live, true)
  else none

/-- Bring 0x2B00.02 to .04 and .07 up to date. -/
def Chip.syncRecorder (c : Chip) : Chip :=
  let l := c.recd.live
  let c := (c.wr 0x2B00 0x02 l.length).wr 0x2B00 0x03 (match l with
    | r :: _ => r.seq
    | [] => 0)
  (c.wr 0x2B00 0x04 c.recd.last).wr 0x2B00 0x07 (l.filter (fun r => r.sev == sevAudit)).length

/-- SEQ x is at or below n: written no later (after 2^32 − 1 comes 1, R356; no more than 64 260 records are live). -/
def seqUpTo (n x : Nat) : Bool := n != 0 && decide ((n + 2 ^ 32 - x) % 2 ^ 32 < 2 ^ 31)

/-- What the record of a clear makes absent: live records at or below the SEQ it names whose severity is in its mask (R362). -/
def Chip.performClear (c : Chip) (r : EvRec) : Chip :=
  if r.code = clearCode then
    let mask := leNat (r.dtl.take 1)
    let top := leNat ((r.dtl.drop 1).take 4)
    let gone (y : EvRec) : Bool := seqUpTo top y.seq && mask.testBit y.sev
    let c := c.modRec (fun x =>
      let out := (x.live.filter gone).map (·.seq)
      { x with live := x.live.filter (fun y => !gone y), place := x.place.filter (fun p => !out.contains p.1) })
    c.wrPair 0x2B00 0x08 r.tim
  else c

/-- The next SEQ: after 2^32 − 1 comes 1 (R356). -/
def nextSeq (n : Nat) : Nat := if n + 1 < 2 ^ 32 then n + 1 else 1

/-! ### Sectors of the recorder (R359) -/

/-- Slots of a recorder sector. -/
abbrev slotsPerSector : Nat := 510

/-- Take the next slot: in the open sector, else in a newly opened one; none without an erased sector. -/
def takeSlot (l : List Sector) : Option (List Sector × Nat × Nat) :=
  match l.findIdx? (fun s => s.st == 1 && decide (s.used < slotsPerSector)) with
  | some i => some (upd (fun s => { s with used := s.used + 1 }) l i, i, (nth ⟨0, 0, 0⟩ l i).used)
  | none =>
    match nextErased l with
    | some i => some (upd (fun s => { s with st := 1, used := 1 }) (l.map (fun s => if s.st = 1 then { s with st := 2 } else s)) i, i, 0)
    | none => none

/-- The address of a slot of a recorder sector. -/
def slotAddr (i k : Nat) : Nat := sectorAddr .recorder i + 256 + 128 * k

/-- Take a slot for record `seq`, with the sector's headers; `cut` cuts the opening of a sector. -/
def Chip.openSlot (c : Chip) (cut : Option Nat) : Option (Chip × Nat × Nat) :=
  match takeSlot c.recd.sectors with
  | some (l, i, k) =>
    some ((c.modRec (fun x => { x with sectors := l })).modDie (fun d => dieHeaders d .recorder false c.recd.sectors l cut c.free), i, k)
  | none => none

/-- An event record is programmed in its slot: bytes 0–119 in one operation, the mark group in a second (R356). -/
def diePutEvent (d : FlashDie) (i k : Nat) (bs : List Byte) : FlashDie :=
  (d.program (slotAddr i k) (bs.take 120)).program (slotAddr i k + 120) (bs.drop 120)

/-- A live record comes to lie in the next slot; none without one. -/
def Chip.placeRecord (c : Chip) (r : EvRec) : Option Chip :=
  match c.openSlot none with
  | some (c, i, k) =>
    some ((c.modDie (fun d => diePutEvent d i k (recordBytes r))).modRec (fun x => { x with place := x.place.filter (fun p => p.1 != r.seq) ++ [(r.seq, i, k)] }))
  | none => none

/-- Two erased sectors are kept: the live records of the victim are copied with SEQ and contents unchanged, and its erase begins (R359). -/
def Chip.planRecorder (c : Chip) : Chip :=
  let l := c.recd.sectors
  if 2 ≤ (l.filter (fun x => x.st == 0)).length ∨ l.any (fun x => x.st == 3) = true ∨
      c.die.work.any (fun w => match w with | .retire a _ => a == .recorder | _ => false) = true then c
  else
    match victimOf l (fun i => (c.recd.place.filter (fun p => p.2.1 == i)).length) with
    | none => c
    | some i => c.modDie (fun d => { d with
        work := d.work ++ (c.recd.place.filter (fun p => p.2.1 == i)).map (fun p => .slot p.1) ++ [.retire .recorder i] })

/-- The live record that makes room: the one that the list without it lacks. -/
def displacedOf : List EvRec → List EvRec → Option EvRec
  | x :: l, y :: r => if x = y then displacedOf l r else some x
  | x :: _, [] => some x
  | [], _ => none

/-- How many of the three bits of a slot read 0; the majority decides whether it is void (R359). -/
def voidMajority (m : Nat) : Bool := decide (2 ≤ m % 2 + m / 2 % 2 + m / 4 % 2)

/-- Bits `m` of the slot of record `seq` are programmed from 1 to 0 in the void map; by the majority the record is displaced (R359, R360). -/
def voidBits (r : Recorder) (seq m : Nat) : Recorder :=
  match r.place.find? (fun p => p.1 == seq) with
  | some p =>
    let had := (r.voids.find? (fun v => v.1 == p.2.1 && v.2.1 == p.2.2)).elim 0 (·.2.2)
    let m := had ||| m % 8
    let r := { r with voids := r.voids.filter (fun v => !(v.1 == p.2.1 && v.2.1 == p.2.2)) ++ [(p.2.1, p.2.2, m)] }
    if voidMajority m then { r with live := r.live.filter (fun x => x.seq != seq), place := r.place.filter (fun q => q.1 != seq) } else r
  | none => { r with live := r.live.filter (fun x => x.seq != seq) }

/-- The void map of sector i: bits 3k to 3k + 2 are those of slot k (DESIGN CHOICE, log 145). -/
def voidMap (r : Recorder) (i : Nat) : List Byte :=
  leBytes ((r.voids.filter (fun v => v.1 == i)).foldl (fun x v => x - v.2.2 * 2 ^ (3 * v.2.1)) (2 ^ 1536 - 1)) 192

/-- What an address of the flash die reads; the void maps have no code and no groups of their own (R345). -/
def Chip.flashByte (c : Chip) (a : Nat) : Byte :=
  let i := (a - 0x02C00000) / sectorBytes
  let k := a % sectorBytes
  if 0x02C00000 ≤ a ∧ a < 0x03400000 ∧ 64 ≤ k ∧ k < 256 then nth 0xFF (voidMap c.recd i) (k - 64) else c.die.byteAt a

/-- Room is made for a record of a severity: the record displaced is voided and counted; false where nothing gives way (R360). -/
def Chip.makeWay (c : Chip) (sev : Nat) : Chip × Bool :=
  match recRoom c.recd.live sev with
  | some (live, true) => (match displacedOf c.recd.live live with
    | some d => ((c.modRec (fun x => voidBits x d.seq 7)).bump 0x2B00 0x06, true)
    | none => (c, true))
  | some (_, false) => (c, true)
  | none => (c, false)

/-! ### Background work done (R352, R354) -/

/-- Programming header group 2 of a sector, whole or cut: whole, its erase begins (R347, R354). -/
def Chip.retire (c : Chip) (area : FlashArea) (i : Nat) (cut : Option Nat) : Chip :=
  let c' := c.modDie (fun d => d.write (sectorAddr area i + 16) zeroGroup cut c.free)
  let erasing (l : List Sector) : List Sector := upd (fun x => { x with st := 3 }) l i
  if (cut.getD 8) < 8 then { c' with free := c'.free + 8 }
  else match halfAt area with
    | some (ident, half) =>
      let c' := c'.modStoreAt ident (fun s => setHalf s half (erasing (halfOf s half)))
      if ident then c' else c'.bump 0x2D00 0x06
    | none => c'.modRec (fun x => { x with sectors := erasing x.sectors })

/-- One piece of the background work; none where it must wait: for space, or for the copies of its sector. -/
def Chip.doItem (c : Chip) (w : FlashWork) : Option Chip :=
  match w with
  | .copy area rsn => (match halfAt area with
    | some (ident, half) => (match (c.storeAt ident).recs.find? (fun r => r.rsn == rsn && isCurrent (c.storeAt ident) r) with
      | some r => c.recopy ident half r none
      | none => some c)
    | none => some c)
  | .repair ident rsn => (match (c.storeAt ident).recs.find? (fun r => r.rsn == rsn && r.a && !r.b) with
    | some r => (c.recopy ident true r none).map (fun c => (c.bump 0x2D00 0x09).event 0x0C02 sevMinor 12 0 [])
    | none => some c)
  | .slot seq => (match c.recd.live.find? (fun r => r.seq == seq) with
    | some r => c.placeRecord r
    | none => some c)
  | .retire area i => if c.die.work.any (copiesInto area) then none else some (c.retire area i none)

/-- The background work that has been begun is done, as far as space allows; the rest waits, and loses no record. -/
def Chip.doAll (c : Chip) (l : List FlashWork) : Chip :=
  l.foldl (fun c w => match c.doItem w with
    | some d => d
    | none => c.modDie (fun d => { d with work := d.work ++ [w] })) (c.modDie (fun d => { d with work := [] }))
def Chip.doWork (c : Chip) : Chip := if c.die.work = [] then c else (c.doAll c.die.work).syncStore

/-- Queued records move up, and those that waited for a place follow (R349, log 143). -/
def Chip.takeQueued (c : Chip) : Chip :=
  let c := c.modStore (fun s => { s with queue := s.queue.drop 1 ++ s.held.take 1, held := s.held.drop 1 })
  c.wr 0x2D00 0x03 c.store.queue.length

/-- PARAMETER_RECORD_WRITE: the oldest queued record is written and persistent; event records go ahead (R349, R358). The background work is done
before it, and begun after it where a half needs it (R354; DESIGN CHOICE, log 146). -/
def execParameterRecordWrite (t : Instant) (s : State) : Host.Outcome State Fault Refusal :=
  s.onChip (fun c =>
    match c.store.queue with
    | (knd, ix, sub, pay, t0) :: _ =>
      if c.flashOn = true ∧ c.recd.queue = [] then
        let c := (c.at_ t).doWork
        match c.putRecord knd ix sub pay with
        | some d => (d.takeQueued.wr 0x2D00 0x0A (max (d.rd 0x2D00 0x0A) (min 350000 ((t - t0) / 1000)))).planStores
        | none => c.planStores
      else c
    | [] => c)

/-- The oldest queued event record is written with the next SEQ, or dropped where nothing can be displaced (R360). -/
def Chip.writeEvent (c : Chip) : Chip :=
  match c.recd.queue with
  | r :: rest =>
    let x := c.makeWay r.sev
    let c := x.1.modRec (fun x => { x with queue := rest })
    if x.2 then
      let r := { r with seq := nextSeq c.recd.last }
      let c := c.modRec (fun x => { x with live := x.live ++ [r], last := r.seq })
      (((c.placeRecord r).getD c).performClear r).planRecorder.syncRecorder
    else c.bump 0x2B00 0x05
  | [] => c

/-- EVENT_RECORD_WRITE: both program operations of the oldest queued event record (R356, R358), after the background work of the recorder's
sectors. -/
def execEventRecordWrite (t : Instant) (s : State) : Host.Outcome State Fault Refusal :=
  s.onChip (fun c =>
    if c.flashOn = true ∧ c.recd.queue ≠ [] then
      let c := (c.at_ t).doWork
      if (takeSlot c.recd.sectors).isSome then c.writeEvent else c.planRecorder
    else c)

/-! ### Erases (R353, R354, R359) -/

/-- The flash die is supplied and not fenced: an erase runs on its own sequencer. -/
def Chip.flashSupplied (c : Chip) : Bool := c.power.domains.getLsbD 11 && !c.portFenced 2

/-- The copies that sector i of a half held are gone. -/
def dropCopies (half : Bool) (i : Nat) (s : Store) : Store :=
  let recs := s.recs.map (fun r => if half then (if r.sb = i then { r with b := false } else r)
    else (if r.sa = i then { r with a := false } else r))
  { s with recs := recs.filter (fun r => r.a || r.b) }

/-- A sector of a half of a store is erased, and with it the copies it held. -/
def eraseStore (half : Bool) (i : Nat) (s : Store) : Store :=
  dropCopies half i (setHalf s half (upd (fun x => ⟨x.erases + 1, 0, 0⟩) (halfOf s half) i))

/-- A recorder sector is erased, and with it its void map. -/
def eraseRecorder (i : Nat) (r : Recorder) : Recorder :=
  { r with sectors := upd (fun x => ⟨x.erases + 1, 0, 0⟩) r.sectors i, voids := r.voids.filter (fun p => p.1 != i) }

/-- The state of a sector of an area. -/
def Chip.sectorSt (c : Chip) (area : FlashArea) (i : Nat) : Nat :=
  (nth ⟨0, 0, 0⟩ (match halfAt area with | some (ident, half) => halfOf (c.storeAt ident) half | none => c.recd.sectors) i).st

/-- The erase of a sector that is erasing completes. -/
def Chip.eraseSector (c : Chip) (area : FlashArea) (i : Nat) : Chip :=
  let c := c.modDie (fun d => d.erase (sectorAddr area i))
  match halfAt area with
  | some (ident, half) => (c.modStoreAt ident (eraseStore half i)).syncStore
  | none => c.modRec (eraseRecorder i)

/-- SECTOR_ERASE_COMPLETE. -/
def execSectorEraseComplete (t : Instant) (area : FlashArea) (sector : Fin 128) (s : State) : Host.Outcome State Fault Refusal :=
  s.onChip (fun c =>
    let i := sector.val
    if c.flashSupplied then
      let d := c.doWork
      if d.sectorSt area i = 3 then ((d.at_ t).eraseSector area i).planStores.planRecorder else c
    else c)

/-! ### Reading and clearing (R361, R362) -/

/-- Up to 8 live records from a SEQ on, ascending; 0 names the oldest. -/
def Chip.recordsFrom (c : Chip) (seq : Nat) : List EvRec :=
  if seq = 0 then c.recd.live.take 8
  else (sortBy (fun (a b : EvRec) => decide (a.seq ≤ b.seq)) (c.recd.live.filter (fun r => decide (seq ≤ r.seq)))).take 8

/-- A read of the records by `w`: the service names the first SEQ, the SDO path continues after the last record it received. -/
def Chip.serveRecords (c : Chip) (w : Who) (offset : Nat) : Chip :=
  match w.path with
  | some _ =>
    let bs := (c.recordsFrom offset).flatMap recordBytes
    c.answer w.path 0 w.ctr (readBody bs.length bs)
  | none =>
    let l := c.recordsFrom (if c.dict.sdoPos = 0 then 0 else nextSeq c.dict.sdoPos)
    let bs := l.flatMap recordBytes
    (c.modDict (fun d => { d with sdoPos := match l.getLast? with
      | some r => r.seq
      | none => d.sdoPos })).answer none 0 w.ctr (readBody bs.length bs)

/-- RECORDS_READ of 0x2B00.10. -/
def execRecordsRead (m : Msg) (offset : Nat) (s : State) : Host.Outcome State Fault Refusal :=
  s.onChip (fun c =>
    if c.reach 0x2B00 then
      match (c.at_ m.t).reader m (msgBytes 0x10 (m.sid.getD 0) m.ctr 0 (readPayload 0x2B00 0x10 offset 0)) with
      | .ended c => c
      | .go c w =>
        match Chip.readCheck w 0x2B00 0x10 with
        | some code => c.refuse w code
        | none => (c.readFlash m.ecc).syncRecorder.serveRecords w offset
    else c)

/-- What a write of 0x2B00.20 does: the audit record of the clear goes ahead of every queued record; it clears when it is written. -/
def Chip.clearRecords (c : Chip) (w : Who) (v : Nat) : Except Nat Chip :=
  if c.recd.queue.length < 256 then
    let sn := c.snapshot clearCode
    let r : EvRec := ⟨c.pairAt c.now, clearCode, sevAudit, false, 12, 0, 0, sn.2, sn.1, w.org, w.csn,
      leBytes (v % 32) 1 ++ leBytes c.recd.last 4⟩
    .ok (c.modRec (fun x => { x with queue := r :: x.queue }))
  else .error abBusy

/-- RECORDER_CLEAR. -/
def execRecorderClear (a : Acc) (v : Nat) (s : State) : Host.Outcome State Fault Refusal :=
  s.onChip (fun c => c.writeNum a 0x2B00 0x20 v (fun c w => c.clearRecords w v))

end Sys2Proof.Machine
end

