-- ==== Sys2Proof/Machine/Panel.lean ====
section
/-! DEFINITION. The front panel (14): frame memory, waveform tables, sequences, balance counters, rails, keys. -/

namespace Sys2Proof.Machine

/-! ### Frame memory (R388, R394) -/

/-- Bytes of a frame memory and pixels of the glass. -/
abbrev pictureBytes : Nat := 19200
abbrev panelPixels : Nat := 76800

/-- The bytes of a buffer in row order. -/
def bufferBytes (m : NMem) : List Byte := (List.range pictureBytes).map (fun i => BitVec.ofNat 8 (NMem.get m i))
/-- CRC-32 of a buffer (R394). -/
def bufferCrc (m : NMem) : Nat := crc32 (bufferBytes m)

/-- Grey level of pixel p: pixel 0 of a row stands in bits 7:6 of its first byte. -/
def pixelOf (m : NMem) (p : Nat) : Nat := fieldOf (NMem.get m (p / 4)) (7 - 2 * (p % 4)) (6 - 2 * (p % 4))

/-- The firmware loads its copy into the target buffer, with the CRC it expects. -/
def Chip.loadTarget (c : Chip) : Chip := c.modPanel (fun p => { p with tgt := p.copy, tgtCrc := bufferCrc p.copy })

/-! ### Waveform tables (R389) -/

/-- Drive code of transition i in frame k, from 1, of a table of F frames whose codes follow its first byte. -/
def driveCode (f : Nat) (codes : List Nat) (i k : Nat) : Nat :=
  let n := i * f + k - 1
  fieldOf (nth 0 codes (n / 4)) (7 - 2 * (n % 4)) (6 - 2 * (n % 4))

/-- F and the code bytes of a table as written. -/
def tableParts (bs : List Byte) : Nat × List Nat := match bs with
  | b :: r => (b.toNat, r.map BitVec.toNat)
  | [] => (0, [])

/-- A table nets zero in every transition and holds no reserved code. -/
def tableOk (bs : List Byte) : Bool :=
  let x := tableParts bs
  (List.range 20).all (fun i =>
    let l := (List.range x.1).map (fun k => driveCode x.1 x.2 i (k + 1))
    l.all (· != 3) && (l.filter (· == 1)).length == (l.filter (· == 2)).length)

/-- What a write of a band table does: its length fits F, its waveforms are accepted, and it is stored. -/
def Chip.setTable (c : Chip) (band : Nat) (bs : List Byte) : Except Nat Chip :=
  let f := (tableParts bs).1
  if bs.length ≠ 1 + 5 * f then .error 0x06070010
  else if f = 0 ∨ 64 < f ∨ tableOk bs = false then .error abRange
  else c.stored 0x2E00 (0x20 + band) bs (fun c => c.modPanel (fun p => { p with tables := modNth [] (fun _ => bs) p.tables band }))

/-- WAVEFORM_TABLE_WRITE. -/
def execWaveformTableWrite (a : Acc) (band : Fin 8) (data : List Byte) (s : State) : Host.Outcome State Fault Refusal :=
  s.onChip (fun c => c.writeOwn a 0x2E00 (0x20 + band.val) 0 data (fun c _ => c.setTable band.val data))

/-- What a write of frame rows does: first row in 2 bytes, then rows of 80 bytes. -/
def Chip.setRows (c : Chip) (data : List Byte) : Except Nat Chip :=
  let first := beNat (data.take 2)
  let rows := data.drop 2
  if 240 < first + rows.length / 80 then .error abRange
  else .ok (c.modPanel (fun p => { p with copy := (rows.zipIdx).foldl (fun m x => NMem.set m (80 * first + x.2) x.1.toNat) p.copy }))

/-- FRAME_ROWS. -/
def execFrameRows (a : Acc) (first : Nat) (rows : List Byte) (s : State) : Host.Outcome State Fault Refusal :=
  s.onChip (fun c =>
    let data := beBytes first 2 ++ rows
    c.writeOwn a 0x2E00 0x10 0 data (fun c _ => c.setRows data))

/-! ### States (0x2E00.01) and balance counters (R393) -/

abbrev pnOff : Nat := 0
abbrev pnPowering : Nat := 1
abbrev pnIdle : Nat := 2
abbrev pnUpdating : Nat := 3
abbrev pnBalancing : Nat := 4
abbrev pnRepainting : Nat := 5
abbrev pnDischarging : Nat := 6
abbrev pnDisabled : Nat := 7

def Chip.panelState (c : Chip) : Nat := c.rd 0x2E00 0x01
/-- Enter a panel state at the present instant. -/
def Chip.setPanel (c : Chip) (st : Nat) : Chip := (c.wr 0x2E00 0x01 st).modPanel (fun p => { p with idleAt := c.now })

/-- Counter of a pixel. -/
def counterOf (l : List (Nat × Int)) (p : Nat) : Int := Sparse.get (fun _ => 0) l p
/-- Largest magnitude of the counters. -/
def counterMax (l : List (Nat × Int)) : Nat := (l.map (fun p => p.2.natAbs)).foldl max 0
/-- A counter after a drive: saturating at ±127. -/
def addDrive (z d : Int) : Int := if 127 < z + d then 127 else if z + d < -127 then -127 else z + d
/-- The drive of a code. -/
def driveOf (code : Nat) : Int := if code = 1 then 1 else if code = 2 then -1 else 0

/-- The drive of pixel p in frame k of the sequence running. -/
def panelDrive (x : Panel) (r : PanelRun) (k p : Nat) : Int :=
  let a := pixelOf x.cur p
  let b := pixelOf x.tgt p
  match r.kind with
  | .partialUpd => if a = b then 0 else driveOf (driveCode r.frames r.codes (4 * a + b) k)
  | .fullUpd => driveOf (driveCode r.frames r.codes (4 * a + b) k)
  | .repaintUpd => driveOf (driveCode r.frames r.codes (16 + b) k)
  | .balance =>
    let z := counterOf x.counters p
    if 0 < z then -1 else if z < 0 then 1 else 0

/-- One drive frame of the sequence running: every counter changes by its pixel's drive. -/
def Chip.driveOne (c : Chip) : Chip :=
  match c.panel.run with
  | some r =>
    let x := c.panel
    let l := (List.range panelPixels).filterMap (fun p =>
      let z := addDrive (counterOf x.counters p) (panelDrive x r (r.k + 1) p)
      if z = 0 then none else some (p, z))
    (c.modPanel (fun x => { x with counters := l, run := some { r with k := r.k + 1 } })).wr 0x2E00 0x06 (counterMax l)
  | none => c

/-- Whether the sequence running has frames left. -/
def framesLeft (x : Panel) : Bool := match x.run with
  | some r => (match r.kind with
    | .balance => x.counters != []
    | _ => decide (r.k < r.frames))
  | none => false

/-- Row time, rows and frame time of the panel in ns (R387): 240 rows of 80 µs and a blanking of 0.8 ms. -/
abbrev rowNs : Nat := 80000
abbrev frameNs : Nat := 240 * rowNs + 800000

/-- The end of the frame under way of the sequence running. -/
def frameEnd (x : Panel) : Instant := match x.run with
  | some r => x.idleAt + (r.k + 1) * frameNs
  | none => x.idleAt

/-- DRIVE_FRAME: the frame under way ends, one frame time after the one before. -/
def execDriveFrame (t : Instant) (s : State) : Host.Outcome State Fault Refusal :=
  s.onChip (fun c => if framesLeft c.panel = true ∧ frameEnd c.panel ≤ t then (c.at_ t).driveOne else c)

/-- A balancing sequence begins (R393). -/
def Chip.beginBalance (c : Chip) : Chip :=
  let c := ((c.setPanel pnBalancing).bump 0x2E00 0x08).event 0x0E04 sevInfo 0 0 []
  c.modPanel (fun p => { p with run := some ⟨.balance, 0, [], 0⟩, balDue := false })

/-- The panel is idle; the image of a command that waits is loaded. -/
def Chip.panelIdle (c : Chip) : Chip :=
  let c := (c.setPanel pnIdle).modPanel (fun p => { p with run := none })
  if c.panel.pending.isSome then c.loadTarget else c

/-! ### Commands (R392, R395, R396) -/

/-- The table of the band in force is written. -/
def Chip.bandTable (c : Chip) : List Byte := nth [] c.panel.tables (c.rd 0x2E00 0x03)

/-- An update command: held as the one pending command; rails that are off are switched on. -/
def Chip.requestUpdate (c : Chip) (k : PanelKind) : Except Nat Chip :=
  if c.panelState = pnDisabled ∨ c.bandTable = [] then .error abState
  else
    let c := c.modPanel (fun p => { p with pending := some k })
    .ok (if c.panelState = pnOff then (c.setPanel pnPowering).loadTarget
      else if c.panel.run.isSome then c else c.loadTarget)

/-- A sequence is abandoned (R396): the frame under way completes, the picture is unknown. -/
def Chip.abandonRun (c : Chip) : Chip :=
  match c.panel.run with
  | some r =>
    let c := if framesLeft c.panel then c.driveOne else c
    let c := c.modPanel (fun p => { p with run := none, pending := none, unknown := true, balDue := decide (96 ≤ counterMax p.counters) })
    let c := c.bump 0x2E00 0x0A
    (match r.kind with
      | .balance => c
      | _ => c.event 0x0E03 sevMinor 0 0 [])
  | none => c.modPanel (fun p => { p with pending := none })

/-- The end of the last frame of a sequence that is abandoned: the frame under way completes. -/
def abandonEnd (c : Chip) : Instant := if framesLeft c.panel then frameEnd c.panel else c.now

/-- The power-off of Table 14-2 begins, counted from an instant. -/
def Chip.powerOffAt (c : Chip) (t : Instant) (st : Nat) : Chip := (c.setPanel st).modPanel (fun p => { p with idleAt := t })

/-- The rails that are on at an instant (Table 14-2): VGL, −15 V columns, +15 V columns, VGH. `since` is the start of the powering or the end
of the last frame. -/
def railsAt (st : Nat) (since t : Instant) : Bool × Bool × Bool × Bool :=
  let d := t - since
  if st = pnPowering then (true, decide (1000000 ≤ d), decide (2000000 ≤ d), decide (3000000 ≤ d))
  else if st = pnDischarging ∨ st = pnDisabled then (decide (d < 26000000), decide (d < 21000000), decide (d < 21000000), decide (d < 20000000))
  else if st = pnOff then (false, false, false, false)
  else (true, true, true, true)

/-- Every row is selected, with every column at 0 V, from the beginning of power-off until the rows are deselected at 20 ms (Table 14-2). -/
def rowsSelected (st : Nat) (since t : Instant) : Bool := decide ((st = pnDischarging ∨ st = pnDisabled) ∧ since ≤ t ∧ t < since + 20000000)

/-- The power-off of Table 14-2 that a disabled panel went through is done. -/
def Chip.discharged (c : Chip) : Bool := decide (c.panel.idleAt + 26000000 ≤ c.now)

/-- Re-enable (R396): the panel leaves state 7 for the rest of its power-off, or for the power-up that a command asked for, or for off. -/
def Chip.reEnable (c : Chip) : Chip :=
  if c.panelState = pnDisabled then
    if c.discharged = false then c.powerOffAt c.panel.idleAt pnDischarging
    else if c.panel.pending.isSome then (c.setPanel pnPowering).loadTarget
    else c.setPanel pnOff
  else c

/-- What a panel command does (0x2E00.11). -/
def Chip.panelCommand (c : Chip) (v : Nat) : Except Nat Chip :=
  match v with
  | 1 => c.requestUpdate .partialUpd
  | 2 => c.requestUpdate .fullUpd
  | 3 => .ok (if c.panel.run.isSome then c.abandonRun.powerOffAt (abandonEnd c) pnDischarging else c.abandonRun)
  | 4 => c.requestUpdate .repaintUpd
  | 5 => .ok c.reEnable
  | _ => .error abRange

/-- A panel command from the wire, if it is the one of the row. -/
def Chip.panelWrite (c : Chip) (a : Acc) (v cmd : Nat) : Chip :=
  if v = cmd then c.writeNum a 0x2E00 0x11 v (fun c _ => c.panelCommand v) else c

def execPartialUpdate (a : Acc) (v : Nat) (s : State) : Host.Outcome State Fault Refusal := s.onChip (fun c => c.panelWrite a v 1)
def execFullUpdate (a : Acc) (v : Nat) (s : State) : Host.Outcome State Fault Refusal := s.onChip (fun c => c.panelWrite a v 2)
def execPanelAbort (a : Acc) (v : Nat) (s : State) : Host.Outcome State Fault Refusal := s.onChip (fun c => c.panelWrite a v 3)
def execRepaint (a : Acc) (v : Nat) (s : State) : Host.Outcome State Fault Refusal := s.onChip (fun c => c.panelWrite a v 4)
def execReEnable (a : Acc) (v : Nat) (s : State) : Host.Outcome State Fault Refusal := s.onChip (fun c => c.panelWrite a v 5)

/-! ### Sequences -/

/-- RAILS_IN_RANGE: 5 ms after power-up began. -/
def execRailsInRange (t : Instant) (s : State) : Host.Outcome State Fault Refusal :=
  s.onChip (fun c => if c.panelState = pnPowering ∧ c.panel.idleAt + 5000000 ≤ t then (c.at_ t).setPanel pnIdle else c)

/-- A frame memory with what came to stand in it (R394). -/
def upsetBy (l : List (Nat × Nat)) (m : NMem) : NMem := l.foldl (fun m x => if x.1 < pictureBytes then NMem.set m x.1 (x.2 % 256) else m) m

/-- UPDATE_START at a frame boundary: balancing that is due goes first; a target buffer that fails its check is loaded again; an
update of an unknown picture is a repaint (R392-R394). -/
def execUpdateStart (x : BufferCheck) (s : State) : Host.Outcome State Fault Refusal :=
  s.onChip (fun c =>
    match c.panel.pending with
    | some k =>
      if c.panelState = pnIdle then
        let c := (c.at_ x.t).modPanel (fun p => { p with tgt := upsetBy x.upset p.tgt })
        if c.panel.balDue then c.beginBalance
        else if c.bandTable = [] then c
        else if bufferCrc c.panel.tgt ≠ c.panel.tgtCrc then ((c.bump 0x2E00 0x09).event 0x0E02 sevMinor 0 0 []).loadTarget
        else
          let k := if c.panel.unknown then PanelKind.repaintUpd else k
          let x := tableParts c.bandTable
          let c := c.modPanel (fun p => { p with run := some ⟨k, x.1, x.2, 0⟩, pending := none })
          c.setPanel (if k = .repaintUpd then pnRepainting else pnUpdating)
      else c
    | none => c)

/-- UPDATE_END after F frames: the target becomes the current picture; counters of 96 or more bring a balancing sequence. -/
def execUpdateEnd (t : Instant) (s : State) : Host.Outcome State Fault Refusal :=
  s.onChip (fun c =>
    match c.panel.run with
    | some r =>
      if r.kind ≠ .balance ∧ r.frames ≤ r.k then
        let c := (c.at_ t).modPanel (fun p => { p with cur := p.tgt, curCrc := p.tgtCrc, unknown := false })
        let c := c.bump 0x2E00 0x07
        if 96 ≤ counterMax c.panel.counters then c.beginBalance else c.panelIdle
      else c
    | none => c)

/-- BALANCING_END: every counter is zero; the picture is unknown. -/
def execBalancingEnd (t : Instant) (s : State) : Host.Outcome State Fault Refusal :=
  s.onChip (fun c =>
    match c.panel.run with
    | some r =>
      if r.kind = .balance ∧ c.panel.counters = [] then
        ((c.at_ t).modPanel (fun p => { p with unknown := true })).panelIdle
      else c
    | none => c)

/-- CURRENT_BUFFER_CHECK every second while no sequence runs: on a mismatch the picture is unknown and a repaint is asked for, which a panel in
state 7 runs once it is re-enabled. -/
def execCurrentBufferCheck (x : BufferCheck) (s : State) : Host.Outcome State Fault Refusal :=
  s.onChip (fun c =>
    let c := c.modPanel (fun p => { p with cur := upsetBy x.upset p.cur })
    if c.running = true ∧ c.panel.run = none ∧ c.panel.unknown = false ∧ bufferCrc c.panel.cur ≠ c.panel.curCrc then
      let c := ((c.at_ x.t).bump 0x2E00 0x09).event 0x0E01 sevMinor 0 0 []
      let c := c.modPanel (fun p => { p with unknown := true, pending := some .repaintUpd })
      if c.panelState = pnOff then (c.setPanel pnPowering).loadTarget else c.loadTarget
    else c)

/-- IDLE_POWER_OFF (R395). -/
def execIdlePowerOff (t : Instant) (s : State) : Host.Outcome State Fault Refusal :=
  s.onChip (fun c =>
    if c.panelState = pnIdle ∧ c.panel.pending = none ∧ c.panel.idleAt + c.rd 0x2E00 0x05 * 1000000 ≤ t then
      (c.at_ t).setPanel pnDischarging
    else c)

/-- RAILS_DISCHARGED 26 ms into power-off; a command that waits powers the rails up again. -/
def execRailsDischarged (t : Instant) (s : State) : Host.Outcome State Fault Refusal :=
  s.onChip (fun c =>
    if c.panelState = pnDischarging ∧ c.panel.idleAt + 26000000 ≤ t then
      if c.panel.pending.isSome then ((c.at_ t).setPanel pnPowering).loadTarget else (c.at_ t).setPanel pnOff
    else c)

/-- RAIL_FAULT while the rails are on: what runs is abandoned and the panel is disabled; a power-off under way goes on. -/
def execRailFault (t : Instant) (s : State) : Host.Outcome State Fault Refusal :=
  s.onChip (fun c =>
    if pnPowering ≤ c.panelState ∧ c.panelState ≤ pnDischarging then
      let c := c.at_ t
      let from_ := if c.panelState = pnDischarging then c.panel.idleAt else abandonEnd c
      (c.abandonRun.powerOffAt from_ pnDisabled).event 0x0E05 sevMajor 0 0 []
    else c)

/-! ### Temperature bands (R390) -/

/-- Upper edge of bands 0 to 6 in °C (Table 14-1). -/
def bandEdges : List Nat := [0, 5, 10, 15, 25, 35, 45]

/-- One move of the band at a temperature, with 1 °C of hysteresis. -/
def bandStep (temp : Rat) (b : Nat) : Nat :=
  if b < 7 ∧ ((nth 0 bandEdges b + 1 : Nat) : Rat) ≤ temp then b + 1
  else if 0 < b ∧ temp < ((nth 0 bandEdges (b - 1) : Nat) : Rat) - 1 then b - 1
  else b

/-- The band at a temperature, from the band before. -/
def bandAt (temp : Rat) (b : Nat) : Nat := (List.range 8).foldl (fun b _ => bandStep temp b) b

/-! ### Keys (R397, R398) -/

/-- Trim mode is in force (0x2800.08). -/
def Chip.trimMode (c : Chip) : Bool := c.bit 0x2800 0x08 0

/-- What the panel shows in trim mode: the selected AI channel, its corrected current and its trims (R398). -/
def Chip.trimShown (c : Chip) : Nat × Word × Word × Word :=
  let a := c.panel.trimCh
  (a, c.rdw (0x2860 + a) 0x05, c.rdw (0x2860 + a) 0x02, c.rdw (0x2860 + a) 0x03)

/-- In trim mode the firmware draws what the panel is to show and asks for a partial update where it has changed (DESIGN CHOICE, log 150). -/
def Chip.showTrim (c : Chip) : Chip :=
  if c.trimMode then
    let v := c.trimShown
    if c.panel.trimView = some v then c
    else
      let c := c.modPanel (fun p => { p with trimView := some v, copy := upsetBy (Config.trimPicture v.1 v.2.1 v.2.2.1 v.2.2.2) [] })
      match c.requestUpdate .partialUpd with
      | .ok c => c
      | .error _ => c
  else c.modPanel (fun p => { p with trimView := none })

/-- PANEL_TEMPERATURE_READ every second: the base-die temperature, or that of the thermistor on PANEL_TS, as 0x2E00.04 selects; in trim mode the
picture follows. -/
def execPanelTemperatureRead (t : Instant) (temp : BitVec 32) (s : State) : Host.Outcome State Fault Refusal :=
  s.onChip (fun c =>
    if c.running then
      let v := if c.rd 0x2E00 0x04 = 1 then temp else BitVec.ofNat 32 (c.rd 0x2F00 0x08)
      (((c.at_ t).wr 0x2E00 0x02 v.toNat).wr 0x2E00 0x03 (bandAt (real32Rat v) (c.rd 0x2E00 0x03))).showTrim
    else c)

/-- A key pressed in trim mode (Table 14-3). -/
def Chip.trimKey (c : Chip) (t : Instant) (key : Nat) : Chip :=
  match key with
  | 0 => (c.modPanel (fun p => { p with trimCh := (p.trimCh + 1) % 8 })).showTrim
  | 1 => (c.modPanel (fun p => { p with trimCh := (p.trimCh + 7) % 8 })).showTrim
  | 2 => c.modPanel (fun p => { p with trimAct := some (1, t) })
  | 3 => c.modPanel (fun p => { p with trimAct := some (2, t) })
  | 4 => c.modPanel (fun p => { p with trimAct := some (3, t) })
  | _ => (match c.panel.trimAct with
    | some (act, t0) =>
      let c := c.modPanel (fun p => { p with trimAct := none })
      if t ≤ t0 + 5000000000 then c.beginTrim c.panel.trimCh act t 0 0 else c
    | none => c)

/-- KEY_ACCEPT: the level of KEY0-KEY5, of LOCK_N (6) or of TRIM_N (7), stable for 20 ms. -/
def execKeyAccept (t : Instant) (key : Fin 8) (pressed : Bool) (s : State) : Host.Outcome State Fault Refusal :=
  s.onChip (fun c =>
    if c.running then
      let c := (c.at_ t).setBit 0x2E00 0x0B key.val pressed
      if key.val = 6 then c.setBit 0x2500 0x04 1 pressed
      else if key.val = 7 then
        let c := c.syncTrim.showTrim
        if c.trimMode then c else c.modPanel (fun p => { p with trimAct := none })
      else if pressed && c.trimMode then c.trimKey t key.val
      else c
    else c)

/-- TRIM_ACTION_TIMEOUT: 5 s without KEY5. -/
def execTrimActionTimeout (t : Instant) (s : State) : Host.Outcome State Fault Refusal :=
  s.onChip (fun c =>
    match c.panel.trimAct with
    | some (_, t0) => if t0 + 5000000000 ≤ t then (c.at_ t).modPanel (fun p => { p with trimAct := none }) else c
    | none => c)

end Sys2Proof.Machine
end

