-- ==== Sys2Proof/Machine/Dictionary.lean ====
section
/-! DEFINITION. The two access paths of the object dictionary (11): what a write of each entry does, segments, reads, sessions, keys,
CANopen SDO, and commands forwarded to the standby (R180, R323). -/

namespace Sys2Proof.Machine

/-! ### What a write of an entry does, by owning chapter -/

/-- An owner's outcome without a reason code. -/
def owned (r : Except Nat Chip) : UpdRes := match r with
  | .ok c => .ok c
  | .error e => .error (0, e)

/-- The value written, reserved bits dropped (R3). -/
def written (ix sub : Nat) (data : List Byte) : Nat := beNat data &&& regMask ix sub

/-- An rw entry that the register file alone holds: stored, and read back at once. -/
def Chip.keepEntry (c : Chip) (ix sub : Nat) (data : List Byte) : Except Nat Chip :=
  c.stored ix sub data (fun c => c.wr ix sub (written ix sub data))

/-- Put a setting in line for the tick boundary at which it comes into force (R257, R309, R315). -/
def Chip.atTick (c : Chip) (t : Instant) (ix sub v : Nat) : Chip :=
  c.modField (fun f => { f with pendSet := f.pendSet ++ [(ix, sub, v, settingTick t)] })

/-- Key slots as a record of 0x2000.20 leaves them. -/
def keysAfter (ks : List KeySlot) (slot role kid secret : Nat) : List KeySlot :=
  modNth ⟨0, 0, 0⟩ (fun _ => if secret = 0 then ⟨0, 0, 0⟩ else ⟨kid, role, secret⟩) ks slot

/-- What a key record does (R332): slot, role, identity in 2 bytes, secret in 32. It is appended to the calibration and identity area (R344). -/
def Chip.writeKey (c : Chip) (w : Who) (data : List Byte) : Except Nat Chip :=
  let slot := beNat (data.take 1)
  let role := beNat ((data.drop 1).take 1)
  let kid := beNat ((data.drop 2).take 2)
  let secret := beNat ((data.drop 4).take 32)
  let old := nth ⟨0, 0, 0⟩ c.dict.keys slot
  let ks := keysAfter c.dict.keys slot role kid secret
  if w.path = none then .error 0x0B00000A
  else if 16 ≤ slot ∨ 3 < role ∨ kid = 0 ∨ kid = 0xFFFF then .error abRange
  else if ks.any (fun k => k.kid != 0 && k.role == 3) = false then .error abState
  else if secret ≠ 0 ∧ (c.dict.keys.zipIdx).any (fun p => p.2 != slot && p.1.kid == kid) = true then .error abState
  else if c.storeFree = false then .error abBusy
  else
    let c := c.persist kndKey 0x2000 slot (otherOrder 0x2000 0x20 data)
    let c := (c.modDict (fun d => { d with keys := ks })).endSessions (fun x => old.kid != 0 && x.kid == old.kid)
    .ok (c.eventAs c.now 0x0B02 sevAudit false 11 slot w.org w.csn (otherOrder 0x2000 0x20 data |>.take 4))

/-- Chapters 01, 02, 05, 06 and 11. -/
def Chip.effectChip (c : Chip) (w : Who) (t : Instant) (ix sub : Nat) (data : List Byte) : Except Nat Chip :=
  let v := written ix sub data
  if ix = 0x2000 then
    match sub with
    | 0x10 => .ok (c.modPower (fun p => { p with restartDue := true }))
    | 0x20 => c.writeKey w data
    | _ => .ok (c.endSessions (fun _ => true))
  else if ix = 0x2100 then
    if sub = 0x30 then c.releaseFences v else c.setWeight (sub - 0x10) v data.length
  else if ix = 0x2200 then
    .ok (c.wr 0x2200 0x05 ((List.range 16).foldl (fun x n => if v.testBit n then setFieldOf x n n 0 else x) (c.rd 0x2200 0x05)))
  else if ix = 0x2300 then c.selfTest (fieldOf v 5 0)
  else if sub = 0x20 then c.pairCommand t (fieldOf v 3 0)
  else c.keepEntry ix sub data

/-- Chapter 07. The reserved bits 3:0 of a time pair are written as zero (R3). -/
def Chip.effectUpdate (c : Chip) (t : Instant) (ix sub : Nat) (data : List Byte) : UpdRes :=
  let v := written ix sub data
  if ix = 0x2500 then
    match sub with
    | 0x01 => c.updateCommand t (fieldOf v 7 4) (fieldOf v 2 0)
    | 0x03 => owned (c.stored ix sub data (fun c => (c.wr ix sub v).setBit 0x2500 0x04 0 (v == 1)))
    | 0x05 => owned (c.keepEntry ix sub data)
    | _ => owned (c.revokeKeys v)
  else
    match sub with
    | 0x01 => c.headerEff t (ix - 0x2510) data
    | 0x02 => c.bodyEff t (ix - 0x2510) data
    | _ =>
      let p : TimePair := ⟨toWord (beNat (data.take 6)), toWord (beNat (data.drop 6) / 16 * 16)⟩
      if p.legal then owned (c.stored ix sub (beBytes p.w0.toNat 6 ++ beBytes p.w1.toNat 6) (fun c => c.wrPair ix sub p)) else .error (0, abRange)

/-- Chapters 08 and 09, without the field configuration. -/
def Chip.effectMeasure (c : Chip) (w : Who) (t : Instant) (ix sub : Nat) (data : List Byte) : Except Nat Chip :=
  let v := written ix sub data
  if ix = 0x2600 then
    if sub = 0x07 then
      .ok (c.forAll (if v.testBit 4 then List.range 16 else [v % 16]) (fun c ch => c.queueCal ch)).nextCal
    else
      let n := fieldOf v 15 8
      let c := c.modMeas (fun m => { m with named := n })
      .ok (match fieldOf v 3 0 with
        | 1 => c.triggerCapture 255
        | 2 => c.lockCapture n true
        | _ => c.lockCapture n false)
  else if ix < 0x2800 then
    let s := ix - 0x2700
    .ok ((c.modSet s (fun x => { x with resets := x.resets ||| (v % 256) })).eventAs c.now Config.resetEventCode sevAudit false 4 s
      w.org w.csn (leBytes s 1 ++ leBytes v 1))
  else if ix < 0x2840 then .ok (c.modDi (ix - 0x2810) (fun x => { x with resetDue := some (settingTick t) }))
  else if ix < 0x2860 then .ok (c.atTick t ix sub v)
  else .ok (c.beginTrim (ix - 0x2860) v t w.org w.csn)

/-- Entries of chapter 10 that wait for the next start-up: buses' modes and addresses, media (R284, R315). -/
def atStartUp (ix sub : Nat) : Bool :=
  (ix == 0x2900 && decide (sub = 0x02 ∨ sub = 0x03 ∨ (0x06 ≤ sub ∧ sub ≤ 0x0A))) || (decide (0x2910 ≤ ix ∧ ix < 0x2914) && sub == 0x01)

/-- A write would make a port without FD a time master (R307). -/
def Chip.masterWithoutFd (c : Chip) (ix sub v : Nat) : Bool :=
  if 0x2920 ≤ ix ∧ ix < 0x2924 ∧ (sub = 0x01 ∨ sub = 0x08) then
    let mode := if sub = 0x01 then v else c.latestSet ix 0x01
    let tm := if sub = 0x08 then v else c.latestSet ix 0x08
    tm.testBit 30 && !mode.testBit 2
  else false

/-- Chapter 10. -/
def Chip.effectNet (c : Chip) (t : Instant) (ix sub : Nat) (data : List Byte) : Except Nat Chip :=
  let v := written ix sub data
  if atStartUp ix sub then c.keepEntry ix sub data
  else if 0x2910 ≤ ix ∧ ix < 0x2914 ∧ sub = 0x06 then
    if c.bit ix 0x03 0 then .error abState else .ok (c.atTick t ix sub v)
  else if 0x2920 ≤ ix ∧ ix < 0x2924 ∧ sub = 0x06 then .ok (c.atTick t ix sub v)
  else if ix = 0x2A00 ∧ sub = 0x0F then
    if c.anyBusy then .error abState else .ok (c.modTb (fun b => { b with stepReq := true }))
  else if c.masterWithoutFd ix sub v then .error abState
  else c.stored ix sub data (fun c => c.atTick t ix sub v)

/-- The write shadow that the 9 bytes of 0x2A00.21 spell: year (2), month, day, hour, minute, second, sub-second (2). -/
def calSetShadow (data : List Byte) : List Nat :=
  let b (i n : Nat) : Nat := beNat ((data.drop i).take n)
  [b 7 2 % 2 ^ 15, b 6 1, b 5 1, b 4 1, b 3 1, b 2 1, b 0 2]

/-- Chapter 13, calendar (R386). A rejected setting is refused by the caller. -/
def Chip.effectCal (c : Chip) (ix sub : Nat) (data : List Byte) : Except Nat Chip :=
  let v := written ix sub data
  match sub with
  | 0x21 => (match calShadowVal (calSetShadow data) with
    | some x => .ok (c.modCal (fun k => calAccept k x))
    | none => .error abRange)
  | 0x22 => c.stored ix sub data (fun c => c.modCal (fun k => (calWday k v).1))
  | 0x24 =>
    if c.cal.shift.isSome then .error abBusy
    else
      let z := (toWord v).toInt
      .ok (c.modCal (fun k => calShiftBy k (decide (z < 0)) z.natAbs))
  | 0x25 => c.keepEntry ix sub data
  | _ => .ok (c.modCal (fun k => calClear k v))

/-- Chapters 12, 13 (watchdog) and 14. -/
def Chip.effectRest (c : Chip) (w : Who) (ix sub : Nat) (data : List Byte) : Except Nat Chip :=
  let v := written ix sub data
  if ix = 0x2B00 then
    match sub with
    | 0x0A => c.stored ix sub data (fun c => c.modDict (fun d => { d with profiles := data }))
    | 0x0B => c.stored ix sub data (fun c => c.modDict (fun d => { d with codeMap := data }))
    | _ => c.clearRecords w v
  else if ix = 0x2C00 then .ok (c.modWd (fun x => { x with ev0 := none, ev1 := none }))
  else if sub = 0x10 then c.setRows data
  else if sub = 0x11 then c.panelCommand v
  else if 0x20 ≤ sub then c.setTable (sub - 0x20) data
  else c.keepEntry ix sub data

/-- What a write of any tabulated entry does once the checks of Table 11-3 are passed; class commands and edits are queued instead. -/
def Chip.entryEffect (c : Chip) (w : Who) (t : Instant) (ix sub : Nat) (data : List Byte) : UpdRes :=
  if ix < 0x2500 then owned (c.effectChip w t ix sub data)
  else if ix < 0x2600 then c.effectUpdate t ix sub data
  else if isFieldCfg ix sub then owned (c.fieldCfg t ix sub (beNat data) data.length)
  else if ix < 0x2900 then owned (c.effectMeasure w t ix sub data)
  else if ix = 0x2A00 ∧ 0x20 ≤ sub then owned (c.effectCal ix sub data)
  else if ix < 0x2B00 then owned (c.effectNet t ix sub data)
  else owned (c.effectRest w ix sub data)

/-! ### A complete value -/

/-- The update target of an entry: that of its index, or of the command. -/
def updTarget (ix : Nat) (data : List Byte) : Nat := if ix = 0x2500 then fieldOf (beNat data) 2 0 else ix - 0x2510

/-- A calendar setting that R372 rejects: the commit sets ERR and is recorded, and the write is refused (R372, R386). -/
def Chip.refuseCal (c : Chip) (w : Who) : Chip :=
  ((c.modCal (fun k => { k with err := true, shadow := none })).calRejected true).refuse w abRange

/-- The complete value of an entry arrives from `w`: checks 2 to 9 of Table 11-3, then the owner's effect. -/
def Chip.writeEntry (c : Chip) (w : Who) (t : Instant) (ix sub : Nat) (data : List Byte) : Chip :=
  if 0x3000 ≤ ix ∧ ix < 0x4000 then
    if sub = 1 then c.writeEdit w t ix data
    else if c.declared ix then c.refuse w (if sub ≤ 5 then 0x06010002 else 0x06090011)
    else c.refuse w 0x06020000
  else
    match c.checkWrite w ix sub data.length (beNat data) with
    | .ended c => c
    | .go c w =>
      if ix = 0x2200 ∧ sub = 0x06 then c.classCommand w t (beNat data)
      else if ix = 0x2A00 ∧ sub = 0x21 ∧ (calShadowVal (calSetShadow data)).isNone = true then c.refuseCal w
      else c.concludeUpdate w ix sub (updTarget ix data) data (c.entryEffect w t ix sub data)

/-- A restart that a write asked for, after its response (R341): an active chip with a ready partner abdicates first. -/
def Chip.restartIfDue (c : Chip) : Chip :=
  if c.power.restartDue then
    ((if c.partnerReady then c.abdicateChip else c).goDown 1).modPower (fun p => { p with restartDue := false })
  else c

/-! ### Segments (R331) -/

/-- Bytes that one WRITE carries at most, and that one write holds at most. -/
abbrev segBytes : Nat := 1380
abbrev writeLimit : Nat := 8192

/-- Replace the segmented writes of a session. -/
def Chip.modSegs (c : Chip) (sid : Nat) (f : List (Nat × Nat × Nat × List Byte × Instant) → List (Nat × Nat × Nat × List Byte × Instant)) : Chip :=
  c.modDict (fun d => { d with sessions := d.sessions.map (fun x => if x.sid == sid then { x with segs := f x.segs } else x) })

/-- The bytes a session has sent of the write of an entry with a number; none where no such write is open. -/
def Chip.openWrite (c : Chip) (sid ix sub csn : Nat) : Option (List Byte) :=
  match c.session sid with
  | some x => (x.segs.find? (fun g => g.1 == ix && g.2.1 == sub && g.2.2.1 == csn)).map (·.2.2.2.1)
  | none => none

/-- Writes of a session whose next segment has not come in 5 s are discarded and answered (R331). -/
def Chip.expireSegs (c : Chip) (sid : Nat) (t : Instant) : Chip :=
  match c.session sid with
  | some x =>
    let old := x.segs.filter (fun g => decide (g.2.2.2.2 + 5000000000 ≤ t))
    if old = [] then c
    else
      let c := (c.at_ t).modSegs sid (fun l => l.filter (fun g => decide (t < g.2.2.2.2 + 5000000000)))
      old.foldl (fun c g => c.answer (some sid) g.2.2.1 0 (.abort 0x05040000)) c
  | none => c

/-- A segment arrives: it is taken at the offset that is due, and the last one completes the value. -/
def Chip.takeSegment (c : Chip) (w : Who) (t : Instant) (sid ix sub off : Nat) (last : Bool) (data : List Byte) : Chip :=
  let c := c.expireSegs sid t
  let sofar := (c.openWrite sid ix sub w.csn).getD []
  let drop (c : Chip) : Chip := c.modSegs sid (fun l => l.filter (fun g => !(g.1 == ix && g.2.1 == sub && g.2.2.1 == w.csn)))
  if off ≠ sofar.length then c.refuse w abRange
  else if writeLimit < sofar.length + data.length then (drop c).refuse w 0x05040005
  else if last then (drop c).writeEntry w t ix sub (sofar ++ data)
  else
    ((drop c).modSegs sid (fun l => l ++ [(ix, sub, w.csn, sofar ++ data, t)])).answer w.path w.csn w.ctr (.ok 0 [])

/-- WRITE (over SDO a value of `data`, least significant byte first, R2, R335): a message with the last, the only, or an earlier segment of a value. -/
def execWrite (a : Acc) (ix sub offset : Nat) (last : Bool) (data : List Byte) (s : State) : Host.Outcome State Fault Refusal :=
  s.onChip (fun c =>
    if c.reach ix = true ∧ data.length ≤ (if a.sid = none then writeLimit else segBytes) then
      match (c.at_ a.t).identify a (msgBytes 0x11 (a.sid.getD 0) a.ctr a.csn (writePayload ix sub (bit01 last) offset data)) with
      | .ended c => c
      | .go c w => (match a.sid with
        | some sid => c.takeSegment w a.t sid ix sub offset last data
        | none => c.writeEntry w a.t ix sub (otherOrder ix sub data)).restartIfDue
    else c)

/-- SEGMENT_TIMEOUT: writes of a session whose next segment has not come in 5 s are discarded and answered. -/
def execSegmentTimeout (t : Instant) (sid : Nat) (s : State) : Host.Outcome State Fault Refusal := s.onChip (fun c => c.expireSegs sid t)

/-! ### Reading -/

/-- What a read does to the state besides its answer: the change count of a record is read; the read shadows are released by the read
of CAL_YEAR (R263, R370). -/
def Chip.readMark (c : Chip) (ix sub : Nat) : Chip :=
  if 0x2810 ≤ ix ∧ ix < 0x2840 ∧ sub = 0x08 then c.modDi (ix - 0x2810) (fun x => { x with readCnt := x.changes })
  else if ix = 0x2A00 ∧ sub = 0x20 then c.modCal (fun k => { k with frozen := none, frozenAge := 0 })
  else c

/-- Why a read of an entry by `w` is refused (checks 2 to 5 of Table 11-3); none where it is not. -/
def Chip.readRefusal (c : Chip) (w : Who) (ix sub : Nat) : Option Nat :=
  if 0x3000 ≤ ix then
    if c.declared ix then (if (c.programValue ix sub).isSome then none else some 0x06090011) else some 0x06020000
  else if sub = 0 ∧ 0x2000 ≤ ix ∧ indexExists ix = true then none
  else Chip.readCheck w ix sub

/-- READ. -/
def execRead (m : Msg) (ix sub offset want : Nat) (s : State) : Host.Outcome State Fault Refusal :=
  s.onChip (fun c =>
    if c.reach ix then
      match (c.at_ m.t).reader m (msgBytes 0x10 (m.sid.getD 0) m.ctr 0 (readPayload ix sub offset want)) with
      | .ended c => c
      | .go c w =>
        match c.readRefusal w ix sub with
        | some code => c.refuse w code
        | none =>
          if ix = 0x2B00 ∧ sub = 0x10 then (c.readFlash m.ecc).syncRecorder.serveRecords w offset
          else if ix = 0x2600 ∧ sub = 0x0D then c.serveRead w offset want (fun c => (c.readFlash { m.ecc with flagged := [] }, c.namedCapture))
          else c.serveRead w offset want (fun c => (c.readMark ix sub, (c.value ix sub).getD []))
    else c)

/-! ### Sessions (R326-R329, R334) -/

/-- A session identifier: the draw, or the next that is neither 0 nor already drawn (R326). -/
def freshSid (used : List Nat) (x : Nat) : Nat :=
  let at_ (i : Nat) : Nat := (x + i) % 2 ^ 32
  match (List.range (used.length + 2)).find? (fun i => at_ i != 0 && !used.contains (at_ i)) with
  | some i => at_ i
  | none => 0

/-- The secret of a key identity. -/
def Chip.secretOf (c : Chip) (kid : Nat) : Option KeySlot := c.dict.keys.find? (fun k => k.kid != 0 && k.kid == kid)

/-- The session key of R326: HMAC over "SWXS", NC, ND, SID. -/
def sessionKey (secret nc nd sid : Nat) : Nat :=
  Config.hmac32 secret ([0x53, 0x57, 0x58, 0x53] ++ beBytes nc 16 ++ beBytes nd 16 ++ beBytes sid 4)

/-- Open sessions at most. -/
abbrev maxSessions : Nat := 8

/-- HELLO: refused while 8 sessions are open or the identity is locked out; an identity that no slot holds draws a challenge that no
OPEN answers. -/
def execHello (t : Instant) (kid nc : Nat) (s : State) : Host.Outcome State Fault Refusal :=
  s.onChip (fun c =>
    if c.answering then
      let c := c.at_ t
      if maxSessions ≤ c.dict.sessions.length then c.answer (some 0) 0 0 (.abort 0x0B000008)
      else if c.dict.lockouts.any (fun p => p.1 == kid && decide (t < p.2)) then c.answer (some 0) 0 0 (.abort 0x0B000009)
      else
        let sid := freshSid c.dict.used (Config.randomSid c.free)
        let nd := Config.randomNonce c.free % 2 ^ 128
        let key := match c.secretOf kid with
          | some k => sessionKey k.secret nc nd sid
          | none => 0
        (c.draw.modDict (fun d => { d with hellos := d.hellos ++ [⟨sid, kid, key, t⟩], used := d.used ++ [sid] })).answer (some sid) 0 0 (.challenge nd)
    else c)

/-- HELLO_STATE_EXPIRY. -/
def execHelloStateExpiry (t : Instant) (sid : Nat) (s : State) : Host.Outcome State Fault Refusal :=
  s.onChip (fun c =>
    if c.dict.hellos.any (fun h => h.sid == sid && decide (h.at_ + 2000000000 ≤ t)) then
      (c.at_ t).modDict (fun d => { d with hellos := d.hellos.filter (fun h => h.sid != sid) })
    else c)

/-- A failed opening: five of one identity within 60 s lock it out for 60 s (R334). -/
def Chip.openFailed (c : Chip) (sid ctr kid : Nat) : Chip :=
  let c := (c.bump 0x2000 0x25).answer (some sid) 0 ctr (.abort abAuth)
  let recent := (c.dict.fails ++ [(kid, c.now)]).filter (fun p => decide (c.now < p.2 + 60000000000))
  if 5 ≤ (recent.filter (fun p => p.1 == kid)).length then
    let c := c.modDict (fun d => { d with
      fails := recent.filter (fun p => p.1 != kid), lockouts := d.lockouts.filter (fun p => p.1 != kid) ++ [(kid, c.now + 60000000000)] })
    (c.bump 0x2000 0x24).eventAs c.now 0x0B03 sevAudit false 11 0 kid 0 (leBytes kid 2)
  else c.modDict (fun d => { d with fails := recent })

/-- OPEN: the MAC verifies within 2 s of the HELLO and the session opens, or the opening fails. -/
def execOpenSession (t : Instant) (sid ctr kid mac : Nat) (s : State) : Host.Outcome State Fault Refusal :=
  s.onChip (fun c =>
    if c.answering then
      let c := c.at_ t
      match c.dict.hellos.find? (fun h => h.sid == sid && decide (t ≤ h.at_ + 2000000000)), c.secretOf kid with
      | some h, some k =>
        if h.kid = kid ∧ ctr = 1 ∧ mac = Config.hmac16 h.key (msgBytes 0x03 sid ctr 0 (beBytes kid 2)) then
          if maxSessions ≤ c.dict.sessions.length then c.answer (some sid) 0 ctr (.abort 0x0B000008)
          else
            (c.modDict (fun d => { d with
              hellos := d.hellos.filter (fun x => x.sid != sid), nextNum := d.nextNum + 1,
              sessions := d.sessions ++ [⟨sid, d.nextNum, kid, k.role, h.key, 1, t, []⟩] })).answer (some sid) 0 0 (.opened k.role 60)
        else c.openFailed sid ctr kid
      | _, _ => c.openFailed sid ctr kid
    else c)

/-- LOCKOUT_EXPIRY. -/
def execLockoutExpiry (t : Instant) (kid : Nat) (s : State) : Host.Outcome State Fault Refusal :=
  s.onChip (fun c =>
    if c.dict.lockouts.any (fun p => p.1 == kid && decide (p.2 ≤ t)) then
      (c.at_ t).modDict (fun d => { d with lockouts := d.lockouts.filter (fun p => p.1 != kid) })
    else c)

/-- A message of a session without a payload, of the given type, that does `f` once accepted. -/
def Chip.bareMessage (c : Chip) (m : Msg) (typ : Nat) (f : Chip → Session → Chip) : Chip :=
  match m.sid with
  | some sid =>
    if c.answering && udpTaken m.udp then
      match (c.at_ m.t).accept sid m.ctr m.mac (msgBytes typ sid m.ctr 0 []) with
      | (c, some x) => f c x
      | (c, none) => c
    else c
  | none => c

/-- CLOSE: the session ends; it is no request and has no answer. -/
def execCloseSession (m : Msg) (s : State) : Host.Outcome State Fault Refusal :=
  s.onChip (fun c => c.bareMessage m 0x30 (fun c x => c.endSessions (fun y => y.sid == x.sid)))

/-- KEEPALIVE: an empty RESPONSE. -/
def execKeepalive (m : Msg) (s : State) : Host.Outcome State Fault Refusal :=
  s.onChip (fun c => c.bareMessage m 0x31 (fun c x => c.answer (some x.sid) 0 m.ctr (.ok 0 [])))

/-- SESSION_TIMEOUT: 60 s without an accepted message. -/
def execSessionTimeout (t : Instant) (sid : Nat) (s : State) : Host.Outcome State Fault Refusal :=
  s.onChip (fun c =>
    match c.session sid with
    | some x => if x.last + 60000000000 ≤ t then (c.at_ t).expireSession sid t else c
    | none => c)

/-! ### Keys, sessions, restart -/

/-- KEY_SLOT_WRITE. -/
def execKeySlotWrite (a : Acc) (slot role kid secret : Nat) (s : State) : Host.Outcome State Fault Refusal :=
  s.onChip (fun c =>
    let data := beBytes slot 1 ++ beBytes role 1 ++ beBytes kid 2 ++ beBytes secret 32
    c.writeOwn a 0x2000 0x20 0 data (fun c w => c.writeKey w data))

/-- CLOSE_ALL_SESSIONS: the writing session is closed with the others, after its response. -/
def execCloseAllSessions (a : Acc) (v : Nat) (s : State) : Host.Outcome State Fault Refusal :=
  s.onChip (fun c => c.writeNum a 0x2000 0x26 v (fun c _ => .ok (c.endSessions (fun _ => true))))

/-! ### CANopen SDO (R335, R336) -/

/-- The bytes that the SDO path carries of a value: UNSIGNED8 and UNSIGNED32 of the CiA 301 subset in their own length (Table 11-7). -/
def sdoBytes (ix sub : Nat) (bs : List Byte) : List Byte :=
  let l := otherOrder ix sub bs
  if ix = 0x1001 then l.take 1
  else if ix = 0x1000 ∨ ix = 0x1018 ∨ ix = 0x1200 then l.take 4
  else l

/-- Who acts on the SDO path. -/
def Chip.sdoWho (c : Chip) (csn : Nat) : Who := ⟨none, c.rd 0x2900 0x23, c.rd 0x2900 0x22, csn, 0, 0⟩

/-- An answer on the SDO path. -/
def Chip.sdoAnswer (c : Chip) (b : AnsBody) : Chip := c.answer none 0 0 b

/-- No transfer is in progress any more. -/
def Chip.sdoEnd (c : Chip) : Chip := c.modDict (fun d => { d with sdo := none })

/-- A download is complete: a fresh command sequence number, then the write. -/
def Chip.sdoWrite (c : Chip) (t : Instant) (ix sub : Nat) (bs : List Byte) : Chip :=
  let c := c.sdoEnd.modDict (fun d => { d with sdoCsn := c.nextSdoCsn })
  (c.writeEntry (c.sdoWho c.dict.sdoCsn) t ix sub (otherOrder ix sub bs)).restartIfDue

/-- An upload begins: up to 4 bytes are carried at once; a value of more than 8 192 bytes cannot be transferred (R336), which is answered by the
general error (DESIGN CHOICE, log 149). -/
def Chip.sdoRead (c : Chip) (t : Instant) (ix sub : Nat) : Chip :=
  match c.readRefusal (c.sdoWho 0) ix sub with
  | some code => c.sdoAnswer (.abort code)
  | none =>
    if writeLimit < ((c.value ix sub).getD []).length ∧ ¬ (ix = 0x2B00 ∧ sub = 0x10) then c.sdoAnswer (.abort 0x08000000)
    else
    let r := if ix = 0x2B00 ∧ sub = 0x10 then
        let l := c.recordsFrom (if c.dict.sdoPos = 0 then 0 else nextSeq c.dict.sdoPos)
        (c.modDict (fun d => { d with sdoPos := match l.getLast? with
          | some x => x.seq
          | none => d.sdoPos }), l.flatMap recordBytes)
      else (c.readMark ix sub, sdoBytes ix sub ((c.value ix sub).getD []))
    let c := r.1
    if r.2.length ≤ 4 then c.sdoAnswer (.ok r.2.length r.2)
    else (c.modDict (fun d => { d with sdo := some ⟨true, ix, sub, false, r.2, t⟩ })).sdoAnswer (.ok r.2.length [])

/-- A new initiate request aborts the transfer that runs (R336). -/
def Chip.sdoSupersede (c : Chip) : Chip := if c.dict.sdo.isSome then c.sdoEnd.sdoAnswer (.abort 0x05040001) else c

/-- A frame of the SDO client. -/
def Chip.sdoFrame (c : Chip) (t : Instant) (f : SdoFrame) : Chip :=
  match f with
  | .initDownload ix sub expedited size data =>
    let c := c.sdoSupersede
    if expedited then (if data.length ≤ 4 then c.sdoWrite t ix sub data else c.sdoAnswer (.abort 0x05040001))
    else if writeLimit < size then c.sdoAnswer (.abort 0x05040005)
    else (c.modDict (fun d => { d with sdo := some ⟨false, ix, sub, false, [], t⟩ })).sdoAnswer (.ok 0 [])
  | .initUpload ix sub => c.sdoSupersede.sdoRead t ix sub
  | .segDownload toggle last data =>
    (match c.dict.sdo with
      | some x =>
        if x.upload = true ∨ 7 < data.length then c.sdoEnd.sdoAnswer (.abort 0x05040001)
        else if toggle ≠ x.toggle then c.sdoEnd.sdoAnswer (.abort 0x05030000)
        else if writeLimit < x.bytes.length + data.length then c.sdoEnd.sdoAnswer (.abort 0x05040005)
        else if last then c.sdoWrite t x.ix x.sub (x.bytes ++ data)
        else (c.modDict (fun d => { d with sdo := some { x with toggle := !x.toggle, bytes := x.bytes ++ data, last := t } })).sdoAnswer (.ok 0 [])
      | none => c.sdoAnswer (.abort 0x05040001))
  | .segUpload toggle =>
    (match c.dict.sdo with
      | some x =>
        if x.upload = false then c.sdoEnd.sdoAnswer (.abort 0x05040001)
        else if toggle ≠ x.toggle then c.sdoEnd.sdoAnswer (.abort 0x05030000)
        else
          let rest := x.bytes.drop 7
          let c := c.modDict (fun d => { d with
            sdo := if rest = [] then none else some { x with toggle := !x.toggle, bytes := rest, last := t } })
          c.sdoAnswer (.ok (min 7 x.bytes.length) (x.bytes.take 7))
      | none => c.sdoAnswer (.abort 0x05040001))
  | .abort => c.sdoEnd
  | .invalid => c.sdoEnd.sdoAnswer (.abort 0x05040001)

/-- The CAN port that serves SDO is configured and in normal mode. -/
def Chip.sdoServed (c : Chip) : Bool :=
  c.answering && c.rd 0x2900 0x20 != 0 && c.canSends (c.rd 0x2900 0x20 - 1) && c.power.phase != .recovery

/-- A transfer without a segment for 1 000 ms is aborted (R336). -/
def Chip.sdoExpire (c : Chip) (t : Instant) : Chip :=
  match c.dict.sdo with
  | some x => if x.last + 1000000000 ≤ t then (c.at_ t).sdoEnd.sdoAnswer (.abort 0x05040000) else c
  | none => c

/-- SDO_REQUEST. -/
def execSdoRequest (t : Instant) (f : SdoFrame) (s : State) : Host.Outcome State Fault Refusal :=
  s.onChip (fun c => if c.sdoServed then ((c.sdoExpire t).at_ t).sdoFrame t f else c)

/-- SDO_TIMEOUT: 1 000 ms without a segment. -/
def execSdoTimeout (t : Instant) (s : State) : Host.Outcome State Fault Refusal := s.onChip (fun c => c.sdoExpire t)

/-! ### Commands forwarded to the standby -/

/-- Who wrote, by the identity under which the active forwards it. -/
def forwardedBy (org csn : Nat) : Who := ⟨if org < 0x10000 then some 0 else none, 3, org % 0x10000, csn, 0, 0⟩

/-- CMD: a class command is queued as the active queued it; a write has its owner's effect here too, by the instant of its acceptance,
and its number is executed. -/
def execCmd (rx : Rx) (f : FwdCmd) (s : State) : Host.Outcome State Fault Refusal :=
  s.onChip (fun c => c.onFrame rx (.cmd f) (fun c =>
    if c.pairState = psStandbyReady ∨ c.pairState = psSynchronising then
      match f with
      | .queued q => c.modRegion q.region (fun x => { x with queue := x.queue ++ [q] })
      | .more org csn data => c.modPair (fun p => { p with cmdParts := p.cmdParts ++ [(org, csn, data)] })
      | .write stamp ix sub data org csn =>
        let mine (q : Nat × Nat × List Byte) : Bool := q.1 == org && q.2.1 == csn
        let data := (c.pair.cmdParts.filter mine).flatMap (·.2.2) ++ data
        let c := c.modPair (fun p => { p with cmdParts := p.cmdParts.filter (fun q => !mine q) })
        (match c.entryEffect (forwardedBy org csn) stamp ix sub data with
          | .ok c => c.executedOn stamp org csn 0
          | .error _ => c)
    else c))

end Sys2Proof.Machine
end

