-- ==== Sys2Proof/Machine/Scraps.lean ====
section
/-! DEFINITION. Program operations and erases of the flash die that a loss of supply interrupts, and the scan at start-up (12). -/

namespace Sys2Proof.Machine

/-! ### What an interruption leaves (R351, Table 12-5) -/

/-- The cut of a copy's body or mark group; none where the mark group is whole. -/
def inCopy (x : FlashCut) : Option (Bool × Nat) := if x.step.val % 2 = 1 ∧ 8 ≤ x.done then none else some (x.step.val % 2 == 1, x.done)

/-- A record write interrupted in one of its four steps (R349, Table 12-5), and whether the record became persistent. A mark group that is
not completely programmed fails the tightened margin of R352, whatever it reads, so that its copy is absent; the record's RSN is spent. -/
def Chip.cutRecord (c : Chip) (knd ix sub : Nat) (pay : List Byte) (cut : FlashCut) : Chip × Bool :=
  let id := isIdent knd
  let n := recLen pay
  let step := cut.step.val
  if step = 3 ∧ 8 ≤ cut.done then
    match c.putRecord knd ix sub pay with
    | some d => (d, true)
    | none => (c, false)
  else if (takeSpace (c.storeAt id).halfB n).isNone then (c, false)
  else
    match c.openSpace id false n with
    | none => (c, false)
    | some (c, i, oa) =>
      let rsn := ((c.storeAt id).rsn + 1) % 2 ^ 48
      let copy (b : Bool) : List Byte := recordCopy knd ix sub rsn b pay
      if step < 2 ∧ ¬ (step = 1 ∧ 8 ≤ cut.done) then
        ((c.putCopy id false i oa (copy false) (inCopy cut)).modStoreAt id (fun s => { s with rsn := rsn }), false)
      else
        let c := ((c.putCopy id false i oa (copy false) none).addRecord id ⟨knd, ix, sub, rsn, pay, true, false, i, 0, oa, 0⟩).countRecord id
        if step = 1 then (c, true)
        else match c.openSpace id true n with
          | some (c, j, ob) => (c.putCopy id true j ob (copy true) (inCopy cut), true)
          | none => (c, true)

/-- The opening of a sector for the oldest queued record is cut in its header group 0. -/
def Chip.cutHeader (c : Chip) (ident half : Bool) (n done : Nat) : Chip :=
  let old := halfOf (c.storeAt ident) half
  match takeSpace old n with
  | some (l, i) =>
    if (nth ⟨0, 0, 0⟩ old i).st = 0 then
      let l := upd (fun s => { s with used := 0 }) l i
      let c' := (c.modStoreAt ident (fun s => setHalf s half l)).modDie (fun d => dieHeaders d (areaOf ident half) half old l (some done) c.free)
      { c' with free := c'.free + 8 }
    else c
  | none => c

/-- An event record is cut in its slot, in its first 120 bytes or in its mark group; the slot is spent. -/
def Chip.cutSlot (c : Chip) (bs : List Byte) (cut : FlashCut) : Chip :=
  match c.openSlot none with
  | some (c, i, k) =>
    let a := slotAddr i k
    let c' := c.modDie (fun d =>
      if 0 < cut.step.val then (d.program a (bs.take 120)).tear (a + 120) c.free (min cut.done 8) 8 (bs.drop 120)
      else d.tear a c.free (min cut.done 120) 120 (bs.take 120))
    { c' with free := c'.free + 128 }
  | none => c

/-- The write of the oldest queued event record is interrupted: with its mark group complete it stands, else it is absent; the SEQ it was
written with is spent (R351, R356, R361: a SEQ that was never completed stays a gap). -/
def Chip.cutEvent (c : Chip) (cut : FlashCut) : Chip :=
  match c.recd.queue with
  | r :: rest =>
    if 0 < cut.step.val ∧ 8 ≤ cut.done then c.writeEvent
    else
      let x := c.makeWay r.sev
      if x.2 then
        let seq := nextSeq x.1.recd.last
        (x.1.cutSlot (recordBytes { r with seq := seq }) cut).modRec (fun x => { x with queue := rest, last := seq })
      else c
  | [] => c

/-- The programming of the three bits that void a displaced record is cut: which of them read 0 (R345, R359). -/
def Chip.cutVoid (c : Chip) (bits : Nat) : Chip :=
  match c.recd.queue with
  | r :: _ => (match recRoom c.recd.live r.sev with
    | some (live, true) => (match displacedOf c.recd.live live with
      | some d =>
        let c' := c.modRec (fun x => voidBits x d.seq bits)
        if c'.recd.live.length < c.recd.live.length then c'.bump 0x2B00 0x06 else c'
      | none => c)
    | _ => c)
  | [] => c

/-- The write of a complete capture is cut after `done` bytes: it is stored no more; what it was to replace is erased. -/
def Chip.cutCapture (c : Chip) (done : Nat) : Chip :=
  match c.meas.capture, c.meas.lastG with
  | some x, some g =>
    if x.endsAt ≤ g then
      match makeRoom (captureSectors x) c.meas.stored.length c.meas.stored with
      | some l =>
        let secs := freeSectors l (captureSectors x)
        let bs := captureAs leBytes x
        let whole := done / 256 * 256
        let a := waveAddr (nth 0 secs (whole / sectorBytes)) + whole % sectorBytes
        let op := (bs.drop whole).take 256
        let c' := (c.modMeas (fun m => { m with capture := none, stored := l })).modDie (fun d =>
          (d.putCapture secs (bs.take whole)).tear a c.free (min (done - whole) op.length) ((op.length + 7) / 8 * 8) op)
        { c' with free := c'.free + 256 }
      | none => c
    else c
  | _, _ => c

/-- The background work is cut: its first n pieces are done, and the next one is cut. -/
def Chip.cutWork (c : Chip) (n : Nat) (cut : FlashCut) : Chip :=
  let l := c.die.work
  let c := c.doAll (l.take n)
  match l.drop n with
  | .copy area rsn :: _ => (match halfAt area with
    | some (ident, half) => (match (c.storeAt ident).recs.find? (fun r => r.rsn == rsn) with
      | some r => (c.recopy ident half r (inCopy cut)).getD c
      | none => c)
    | none => c)
  | .repair ident rsn :: _ => (match (c.storeAt ident).recs.find? (fun r => r.rsn == rsn && r.a && !r.b) with
    | some r => (c.recopy ident true r (inCopy cut)).getD c
    | none => c)
  | .slot seq :: _ => (match c.recd.live.find? (fun r => r.seq == seq) with
    | some r => if 0 < cut.step.val ∧ 8 ≤ cut.done then (c.placeRecord r).getD c else c.cutSlot (recordBytes r) cut
    | none => c)
  | .retire area i :: _ => c.retire area i (some cut.done)
  | [] => c

/-- What a loss of supply does to the program operation under way; a parameter-store record that had become persistent leaves the queue. -/
def Chip.cutWrite (c : Chip) (cut : Option (FlashWrite × FlashCut)) : Chip :=
  match cut with
  | some (.event, x) => c.cutEvent x
  | some (.void, x) => c.cutVoid x.done
  | some (.capture, x) => c.cutCapture x.done
  | some (.work n, x) => c.cutWork n x
  | some (.record, x) =>
    (match c.store.queue with
      | (knd, ix, sub, pay, _) :: _ =>
        let r := c.cutRecord knd ix sub pay x
        if r.2 then r.1.takeQueued else r.1
      | [] => c)
  | some (.header, x) =>
    (match c.store.queue with
      | (knd, _, _, pay, _) :: _ => c.cutHeader (isIdent knd) (decide (2 ≤ x.step.val)) (recLen pay) x.done
      | [] => c)
  | none => c

/-- What a loss of supply does to the sector erase that runs: it completes where PD11 stays in range for the rest of it, else the sector reads
indeterminate (R353). -/
def Chip.cutErase (c : Chip) (e : Option (FlashArea × Fin 128 × Bool)) : Chip :=
  match e with
  | some (area, i, whole) =>
    if c.sectorSt area i.val = 3 then
      if whole then c.eraseSector area i.val
      else
        let c' := c.modDie (fun d => d.spoil (sectorAddr area i.val) c.free)
        let c' : Chip := { c' with free := c'.free + sectorBytes }
        match halfAt area with
        | some (ident, half) => c'.modStoreAt ident (dropCopies half i.val)
        | none => c'
    else c
  | none => c

/-- The flash die's supply fails: the write and the erase under way are cut, the background work ends, and the event records still queued
are lost (R358). -/
def Chip.flashLost (c : Chip) (cut : Option (FlashWrite × FlashCut)) (erase : Option (FlashArea × Fin 128 × Bool)) : Chip :=
  let c := if c.flashOn then c.cutWrite cut else c
  let c := if c.flashSupplied then c.cutErase erase else c
  ((c.modRec (fun x => { x with queue := [] })).modDie (fun d => { d with work := [] })).syncRecorder

/-! ### The scan at start-up (R345, R350, R352, R353) -/

/-- A copy of a record stands in the die: its bytes do, and no error or weak mark was found in it. -/
def standsIn (d : FlashDie) (ident : Bool) (fs : List (Nat × Bool)) (r : PRec) (b : Bool) : Bool :=
  let a := recordAddr (areaOf ident b) (if b then r.sb else r.sa) (if b then r.ob else r.oa)
  copyStands (d.read a (recLen r.pay)) (d.flagsOf a (recLen r.pay)) && !fs.contains (r.rsn, b)

/-- A record with the copies of it that stand. -/
def standing (d : FlashDie) (ident : Bool) (fs : List (Nat × Bool)) (r : PRec) : PRec :=
  { r with a := r.a && standsIn d ident fs r false, b := r.b && standsIn d ident fs r true }

/-- Writing resumes in each half at the first page boundary after what does not read erased. -/
def resumeAtPage (l : List Sector) : List Sector :=
  l.map (fun s => if s.st = 1 ∧ s.used ≠ 0 then { s with used := (64 + s.used + 255) / 256 * 256 - 64 } else s)

/-- A sector as its checks find it: erased, open, full, or marked for erase (R353). -/
def scanSector (d : FlashDie) (area : FlashArea) (half : Bool) (weak : List (FlashArea × Fin 128)) (i : Nat) (s : Sector) : Sector :=
  let a := sectorAddr area i
  let g (k : Nat) : List Byte := d.read (a + 8 * k) 8
  let isWeak := weak.any (fun w => w.1 == area && w.2.val == i)
  if d.sectorBlank a then (if isWeak then { s with st := 3 } else { s with st := 0, used := 0 })
  else if d.wild.any (fun w => w.1 == a / sectorBytes) || g 2 == zeroGroup || g 0 != headerGroup half s.erases || d.flagAt a then { s with st := 3 }
  else { s with st := if g 1 == zeroGroup then 2 else 1 }
def scanSectors (d : FlashDie) (area : FlashArea) (half : Bool) (weak : List (FlashArea × Fin 128)) (l : List Sector) : List Sector :=
  (l.zipIdx).map (fun p => scanSector d area half weak p.2 p.1)

/-- What the scan finds of a store. -/
def scanned (d : FlashDie) (ident : Bool) (fs : List (Nat × Bool)) (weak : List (FlashArea × Fin 128)) (s : Store) : Store :=
  { s with
    recs := (s.recs.map (standing d ident fs)).filter (fun r => r.a || r.b),
    halfA := resumeAtPage (scanSectors d (areaOf ident false) false weak s.halfA),
    halfB := resumeAtPage (scanSectors d (areaOf ident true) true weak s.halfB) }

/-- The current records of a store of which no copy stands any more. -/
def lostIn (d : FlashDie) (ident : Bool) (fs : List (Nat × Bool)) (s : Store) : Nat :=
  (s.recs.filter (fun r => let x := standing d ident fs r; isCurrent s r && !(x.a || x.b))).length

/-- An event record stands in its slot. -/
def eventStands (d : FlashDie) (r : Recorder) (e : EvRec) : Bool := match r.place.find? (fun p => p.1 == e.seq) with
  | some p => marked [0x56, 0x45, 0x52, 0x4D] (d.read (slotAddr p.2.1 p.2.2) 128) (d.flagsOf (slotAddr p.2.1 p.2.2) 128)
  | none => false

/-- The scan, before any stored value is used: what does not stand is absent, and sectors that fail a check are marked for erase; with it the
number of current records lost. -/
def Chip.scanFlash (c : Chip) (f : FlashFinds) : Chip × Nat :=
  let d := c.die
  let lost := lostIn d false f.copies c.store + lostIn d true f.idents c.ident
  let c := (c.modStore (scanned d false f.copies f.weak)).modIdent (scanned d true f.idents f.weak)
  let c := c.modRec (fun x =>
    let keep : EvRec → Bool := fun e => eventStands d x e && !f.events.contains e.seq
    { x with
      live := x.live.filter keep, place := x.place.filter (fun p => x.live.any (fun e => e.seq == p.1 && keep e)),
      sectors := scanSectors d .recorder false f.weak x.sectors })
  (c.syncRecorder, lost)

/-- The copies that the scan writes again: those of records whose copy A stands without copy B. -/
def Chip.repairs (c : Chip) : List FlashWork :=
  (c.store.recs.filter (fun r => r.a && !r.b)).map (fun r => .repair false r.rsn) ++
    (c.ident.recs.filter (fun r => r.a && !r.b)).map (fun r => .repair true r.rsn)

/-- What the scan counts and records, and the copies it writes again; where space must be made first, a compaction begins and the copy follows
it (R350, R352). -/
def Chip.repairFlash (c : Chip) (f : FlashFinds) (lost : Nat) : Chip :=
  let c := c.bumpBy 0x2D00 0x07 f.single
  let c := c.forAll (List.range lost) (fun c _ => (c.bump 0x2D00 0x08).event 0x0C03 sevMajor 12 0 [])
  let c := (c.modDie (fun d => { d with work := c.repairs })).doWork
  c.planStores.planRecorder

end Sys2Proof.Machine
end

