-- ==== Sys2Proof/Machine/Power.lean ====
section
/-! DEFINITION. Supplies, start-up, camp mode, PD0 alone, sensors and restart (11, 15). -/

namespace Sys2Proof.Machine

/-! ### PD0 (R366, R378, R401) -/

/-- PD0 freshly powered: calendar at its start, watchdog in force with nothing enrolled, retention empty, the camp entries that it counts
and their latest instant among it (R366, R378, R401, log 84). -/
def Chip.pd0Fresh (c : Chip) : Chip :=
  let c : Chip := { c with
    cal := Calendar.reset, wd := Watchdog.reset, campRecs := [],
    regs := c.regs.filter (fun p =>
      let k := p.1 % 0x1000000
      !decide ((0x2C1004 ≤ k ∧ k < 0x2C3000) ∨ k = 0x260010 ∨ k = 0x260011)) }
  (c.modPower (fun p => { p with readySeen := false, lossAt := none, vbakAt := none, domains := p.domains ||| 1 })).modPair
    (fun p => { p with fencedBy := 0 })

/-- The source of PD0 (R401): 0 base regulators, 1 field supplies, 2 VBAK. A sentence of R254 leaves PD0 on VBAK while a field supply is present;
the order of R401 is taken (DESIGN CHOICE, log 113). -/
def pd0Source (p : Power) : Nat := if p.vin then 0 else if p.vf1 || p.vf2 then 1 else 2

/-- The source of the camp path (R254): 1 field supplies, 2 VBAK. -/
def campSource (p : Power) : Nat := if p.vf1 || p.vf2 then 1 else 2

/-- PD0_POWER_LOSS: PD0 falls below 2.0 V and its contents are lost; with it VIN, VF and camp mode are gone. -/
def execPd0PowerLoss (t : Instant) (s : State) : Host.Outcome State Fault Refusal :=
  s.onChip (fun c =>
    if c.pd0On = true ∧ c.power.vin = false then
      let c := (c.at_ t).pd0Fresh.modMeas (fun m => { m with campOn := false, campStages := Meas.reset.campStages })
      c.modPower (fun p => { p with phase := .off, domains := p.domains &&& 0x4000#16, pd0Src := 3, campSrc := 0 })
    else c)

/-- PD0_POWER_UP: PD0 is powered afresh from VF or VBAK; the calendar counts from 2000-01-01 (R366, R417). -/
def execPd0PowerUp (t : Instant) (s : State) : Host.Outcome State Fault Refusal :=
  s.onChip (fun c =>
    if c.pd0On then c
    else (c.at_ t).pd0Fresh.modPower (fun p => { p with phase := .pd0Alone, pd0Src := pd0Source p }))

/-- VF_SOURCE_CHANGE: VF1 or VF2 crosses 16 V. PD0, and with it the camp path, changes its source; the field die's logic runs from
either supply, and stops by its own reset level alone (R254, R256, R259). -/
def execVfSourceChange (t : Instant) (supply2 above16 : Bool) (s : State) : Host.Outcome State Fault Refusal :=
  s.onChip (fun c => (c.at_ t).modPower (fun p =>
    let p := if supply2 then { p with vf2 := above16 } else { p with vf1 := above16 }
    { p with
      pd0Src := if p.domains.getLsbD 0 then pd0Source p else p.pd0Src,
      campSrc := if p.domains.getLsbD 13 then campSource p else p.campSrc,
      domains := if above16 then p.domains ||| 0x4000#16 else p.domains }))

/-! ### What the flash die holds (R346, R350, R352, R220) -/

/-- The stored value of an rw entry comes into force again, from the byte order of the flash die (R2). The weekday stands in PD0 and keeps its count (log 43). -/
def Chip.restoreEntry (c : Chip) (ix sub : Nat) (pay : List Byte) : Chip :=
  let pay := otherOrder ix sub pay
  match entryOf ix sub with
  | none => c
  | some e =>
    if e.acc ≠ .rw ∨ (ix = 0x2A00 ∧ sub = 0x22) then c
    else if ix = 0x2B00 then
      c.modDict (fun d => if sub = 0x0A then { d with profiles := pay } else { d with codeMap := pay })
    else if ix = 0x2E00 ∧ 0x20 ≤ sub then c.modPanel (fun p => { p with tables := modNth [] (fun _ => pay) p.tables (sub - 0x20) })
    else if e.ty = .pair then c.wrPair ix sub ⟨toWord (beNat (pay.take 6)), toWord (beNat (pay.drop 6))⟩
    else c.wr ix sub (beNat pay &&& regMask ix sub)

/-- The accumulators and fractions of a saved record (Table 12-3). -/
def restoreSet (pay : List Byte) (x : MSet) : MSet :=
  { x with
    acc := (List.range 8).map (fun i => (BitVec.ofNat 96 (leNat ((pay.drop (12 * i)).take 12))).toInt),
    frac := (List.range 8).map (fun i => leNat ((pay.drop (96 + 4 * i)).take 4)) }

/-- One record of the parameter store, oldest first, so that the current one of each key prevails (R350). -/
def Chip.restoreRecord (c : Chip) (r : Nat × Nat × Nat × List Byte) : Chip :=
  match r.1 with
  | 1 => c.restoreEntry r.2.1 r.2.2.1 r.2.2.2
  | 3 => c.modSet (r.2.1 - 0x2700) (restoreSet r.2.2.2)
  | 5 => c.wr (0x2510 + r.2.1) 0x09 (leNat r.2.2.2)
  | 6 => c.wr 0x2A00 0x0D (leNat r.2.2.2)
  | _ => c

/-- A record of the calibration and identity area comes into force: a key slot, or revocations (R207, R332, R344). -/
def Chip.restoreIdent (c : Chip) (r : PRec) : Chip :=
  if r.knd = kndKey then
    let data := otherOrder 0x2000 0x20 r.pay
    let n (i k : Nat) : Nat := beNat ((data.drop i).take k)
    c.modDict (fun d => { d with keys := keysAfter d.keys r.sub (n 1 1) (n 2 2) (n 4 32) })
  else c.wr 0x2500 0x0B (c.rd 0x2500 0x0B ||| leNat r.pay)

/-- Bring the stored values into force: settings that the field die holds give way to the stored ones; a pair publication address with
no record is the own address (R288, R346). -/
def Chip.restoreStore (c : Chip) : Chip :=
  let c : Chip := { c with regs := c.regs.filter (fun p => !isFieldCfg (p.1 % 0x1000000 / 256) (p.1 % 256)) }
  let c := (c.wr 0x2900 0x06 Config.ownStation).wr 0x2900 0x07 Config.ownProcess
  let c := c.storeSeq.foldl Chip.restoreRecord c
  (sortBy (fun (a b : PRec) => decide (a.rsn ≤ b.rsn)) c.ident.recs).foldl Chip.restoreIdent c

/-- The bank of target t in force at start-up: the one stored, or the one before it where the trial flag is set, which records a failed
trial (R220). -/
def Chip.selectBank (c : Chip) (t : Nat) : Chip :=
  let sel := match storeCurrent c.store 4 t 0 with
    | some r => (beNat (r.pay.take 1), beNat (r.pay.drop 1))
    | none => (0, 0)
  let c := if c.bankOf t ≠ sel.1 then c.swapBanks t false else c.setBit (0x2510 + t) 0x06 5 false
  if sel.2 = 1 then (c.flipBank t false c.now).event 0x0705 sevMajor 11 t [] else c

/-- The firmware that boots: the bank that verified; a device that was never updated runs the firmware it was delivered with. -/
def Chip.bootFirmware (c : Chip) (b : Nat) : Chip :=
  let c := if c.bankOf 4 ≠ b then c.swapBanks 4 false else c
  if c.rd 0x2514 0x07 = 0 then (c.wr 0x2514 0x07 Config.firmwareVersion).setBankState 4 b 3 else c

/-! ### Step 8: weights, images, time (R21, R412) -/

/-- The instant of station time that the calendar shows, by the UTC offset in force (R412). -/
def Chip.calendarTime (c : Chip) : Instant :=
  (((calCounts c.cal.now * 1000000000 / 32768 : Nat) : Int) + ((c.rdw 0x2A00 0x0D).toInt + 946684800) * 1000000000).toNat

/-- The default weights, by port (Table 01-3). -/
def defaultWeights : List Nat := [6, 6, 6, 6, 6, 5, 8, 12, 1, 3, 2, 2, 1]

/-- The minimums of Table 01-3 that apply, by port. -/
def Chip.weightMinimums (c : Chip) : List Nat :=
  let region (r : Nat) : Nat := match (c.region r).image with
    | some im => if im.classes = [] then 0 else 2
    | none => 0
  [region 0, region 1, region 2, region 3, if c.meas.image.isSome then 4 else 0, 2, if c.rd 0x2900 0x01 ≠ 0 then 4 else 0,
   if c.pair.inForce then 8 else 0, if (List.range 4).any (fun k => c.fld (0x2920 + k) 0x01 1 0 != 0) then 1 else 0, 1, 2, 2, 1]

/-- The weights of this run: those stored, or the defaults where one is below its minimum (R21). -/
def Chip.chooseWeights (c : Chip) : Chip :=
  let l := (List.range 13).map (fun p => c.rd 0x2100 (0x10 + p))
  if (List.range 13).all (fun p => decide (nth 0 c.weightMinimums p ≤ nth 0 l p)) then c.modPower (fun x => { x with weights := l })
  else ((c.modPower (fun x => { x with weights := defaultWeights })).event 0x0101 sevMajor 0 0 []).setBit 0x2100 0x04 0 true

/-- The image of region r is loaded and checked (Table 02-6); one that fails is not loaded, and a fenced region loads none. A class that has a
work without silicon enters state 6 (R163, R167). -/
def Chip.loadRegion (c : Chip) (r : Nat) : Chip :=
  match (c.target r).app with
  | some im =>
    if c.bit 0x2100 0x02 (8 + r) then c
    else
      let row := c.appCheck r im
      if row ≠ 0 then c.event 0x0202 sevMajor 11 r (beBytes row 1)
      else im.classes.foldl (fun c g => c.stopLost g.num) (c.installImage r (some im) [])
  | none => c

/-- The measurement configuration in force is loaded. -/
def Chip.loadMeas (c : Chip) : Chip := match (c.target 5).meas with
  | some im => if measOk im then c.installMeas (some im) else c
  | none => c

/-! ### Steps 4 to 7: domains, self-test, dies, ports -/

/-- The domains that a start-up switches on (R403, Table 15-2). -/
def Chip.startDomains (c : Chip) : BitVec 16 :=
  let on (d : Nat) (b : Bool) : BitVec 16 := if b then 1#16 <<< d else 0
  let region (r : Nat) : Bool := (c.target r).app.isSome || (c.target r).prevApp.isSome
  (c.power.domains &&& 0x6001#16) ||| 0x9886#16 ||| on 3 (region 0) ||| on 4 (region 1) ||| on 5 (region 2) ||| on 6 (region 3) |||
    on 8 (c.rd 0x2900 0x01 != 0) ||| on 9 (c.rd 0x2400 0x01 == 1) |||
    on 10 ((List.range 4).any (fun k => c.fld (0x2920 + k) 0x01 1 0 != 0))

/-- A silicon that failed its start-up self-test is fenced; the relief serves the work of the first of its region (R167). A relief that
failed too serves no work, in whatever order the two are found (DEDUCED, log 108). The fault found is counted and recorded (R26), its
source free. -/
def Chip.failSilicon (c : Chip) (sil : Nat) : Chip :=
  let r := regOf sil
  let unit := c.testUnit sil .ownPosition
  let c := c.draw.engineFound sil (Config.faultSource c.free % 5)
  let c := (((c.setBit 0x2100 0x01 sil true).setBit 0x2300 0x31 sil true).event 0x0503 sevMajor 1 unit [])
  if 32 ≤ sil then
    let c := match c.workOf sil with
      | some e => c.setServed e 15
      | none => c
    c.setReliefState r 4
  else if c.reliefState r = 0 then ((c.setServed sil 8).setReliefSil r 15).setReliefState r 4
  else c.setServed sil 15

/-- The media of the copper ports: a port that a SerDes port replaces; two ports that name one SerDes port keep their copper (R284,
DEDUCED, log 44). -/
def Chip.chooseMedia (c : Chip) : Chip :=
  let m (p : Nat) : Nat := c.fld (0x2910 + p) 0x01 3 0
  let clash (p : Nat) : Bool := m p != 0 && (List.range 4).any (fun q => q != p && m q == m p)
  let used := (List.range 4).foldl (fun x p => if m p ≠ 0 ∧ clash p = false then setFieldOf x p p 1 else x) 0
  let c := c.modNet (fun n => { n with
    replaced := used, serdes := (List.range 4).map (fun p => if used.testBit p then m p else 0) })
  if (List.range 4).any clash then c.event 0x0A02 sevMajor 7 0 [] else c

/-- What of the networks comes into force at a start-up (R284-R288); every copper port measures its cable (R311), and each CAN port its
own loop delay, whose value is free. -/
def Chip.startNet (c : Chip) : Chip :=
  let c := c.modNet (fun n => { n with
    stAlone := c.rd 0x2900 0x02 == 1, prOff := c.rd 0x2900 0x03 == 1, pubS := c.rd 0x2900 0x06, pubP := c.rd 0x2900 0x07,
    ip := (c.rd 0x2900 0x08, c.rd 0x2900 0x09, c.rd 0x2900 0x0A),
    eth := n.eth.map (fun e => { e with testing := true }) })
  let c := c.forAll (List.range 4) (fun c k => (c.wr (0x2920 + k) 0x11 ((Config.freeWord c.free).toNat % 1001)).draw)
  c.chooseMedia

/-- The field die is found, and the core reads its state; or it is fenced as not discovered. The dies are discovered more than 2 ms after
power-up (Table 15-5), so that a die that has run through it has applied its fail actions (R280, R341). -/
def Chip.startField (c : Chip) (found : Bool) : Chip :=
  if found then
    let c := c.modPower (fun p => { p with domains := if c.field.inReset then p.domains else p.domains ||| 0x4000#16 })
    let c := if c.fieldAlive && !c.field.failing then c.failOutputs else c
    let c := (c.modField (fun f => { f with
      ai := f.ai.map (fun x => { x with trim := none }), dos := f.dos.map (fun x => { x with lastDisp := none }),
      ao := f.ao.map (fun x => { x with lastDisp := none }) })).openField c.now
    (c.modField (fun f => { f with discAt := c.now, deliver := allOutputs })).syncTrim
  else c.portFault 0 .link

/-- The sense die is found, or fenced. -/
def Chip.startSense (c : Chip) (found : Bool) : Chip := if found then c else c.portFault 1 .link

/-- The Onbex link trained: its lanes and round trip (R174, Table 15-5). -/
def Chip.startOnbex (c : Chip) (o : Option Nat) : Chip :=
  match c.pair.inForce, o with
  | true, some rt => ((c.setFld 0x2400 0x0A 7 4 0xF).setBit 0x2400 0x0A 0 true).wr 0x2400 0x0B (min rt 8000)
  | _, _ => c

/-- 115 °C, 2.6 V and 2.7 V: the highest REAL32 below 2.6 and the lowest not below 2.7. -/
def real115 : BitVec 32 := 0x42E60000
def realBelow26 : BitVec 32 := 0x40266666
def realFrom27 : BitVec 32 := 0x402CCCCD

/-- VBAK as measured: the low flag with its event at start and end (R342). -/
def Chip.takeVbak (c : Chip) (v : BitVec 32) : Chip :=
  let c := c.wr 0x2F00 0x04 v.toNat
  if c.rd 0x2F00 0x05 = 0 ∧ real32Le v realBelow26 = true then (c.wr 0x2F00 0x05 1).event 0x0F01 sevMinor 0 0 []
  else if c.rd 0x2F00 0x05 = 1 ∧ real32Le realFrom27 v = true then (c.wr 0x2F00 0x05 0).eventEnd 0x0F01 sevMinor 0 0
  else c

/-- Step 7: the supplies as measured, and the loads of the outputs in their off state, where a field supply feeds them (Table 15-5,
R270). -/
def Chip.measureSurroundings (c : Chip) (f : StartUp) : Chip :=
  let c := ((c.wr 0x2F00 0x01 f.vin.toNat).wr 0x2F00 0x02 f.vf1.toNat).wr 0x2F00 0x03 f.vf2.toNat
  (c.takeVbak f.vbak).forAll (f.opens.map (·.val)) (fun c n =>
    if c.fieldAlive && !c.masked (doSupply n) && !(c.doc n).applied && !(c.rd (0x2840 + n) 0x05 == 1) then c.diagDo n stOPN 0x0912 sevMinor else c)

/-! ### The sequence (R410-R412) -/

/-- READY (R340), with what a start-up records: the VIN loss and VBAK cut-off kept in PD0, a factory key still in use. -/
def Chip.raiseReady (c : Chip) (cause : Nat) (f : StartUp) : Chip :=
  let c := ((((c.wr 0x2000 0x05 1).wr 0x2000 0x08 (f.ready / 1000000)).bump 0x2000 0x09).wr 0x2000 0x0A cause)
  let c := match c.power.lossAt with
    | some t => c.eventAs t 0x0F03 sevMinor false 0 0 0 0 []
    | none => c
  let c := match c.power.vbakAt with
    | some t => c.eventAs t 0x0F02 sevMinor false 0 0 0 0 []
    | none => c
  let c := if c.factoryKey then c.event 0x0B01 sevMinor 11 0 [] else c
  let c := c.modPower (fun p => { p with
    phase := .ready, readyN := false, readySeen := true, lossAt := none, vbakAt := none, restartCause := 0 })
  let c := c.modDict (fun d => { d with readyAt := some c.now, mssUp := true })
  let c := (c.modMeas (fun m => { m with savedAt := c.now })).modPanel (fun p => { p with idleAt := c.now })
  let c := (c.setBit 0x2500 0x04 0 (c.rd 0x2500 0x03 == 1)).setBit 0x2500 0x04 1 (c.bit 0x2E00 0x0B 6)
  c.syncStore.syncRecorder

/-- A chip that abdicated joins again only where every region and both dies pass start-up (Table 06-5). -/
def passesStart (f : StartUp) : Bool := f.regionFail.isEmpty && f.fieldFound && f.senseFound

/-- At READY a chip of a pair enters JOINING, or stays FENCED. -/
def Chip.joinPair (c : Chip) (f : StartUp) : Chip :=
  if c.pair.inForce then
    if c.pair.fencedBy = 11 ∧ passesStart f = false then c.setPair psFenced 11
    else (c.modPair (fun p => { p with fencedBy := 0 })).setPair psJoining 0
  else c

/-- Steps 3 to 9 with firmware bank b. -/
def Chip.bringUp (c : Chip) (cause b : Nat) (f : StartUp) : Chip :=
  let x := c.scanFlash f.flash
  let c := x.1.restoreStore
  let c := (c.at_ c.calendarTime).repairFlash f.flash x.2
  let c := (c.forAll (List.range 6) (fun c t => c.selectBank t)).bootFirmware b
  let c := c.modPower (fun p => { p with domains := c.startDomains })
  let c := c.modPair (fun p => { p with inForce := c.rd 0x2400 0x01 == 1 })
  let c := c.startNet
  let c := f.selfTestFail.foldl (fun c sil => c.failSilicon sil.val) c
  let c := f.regionFail.foldl (fun c r => c.regionFault r.val) c
  let c := ((c.startField f.fieldFound).startSense f.senseFound).measureSurroundings f |>.startOnbex f.onbex
  let c := ((List.range 4).foldl Chip.loadRegion c).loadMeas
  ((c.chooseWeights).raiseReady cause f).joinPair f

/-- VIN is gone, what the flash die still does is done, and the domains go off: camp mode follows where READY has been raised since PD0 was
powered, PD0 alone otherwise (R413, R414, R417). -/
def Chip.loseVin (c : Chip) (t : Instant) : Chip :=
  let p := c.pairAt t
  let seen := c.power.readySeen
  let c := c.cold.modPower (fun x => { x with vin := false, stopAt := none, domains := x.domains &&& 0x4001#16 })
  let c := c.modPower (fun x => { x with pd0Src := pd0Source x })
  if seen then
    let c := c.modPower (fun x => { x with phase := .camp, lossAt := some t, domains := x.domains ||| 0x2000#16, campSrc := campSource x })
    let c := c.modMeas (fun m => { m with campOn := true, campStages := Meas.reset.campStages, campRel := c.cal.relation })
    (c.bump 0x2600 0x10).wrPair 0x2600 0x11 p
  else (c.modPower (fun x => { x with phase := .pd0Alone })).modMeas (fun m => { m with campOn := false })

/-- VIN fails in the scan of step 4: n copies have been written again and the next one is cut (R351, R352). -/
def Chip.failInScan (c : Chip) (n : Nat) (cut : FlashCut) (f : FlashFinds) : Chip :=
  let c := (c.scanFlash f).1
  let c := (c.modDie (fun d => { d with work := c.repairs })).cutWork n cut
  (c.modRec (fun x => { x with queue := [] })).loseVin c.now

/-- Start-up with a cause of 0x2000.0A, from power-up to its end (Tables 15-5 and 15-6). The strap is read at power-up alone (R171). -/
def Chip.startUp (c : Chip) (t : Instant) (cause : Nat) (f : StartUp) : Chip :=
  let c := if c.pd0On then c.at_ t else (c.at_ t).pd0Fresh
  let c := ((c.wrPair 0x2400 0x11 ⟨0, 0⟩).wr 0x2400 0x12 0).modPair (fun p => { p with store := [], lsnOut := 0 })
  let c := c.modPower (fun p => { p with vin := true, pd0Src := 0, restartCause := cause, stopAt := none, domains := p.domains ||| 2#16 })
  if f.testMode then c.modPower (fun p => { p with phase := .factoryTest })
  else if f.monitorTrip then (c.modPower (fun p => { p with phase := .stopped, stopAt := some t })).bump 0x2F00 0x0A
  else
    let c := if cause = 0 ∨ cause = 4 then (c.modPair (fun p => { p with sideB := f.sideB })).wr 0x2400 0x02 (bit01 f.sideB) else c
    let c := c.romEnrol
    match f.fwBank with
    | none => c.modPower (fun p => { p with phase := .recovery, domains := p.domains ||| 0x0904#16 })
    | some b => (match f.flash.cut with
      | some (n, cut) => c.failInScan n cut f.flash
      | none => c.bringUp cause b.val f)

/-- POWER_UP: VIN reaches 8.8 V on a chip that is off or on PD0 alone. -/
def execPowerUp (t : Instant) (f : StartUp) (s : State) : Host.Outcome State Fault Refusal :=
  s.onChip (fun c => if c.power.phase = .off ∨ c.power.phase = .pd0Alone then c.startUp t 0 f else c)

/-- START_UP_RETRY: 1 s after a domain monitor stopped start-up, or as the chip restarts by itself; a chip that has abdicated for a
fault restarts too (Table 06-5). -/
def execStartUpRetry (t : Instant) (f : StartUp) (s : State) : Host.Outcome State Fault Refusal :=
  s.onChip (fun c =>
    if c.power.phase = .stopped then
      match c.power.stopAt with
      | some t0 => if t0 + 1000000000 ≤ t then c.startUp t c.power.restartCause f else c
      | none => c.startUp t c.power.restartCause f
    else if c.running = true ∧ c.pairState = psFenced ∧ c.pair.fencedBy = 11 ∧ c.power.restartCause = 2 then
      (c.goDown 2).startUp t 2 f
    else c)

/-- VIN_RETURN: VIN is qualified in camp mode, and a start-up with cause 4 follows (R415). -/
def execVinReturn (t : Instant) (f : StartUp) (s : State) : Host.Outcome State Fault Refusal :=
  s.onChip (fun c => if c.power.phase = .camp then c.startUp t 4 f else c)

/-! ### Supply monitors (R402) -/

/-- SUPPLY_MONITOR_TRIP of domain `pd` (Table 15-2): a die fault. PD1 and PD2 hold the base die and the MSS; a core domain of a chip
whose partner can take over is a chip fault (log 34). The flash die's supply
interrupts the write under way (R351, R358). PD0 and PD15 have no fence. -/
def execSupplyMonitorTrip (x : TripCut) (pd : Fin 16) (s : State) : Host.Outcome State Fault Refusal :=
  s.onChip (fun c =>
    if c.running then
      let c := if 2 ≤ pd.val ∧ pd.val ≤ 10 then (c.at_ x.t).bump 0x2F00 0x0A else c.at_ x.t
      match pd.val with
      | 1 => c.coreFault 1
      | 2 => c.coreFault 0
      | 3 | 4 | 5 | 6 =>
        if c.canAbdicate then c.coreFault 0
        else
          let c := (c.bump 0x2100 0x05).event 0x0113 sevMajor 0 0 []
          if c.bit 0x2100 0x02 (8 + (pd.val - 3)) then c else c.fenceRegion (pd.val - 3)
      | 7 => if c.canAbdicate then c.coreFault 0 else c.portsFault 0 .supply [15]
      | 8 => if c.canAbdicate then c.coreFault 0 else c.portsFault 0 .supply etherBits
      | 9 => c.portsFault 0 .supply [14]
      | 10 => if c.canAbdicate then c.coreFault 0 else c.portsFault 0 .supply canBits
      | 11 => (c.flashLost x.cut x.erase).portFault 2 .supply
      | 12 | 13 => c.portFault 1 .supply
      | 14 => c.portFault 0 .supply
      | _ => (c.bump 0x2100 0x05).event 0x0113 sevMajor 0 0 []
    else c)

/-! ### Loss of VIN (R413-R417) -/

/-- The record of set s (Table 12-3). -/
def Chip.accRecord (c : Chip) (s : Nat) : List Byte := (c.mset s).acc.flatMap accBytes ++ (c.mset s).frac.flatMap (fun f => leBytes f 4)

/-- The accumulators as both copies of their records take them at camp entry, ahead of every queued record (R349); a VIN that falls below
5.0 V cuts the save in one set, and those after it are not begun (R413). -/
def Chip.saveNow (c : Chip) (save : Option (Fin 8 × FlashCut)) : Chip :=
  c.forAll (List.range 8) (fun c s =>
    match save with
    | none => (c.putRecord 3 (0x2700 + s) 0 (c.accRecord s)).getD c
    | some (k, cut) =>
      if s < k.val then (c.putRecord 3 (0x2700 + s) 0 (c.accRecord s)).getD c
      else if s = k.val then (c.cutRecord 3 (0x2700 + s) 0 (c.accRecord s) cut).1
      else c)

/-- VIN_LOSS: an active chip with a ready partner abdicates; the program operation and the erase under way complete or are cut (R351, R353,
R414); the accumulators are saved and the domains go off. -/
def execVinLoss (v : VinCut) (s : State) : Host.Outcome State Fault Refusal :=
  s.onChip (fun c =>
    if c.power.vin then
      let c := c.at_ v.t
      let c := if c.partnerReady then c.abdicateChip else c
      let c := if c.flashOn then (c.cutWrite v.cut).saveNow v.save else c
      let c := if c.flashSupplied then c.cutErase v.erase else c
      c.loseVin v.t
    else c)

/-- VBAK_LOW_IN_CAMP: with VF absent the camp path ends, and PD0 alone remains (R416). -/
def execVbakLowInCamp (t : Instant) (s : State) : Host.Outcome State Fault Refusal :=
  s.onChip (fun c =>
    if c.power.phase = .camp ∧ c.power.vf1 = false ∧ c.power.vf2 = false then
      let c := (c.at_ t).modMeas (fun m => { m with campOn := false, campStages := Meas.reset.campStages })
      c.modPower (fun p => { p with phase := .pd0Alone, vbakAt := some t, domains := p.domains &&& 0xDFFF#16, campSrc := 0 })
    else c)

/-! ### Sensors (R342, Table 11-11; 16) -/

/-- SENSOR_REFRESH: a crossing of 115 °C by the core is recorded once. -/
def execSensorRefresh (t : Instant) (vin vf1 vf2 power core base field : BitVec 32) (s : State) :
    Host.Outcome State Fault Refusal :=
  s.onChip (fun c =>
    if c.running then
      let c := (((c.at_ t).wr 0x2F00 0x01 vin.toNat).wr 0x2F00 0x02 vf1.toNat).wr 0x2F00 0x03 vf2.toNat
      let c := (((c.wr 0x2F00 0x06 power.toNat).wr 0x2F00 0x07 core.toNat).wr 0x2F00 0x08 base.toNat).wr 0x2F00 0x09 field.toNat
      let c := if real32Lt (BitVec.ofNat 32 (c.rd 0x2F00 0x0B)) core then c.wr 0x2F00 0x0B core.toNat else c
      let hot := real32Lt real115 core
      let c := if hot && !c.power.overTemp then c.event 0x0F04 sevMajor 0 0 [] else c
      c.modPower (fun p => { p with overTemp := hot })
    else c)

/-- VBAK_MEASUREMENT under the 1 mA load: the low flag with its event at start and end. -/
def execVbakMeasurement (t : Instant) (v : BitVec 32) (s : State) : Host.Outcome State Fault Refusal :=
  s.onChip (fun c =>
    if c.running then
      (c.at_ t).takeVbak v
    else c)

/-! ### Restart (R341) -/

/-- RESTART: the write is answered, an active chip with a ready partner abdicates, and the chip starts up with cause 1. -/
def execRestart (a : Acc) (v : Nat) (f : StartUp) (s : State) : Host.Outcome State Fault Refusal :=
  s.onChip (fun c =>
    let c := c.writeNum a 0x2000 0x10 v (fun c _ => .ok (c.modPower (fun p => { p with restartDue := true })))
    if c.power.restartDue then (c.restartIfDue).startUp a.t 1 f else c)

end Sys2Proof.Machine
end

