-- ==== Sys2Proof/Machine/Dispatch.lean ====
section
/-! DEFINITION. One arm per command: what it does to everything but the queue. -/

namespace Sys2Proof.Machine

/-- The effect of a command on the state whose queue holds the commands behind it. -/
def exec (i : Instr) (s : State) : Host.Outcome State Fault Refusal :=
  match i with
  | .powerUp t f => Sys2Proof.Machine.execPowerUp t f s
  | .startUpRetry t f => Sys2Proof.Machine.execStartUpRetry t f s
  | .vinLoss x => Sys2Proof.Machine.execVinLoss x s
  | .vinReturn t f => Sys2Proof.Machine.execVinReturn t f s
  | .vbakLowInCamp t => Sys2Proof.Machine.execVbakLowInCamp t s
  | .clockFault t k port => Sys2Proof.Machine.execClockFault t k port s
  | .supplyMonitorTrip x pd => Sys2Proof.Machine.execSupplyMonitorTrip x pd s
  | .sensorRefresh t vin vf1 vf2 power core base field => Sys2Proof.Machine.execSensorRefresh t vin vf1 vf2 power core base field s
  | .vbakMeasurement t v => Sys2Proof.Machine.execVbakMeasurement t v s
  | .scrub t at_ e => Sys2Proof.Machine.execScrub t at_ e s
  | .hardwareFault t f => Sys2Proof.Machine.execHardwareFault t f s
  | .reliefAttach t r => Sys2Proof.Machine.execReliefAttach t r s
  | .selfTestComplete t sil pass => Sys2Proof.Machine.execSelfTestComplete t sil pass s
  | .idleSelfTest t sil pass => Sys2Proof.Machine.execIdleSelfTest t sil pass s
  | .selfTestRequest a v => Sys2Proof.Machine.execSelfTestRequest a v s
  | .plannedSwapPrepare t r => Sys2Proof.Machine.execPlannedSwapPrepare t r s
  | .programFaultHoldExpiry t cls => Sys2Proof.Machine.execProgramFaultHoldExpiry t cls s
  | .fenceRelease a v => Sys2Proof.Machine.execFenceRelease a v s
  | .fenceEnd t p => Sys2Proof.Machine.execFenceEnd t p s
  | .fabricWeightWrite a port v => Sys2Proof.Machine.execFabricWeightWrite a port v s
  | .dieLinkLoss t d => Sys2Proof.Machine.execDieLinkLoss t d s
  | .dieLinkRegained t d => Sys2Proof.Machine.execDieLinkRegained t d s
  | .tickBoundary t => Sys2Proof.Machine.execTickBoundary t s
  | .muster t => Sys2Proof.Machine.execMuster t s
  | .itemArrival t k => Sys2Proof.Machine.execItemArrival t k s
  | .cycleSeal t cls => Sys2Proof.Machine.execCycleSeal t cls s
  | .dispatch t cls => Sys2Proof.Machine.execDispatch t cls s
  | .scheduledWriteApply t => Sys2Proof.Machine.execScheduledWriteApply t s
  | .stop a v => Sys2Proof.Machine.execStop a v s
  | .startOrRestart a v => Sys2Proof.Machine.execStartOrRestart a v s
  | .overrunWarningClear a v => Sys2Proof.Machine.execOverrunWarningClear a v s
  | .nop e last => Sys2Proof.Machine.execNop e last s
  | .illegalOpcode e last slot w => Sys2Proof.Machine.execIllegalOpcode e last slot w s
  | .ldBa o b => Sys2Proof.Machine.execLdBa o b s
  | .ldnBa o b => Sys2Proof.Machine.execLdnBa o b s
  | .andBa o b => Sys2Proof.Machine.execAndBa o b s
  | .andnBa o b => Sys2Proof.Machine.execAndnBa o b s
  | .orBa o b => Sys2Proof.Machine.execOrBa o b s
  | .ornBa o b => Sys2Proof.Machine.execOrnBa o b s
  | .xorBa o b => Sys2Proof.Machine.execXorBa o b s
  | .outBit o b => Sys2Proof.Machine.execOutBit o b s
  | .outnBit o b => Sys2Proof.Machine.execOutnBit o b s
  | .setBit o b => Sys2Proof.Machine.execSetBit o b s
  | .rstBit o b => Sys2Proof.Machine.execRstBit o b s
  | .push o => Sys2Proof.Machine.execPush o s
  | .popa o => Sys2Proof.Machine.execPopa o s
  | .popo o => Sys2Proof.Machine.execPopo o s
  | .notba o => Sys2Proof.Machine.execNotba o s
  | .red o w b => Sys2Proof.Machine.execRed o w b s
  | .fed o w b => Sys2Proof.Machine.execFed o w b s
  | .ba2p o d => Sys2Proof.Machine.execBa2p o d s
  | .p2ba o a => Sys2Proof.Machine.execP2ba o a s
  | .andp o a => Sys2Proof.Machine.execAndp o a s
  | .orp o a => Sys2Proof.Machine.execOrp o a s
  | .ton o a b u => Sys2Proof.Machine.execTon o a b u s
  | .tof o a b u => Sys2Proof.Machine.execTof o a b u s
  | .tp o a b u => Sys2Proof.Machine.execTp o a b u s
  | .ctu o a b => Sys2Proof.Machine.execCtu o a b s
  | .ctd o a b => Sys2Proof.Machine.execCtd o a b s
  | .cld o a b => Sys2Proof.Machine.execCld o a b s
  | .add o d a b => Sys2Proof.Machine.execAdd o d a b s
  | .sub o d a b => Sys2Proof.Machine.execSub o d a b s
  | .and o d a b => Sys2Proof.Machine.execAnd o d a b s
  | .or o d a b => Sys2Proof.Machine.execOr o d a b s
  | .xor o d a b => Sys2Proof.Machine.execXor o d a b s
  | .andn o d a b => Sys2Proof.Machine.execAndn o d a b s
  | .adds o d a b m => Sys2Proof.Machine.execAdds o d a b m s
  | .subs o d a b m => Sys2Proof.Machine.execSubs o d a b m s
  | .min o d a b m => Sys2Proof.Machine.execMin o d a b m s
  | .max o d a b m => Sys2Proof.Machine.execMax o d a b m s
  | .sel o d a b => Sys2Proof.Machine.execSel o d a b s
  | .abs o d a => Sys2Proof.Machine.execAbs o d a s
  | .not o d a => Sys2Proof.Machine.execNot o d a s
  | .cnt o d a => Sys2Proof.Machine.execCnt o d a s
  | .clz o d a => Sys2Proof.Machine.execClz o d a s
  | .shl o d a b => Sys2Proof.Machine.execShl o d a b s
  | .shr o d a b => Sys2Proof.Machine.execShr o d a b s
  | .sar o d a b => Sys2Proof.Machine.execSar o d a b s
  | .rol o d a b => Sys2Proof.Machine.execRol o d a b s
  | .ror o d a b => Sys2Proof.Machine.execRor o d a b s
  | .ext o d a b m => Sys2Proof.Machine.execExt o d a b m s
  | .ins o d a b => Sys2Proof.Machine.execIns o d a b s
  | .mfs o t d sr => Sys2Proof.Machine.execMfs o t d sr s
  | .mov o d imm => Sys2Proof.Machine.execMov o d imm s
  | .cmpEq o d a b => Sys2Proof.Machine.execCmpEq o d a b s
  | .cmpNe o d a b => Sys2Proof.Machine.execCmpNe o d a b s
  | .cmpLt o d a b => Sys2Proof.Machine.execCmpLt o d a b s
  | .cmpLe o d a b => Sys2Proof.Machine.execCmpLe o d a b s
  | .cmpLtu o d a b => Sys2Proof.Machine.execCmpLtu o d a b s
  | .cmpLeu o d a b => Sys2Proof.Machine.execCmpLeu o d a b s
  | .cmpGt o d a im => Sys2Proof.Machine.execCmpGt o d a im s
  | .cmpGe o d a im => Sys2Proof.Machine.execCmpGe o d a im s
  | .cmpGtu o d a im => Sys2Proof.Machine.execCmpGtu o d a im s
  | .cmpF o d a b m => Sys2Proof.Machine.execCmpF o d a b m s
  | .cmpD o d a b m => Sys2Proof.Machine.execCmpD o d a b m s
  | .mul o d a b => Sys2Proof.Machine.execMul o d a b s
  | .mulh o d a b => Sys2Proof.Machine.execMulh o d a b s
  | .mulhU o d a b => Sys2Proof.Machine.execMulhU o d a b s
  | .div o d a b => Sys2Proof.Machine.execDiv o d a b s
  | .divU o d a b => Sys2Proof.Machine.execDivU o d a b s
  | .rem o d a b => Sys2Proof.Machine.execRem o d a b s
  | .remU o d a b => Sys2Proof.Machine.execRemU o d a b s
  | .fadd o d a b => Sys2Proof.Machine.execFadd o d a b s
  | .fsub o d a b => Sys2Proof.Machine.execFsub o d a b s
  | .fmul o d a b => Sys2Proof.Machine.execFmul o d a b s
  | .fdiv o d a b => Sys2Proof.Machine.execFdiv o d a b s
  | .fmin o d a b => Sys2Proof.Machine.execFmin o d a b s
  | .fmax o d a b => Sys2Proof.Machine.execFmax o d a b s
  | .fabs o d a => Sys2Proof.Machine.execFabs o d a s
  | .fneg o d a => Sys2Proof.Machine.execFneg o d a s
  | .cvtFi o d a m => Sys2Proof.Machine.execCvtFi o d a m s
  | .cvtIf o d a m => Sys2Proof.Machine.execCvtIf o d a m s
  | .dadd o d a b => Sys2Proof.Machine.execDadd o d a b s
  | .dsub o d a b => Sys2Proof.Machine.execDsub o d a b s
  | .dmul o d a b => Sys2Proof.Machine.execDmul o d a b s
  | .ddiv o d a b => Sys2Proof.Machine.execDdiv o d a b s
  | .dmin o d a b => Sys2Proof.Machine.execDmin o d a b s
  | .dmax o d a b => Sys2Proof.Machine.execDmax o d a b s
  | .dabs o d a => Sys2Proof.Machine.execDabs o d a s
  | .dneg o d a => Sys2Proof.Machine.execDneg o d a s
  | .cvtDi o d a m => Sys2Proof.Machine.execCvtDi o d a m s
  | .cvtId o d a m => Sys2Proof.Machine.execCvtId o d a m s
  | .cvtSd o d a => Sys2Proof.Machine.execCvtSd o d a s
  | .cvtDs o d a => Sys2Proof.Machine.execCvtDs o d a s
  | .tadd o d a b => Sys2Proof.Machine.execTadd o d a b s
  | .tsub o d a b => Sys2Proof.Machine.execTsub o d a b s
  | .tcmpLt o d a b => Sys2Proof.Machine.execTcmpLt o d a b s
  | .tcmpLe o d a b => Sys2Proof.Machine.execTcmpLe o d a b s
  | .tcmpEq o d a b => Sys2Proof.Machine.execTcmpEq o d a b s
  | .badd o d a b => Sys2Proof.Machine.execBadd o d a b s
  | .bsub o d a b => Sys2Proof.Machine.execBsub o d a b s
  | .bcy o d a b => Sys2Proof.Machine.execBcy o d a b s
  | .bbw o d a b => Sys2Proof.Machine.execBbw o d a b s
  | .bdaj o d a => Sys2Proof.Machine.execBdaj o d a s
  | .b2d o d a => Sys2Proof.Machine.execB2d o d a s
  | .d2b o d a => Sys2Proof.Machine.execD2b o d a s
  | .bshl o d a b => Sys2Proof.Machine.execBshl o d a b s
  | .bshr o d a b => Sys2Proof.Machine.execBshr o d a b s
  | .ldD o d a b => Sys2Proof.Machine.execLdD o d a b s
  | .stD o z a b => Sys2Proof.Machine.execStD o z a b s
  | .ldG o d a b => Sys2Proof.Machine.execLdG o d a b s
  | .stG o z a b => Sys2Proof.Machine.execStG o z a b s
  | .ldi o d a b => Sys2Proof.Machine.execLdi o d a b s
  | .inW o d a b => Sys2Proof.Machine.execInW o d a b s
  | .outW o z a b => Sys2Proof.Machine.execOutW o z a b s
  | .inB o d a => Sys2Proof.Machine.execInB o d a s
  | .outB o z a => Sys2Proof.Machine.execOutB o z a s
  | .inX o d a im => Sys2Proof.Machine.execInX o d a im s
  | .mbput o z a b => Sys2Proof.Machine.execMbput o z a b s
  | .mbget o d a b => Sys2Proof.Machine.execMbget o d a b s
  | .mbhdr o d a im => Sys2Proof.Machine.execMbhdr o d a im s
  | .sow o a b => Sys2Proof.Machine.execSow o a b s
  | .br o t => Sys2Proof.Machine.execBr o t s
  | .call o t => Sys2Proof.Machine.execCall o t s
  | .ret o => Sys2Proof.Machine.execRet o s
  | .loop o t c => Sys2Proof.Machine.execLoop o t c s
  | .eoc o t => Sys2Proof.Machine.execEoc o t s
  | .rcl o => Sys2Proof.Machine.execRcl o s
  | .cnf o => Sys2Proof.Machine.execCnf o s
  | .imm e last sx x => Sys2Proof.Machine.execImm e last sx x s
  | .wfe o e => Sys2Proof.Machine.execWfe o e s
  | .sev o t e mask => Sys2Proof.Machine.execSev o t e mask s
  | .clev o e => Sys2Proof.Machine.execClev o e s
  | .wtu o t a im => Sys2Proof.Machine.execWtu o t a im s
  | .dmv o d a b => Sys2Proof.Machine.execDmv o d a b s
  | .eventArrival t k => Sys2Proof.Machine.execEventArrival t k s
  | .wtuWaitEnd t e => Sys2Proof.Machine.execWtuWaitEnd t e s
  | .milestone t e => Sys2Proof.Machine.execMilestone t e s
  | .heartbeatTransmit t => Sys2Proof.Machine.execHeartbeatTransmit t s
  | .heartbeat rx state sideB sent began => Sys2Proof.Machine.execHeartbeat rx state sideB sent began s
  | .caps rx p => Sys2Proof.Machine.execCaps rx p s
  | .nak rx first => Sys2Proof.Machine.execNak rx first s
  | .item rx items => Sys2Proof.Machine.execItem rx items s
  | .edit rx q => Sys2Proof.Machine.execEdit rx q s
  | .cmd rx f => Sys2Proof.Machine.execCmd rx f s
  | .seal rx es => Sys2Proof.Machine.execSeal rx es s
  | .accum rx accs => Sys2Proof.Machine.execAccum rx accs s
  | .accumTransmit t => Sys2Proof.Machine.execAccumTransmit t s
  | .hash rx h d => Sys2Proof.Machine.execHash rx h d s
  | .state rx sp page words => Sys2Proof.Machine.execState rx sp page words s
  | .stateEnd rx cls => Sys2Proof.Machine.execStateEnd rx cls s
  | .abdicate rx cause => Sys2Proof.Machine.execAbdicate rx cause s
  | .role rx grant => Sys2Proof.Machine.execRole rx grant s
  | .fenceFrame rx cause => Sys2Proof.Machine.execFenceFrame rx cause s
  | .batonStopped t => Sys2Proof.Machine.execBatonStopped t s
  | .batonToggling t => Sys2Proof.Machine.execBatonToggling t s
  | .heartbeatLoss t => Sys2Proof.Machine.execHeartbeatLoss t s
  | .onbexLinkLoss x => Sys2Proof.Machine.execOnbexLinkLoss x s
  | .onbexLinkUp t roundTrip => Sys2Proof.Machine.execOnbexLinkUp t roundTrip s
  | .joiningTimeout t => Sys2Proof.Machine.execJoiningTimeout t s
  | .shadowStart t cls => Sys2Proof.Machine.execShadowStart t cls s
  | .sealFaultDeadline t cls => Sys2Proof.Machine.execSealFaultDeadline t cls s
  | .hashDeadline t => Sys2Proof.Machine.execHashDeadline t s
  | .inputDiscrepancy t src => Sys2Proof.Machine.execInputDiscrepancy t src s
  | .revertHoldOffExpiry t => Sys2Proof.Machine.execRevertHoldOffExpiry t s
  | .handoverTick t => Sys2Proof.Machine.execHandoverTick t s
  | .resynchronise a v => Sys2Proof.Machine.execResynchronise a v s
  | .plannedSwap a v => Sys2Proof.Machine.execPlannedSwap a v s
  | .leaveFenced a v => Sys2Proof.Machine.execLeaveFenced a v s
  | .fenceThisChip a v => Sys2Proof.Machine.execFenceThisChip a v s
  | .editWrite a ix data => Sys2Proof.Machine.execEditWrite a ix data s
  | .editApply t r m => Sys2Proof.Machine.execEditApply t r m s
  | .header a tgt bytes => Sys2Proof.Machine.execHeader a tgt bytes s
  | .body a tgt offset bytes => Sys2Proof.Machine.execBody a tgt offset bytes s
  | .imageCheckComplete t tgt => Sys2Proof.Machine.execImageCheckComplete t tgt s
  | .transferTimeout t tgt => Sys2Proof.Machine.execTransferTimeout t tgt s
  | .abortTransfer a v => Sys2Proof.Machine.execAbortTransfer a v s
  | .activate a v => Sys2Proof.Machine.execActivate a v s
  | .cancelActivation a v => Sys2Proof.Machine.execCancelActivation a v s
  | .confirm a v => Sys2Proof.Machine.execConfirm a v s
  | .fallBack a v => Sys2Proof.Machine.execFallBack a v s
  | .activationTick t tgt => Sys2Proof.Machine.execActivationTick t tgt s
  | .regionResume t tgt => Sys2Proof.Machine.execRegionResume t tgt s
  | .trialPeriodExpiry t tgt => Sys2Proof.Machine.execTrialPeriodExpiry t tgt s
  | .fallbackTick t tgt => Sys2Proof.Machine.execFallbackTick t tgt s
  | .mssFirmwareActivation t => Sys2Proof.Machine.execMssFirmwareActivation t s
  | .mssFirmwareBack t ok => Sys2Proof.Machine.execMssFirmwareBack t ok s
  | .measurementConfigActivation t => Sys2Proof.Machine.execMeasurementConfigActivation t s
  | .keySlotRevocation a v => Sys2Proof.Machine.execKeySlotRevocation a v s
  | .senseSample t ch stamp v => Sys2Proof.Machine.execSenseSample t ch stamp v s
  | .gridRelease t g => Sys2Proof.Machine.execGridRelease t g s
  | .svFrame t p f => Sys2Proof.Machine.execSvFrame t p f s
  | .svPublicationFrame t set count => Sys2Proof.Machine.execSvPublicationFrame t set count s
  | .calibrationRequest a v => Sys2Proof.Machine.execCalibrationRequest a v s
  | .calibrationRotation t => Sys2Proof.Machine.execCalibrationRotation t s
  | .calibrationMatch x => Sys2Proof.Machine.execCalibrationMatch x s
  | .calibrationSwitchOver t => Sys2Proof.Machine.execCalibrationSwitchOver t s
  | .calibrationReturn t coef => Sys2Proof.Machine.execCalibrationReturn t coef s
  | .senseTemperatureRead t temp => Sys2Proof.Machine.execSenseTemperatureRead t temp s
  | .windowEnd t z => Sys2Proof.Machine.execWindowEnd t z s
  | .intervalEnd t z k => Sys2Proof.Machine.execIntervalEnd t z k s
  | .synchrophasorReport t z => Sys2Proof.Machine.execSynchrophasorReport t z s
  | .accumulatorSave t => Sys2Proof.Machine.execAccumulatorSave t s
  | .accumulatorReset a z v => Sys2Proof.Machine.execAccumulatorReset a z v s
  | .captureTrigger a v => Sys2Proof.Machine.execCaptureTrigger a v s
  | .captureLock a v => Sys2Proof.Machine.execCaptureLock a v s
  | .captureUnlock a v => Sys2Proof.Machine.execCaptureUnlock a v s
  | .captureComplete t => Sys2Proof.Machine.execCaptureComplete t s
  | .captureDataRead m offset want => Sys2Proof.Machine.execCaptureDataRead m offset want s
  | .capturePageFetch t cls => Sys2Proof.Machine.execCapturePageFetch t cls s
  | .campWindowEnd t ch samples => Sys2Proof.Machine.execCampWindowEnd t ch samples s
  | .campRecordTransfer t => Sys2Proof.Machine.execCampRecordTransfer t s
  | .fieldSupplyChange t supply2 missing set => Sys2Proof.Machine.execFieldSupplyChange t supply2 missing set s
  | .fieldDieReset t => Sys2Proof.Machine.execFieldDieReset t s
  | .fieldDieResetEnd t => Sys2Proof.Machine.execFieldDieResetEnd t s
  | .fieldDieRediscovered t => Sys2Proof.Machine.execFieldDieRediscovered t s
  | .diEdge t d level => Sys2Proof.Machine.execDiEdge t d level s
  | .diAccept t d => Sys2Proof.Machine.execDiAccept t d s
  | .changeRecordRead m d => Sys2Proof.Machine.execChangeRecordRead m d s
  | .fieldTickLatch t => Sys2Proof.Machine.execFieldTickLatch t s
  | .counterReset a d v => Sys2Proof.Machine.execCounterReset a d v s
  | .frequencyMeasurementEnd t d => Sys2Proof.Machine.execFrequencyMeasurementEnd t d s
  | .frequencyTimeout t d => Sys2Proof.Machine.execFrequencyTimeout t d s
  | .pulseEnd t n => Sys2Proof.Machine.execPulseEnd t n s
  | .doCurrentLimit t n => Sys2Proof.Machine.execDoCurrentLimit t n s
  | .doThermalShutdown t n => Sys2Proof.Machine.execDoThermalShutdown t n s
  | .doThermalRecovery t n => Sys2Proof.Machine.execDoThermalRecovery t n s
  | .doOverload t n => Sys2Proof.Machine.execDoOverload t n s
  | .doGroupCurrent t upper => Sys2Proof.Machine.execDoGroupCurrent t upper s
  | .doOpenLoad t n => Sys2Proof.Machine.execDoOpenLoad t n s
  | .doReadbackMismatch t n => Sys2Proof.Machine.execDoReadbackMismatch t n s
  | .doDiagnosticClear t n bit => Sys2Proof.Machine.execDoDiagnosticClear t n bit s
  | .latchReset a n v => Sys2Proof.Machine.execLatchReset a n v s
  | .aiConversion t ch raw supplyLimit => Sys2Proof.Machine.execAiConversion t ch raw supplyLimit s
  | .zeroTrim a ch => Sys2Proof.Machine.execZeroTrim a ch s
  | .spanTrim a ch => Sys2Proof.Machine.execSpanTrim a ch s
  | .clearTrims a ch => Sys2Proof.Machine.execClearTrims a ch s
  | .trimComplete t ch => Sys2Proof.Machine.execTrimComplete t ch s
  | .aoComplianceLimit t o delivered => Sys2Proof.Machine.execAoComplianceLimit t o delivered s
  | .aoShortfallPersist t o => Sys2Proof.Machine.execAoShortfallPersist t o s
  | .aoRefreshTimeout t o => Sys2Proof.Machine.execAoRefreshTimeout t o s
  | .fieldRefresh t => Sys2Proof.Machine.execFieldRefresh t s
  | .failAction t => Sys2Proof.Machine.execFailAction t s
  | .settingTakesEffect t => Sys2Proof.Machine.execSettingTakesEffect t s
  | .fieldConfigWrite a ix sub v => Sys2Proof.Machine.execFieldConfigWrite a ix sub v s
  | .ethernetLinkChange t p up speed full master abilities => Sys2Proof.Machine.execEthernetLinkChange t p up speed full master abilities s
  | .ethernetFrameReceived t p f => Sys2Proof.Machine.execEthernetFrameReceived t p f s
  | .prpSupervisionTransmit t => Sys2Proof.Machine.execPrpSupervisionTransmit t s
  | .prpPathLoss t p => Sys2Proof.Machine.execPrpPathLoss t p s
  | .lldpTransmit t p => Sys2Proof.Machine.execLldpTransmit t p s
  | .gooseRepetition t ds => Sys2Proof.Machine.execGooseRepetition t ds s
  | .gooseFrame t p f => Sys2Proof.Machine.execGooseFrame t p f s
  | .gooseTalExpiry t sub => Sys2Proof.Machine.execGooseTalExpiry t sub s
  | .ptpSync t offset pathDelay master => Sys2Proof.Machine.execPtpSync t offset pathDelay master s
  | .ptpAnnounce t bus a => Sys2Proof.Machine.execPtpAnnounce t bus a s
  | .announceTimeout t => Sys2Proof.Machine.execAnnounceTimeout t s
  | .holdoverExpiry t => Sys2Proof.Machine.execHoldoverExpiry t s
  | .stepRequest a v => Sys2Proof.Machine.execStepRequest a v s
  | .utcOffsetChange t => Sys2Proof.Machine.execUtcOffsetChange t s
  | .leapSecondCommit t => Sys2Proof.Machine.execLeapSecondCommit t s
  | .canFrameReceived x c f counter => Sys2Proof.Machine.execCanFrameReceived x c f counter s
  | .canFrameTransmitted x c obj counter edge => Sys2Proof.Machine.execCanFrameTransmitted x c obj counter edge s
  | .canReferenceMessage t c => Sys2Proof.Machine.execCanReferenceMessage t c s
  | .canCounterLatch t counter => Sys2Proof.Machine.execCanCounterLatch t counter s
  | .canBusOff t c => Sys2Proof.Machine.execCanBusOff t c s
  | .canBusOffRecovery t c => Sys2Proof.Machine.execCanBusOffRecovery t c s
  | .canRecoveryCommand a c v => Sys2Proof.Machine.execCanRecoveryCommand a c v s
  | .cableTestRequest a p v => Sys2Proof.Machine.execCableTestRequest a p v s
  | .cableTestComplete t p kind dist length => Sys2Proof.Machine.execCableTestComplete t p kind dist length s
  | .sdoRequest t f => Sys2Proof.Machine.execSdoRequest t f s
  | .sdoTimeout t => Sys2Proof.Machine.execSdoTimeout t s
  | .hello t kid nc => Sys2Proof.Machine.execHello t kid nc s
  | .openSession t sid ctr kid mac => Sys2Proof.Machine.execOpenSession t sid ctr kid mac s
  | .lockoutExpiry t kid => Sys2Proof.Machine.execLockoutExpiry t kid s
  | .read m ix sub offset want => Sys2Proof.Machine.execRead m ix sub offset want s
  | .write a ix sub offset last data => Sys2Proof.Machine.execWrite a ix sub offset last data s
  | .closeSession m => Sys2Proof.Machine.execCloseSession m s
  | .keepalive m => Sys2Proof.Machine.execKeepalive m s
  | .sessionTimeout t sid => Sys2Proof.Machine.execSessionTimeout t sid s
  | .helloStateExpiry t sid => Sys2Proof.Machine.execHelloStateExpiry t sid s
  | .segmentTimeout t sid => Sys2Proof.Machine.execSegmentTimeout t sid s
  | .restart a v f => Sys2Proof.Machine.execRestart a v f s
  | .keySlotWrite a slot role kid secret => Sys2Proof.Machine.execKeySlotWrite a slot role kid secret s
  | .closeAllSessions a v => Sys2Proof.Machine.execCloseAllSessions a v s
  | .parameterRecordWrite t => Sys2Proof.Machine.execParameterRecordWrite t s
  | .sectorEraseComplete t area sector => Sys2Proof.Machine.execSectorEraseComplete t area sector s
  | .eventRecordWrite t => Sys2Proof.Machine.execEventRecordWrite t s
  | .recordsRead m offset => Sys2Proof.Machine.execRecordsRead m offset s
  | .recorderClear a v => Sys2Proof.Machine.execRecorderClear a v s
  | .calRead reg => Sys2Proof.Machine.execCalRead reg s
  | .readShadowTimeout => Sys2Proof.Machine.execReadShadowTimeout s
  | .calWrite reg v => Sys2Proof.Machine.execCalWrite reg v s
  | .calCommit => Sys2Proof.Machine.execCalCommit s
  | .calDiscard => Sys2Proof.Machine.execCalDiscard s
  | .calWdayWrite v => Sys2Proof.Machine.execCalWdayWrite v s
  | .calShift v => Sys2Proof.Machine.execCalShift v s
  | .calShiftComplete => Sys2Proof.Machine.execCalShiftComplete s
  | .calStatClear v => Sys2Proof.Machine.execCalStatClear v s
  | .calendarWrap => Sys2Proof.Machine.execCalendarWrap s
  | .secondMark t => Sys2Proof.Machine.execSecondMark t s
  | .checkIn t m merged => Sys2Proof.Machine.execCheckIn t m merged s
  | .watchdogConfigure m enrol p o c => Sys2Proof.Machine.execWatchdogConfigure m enrol p o c s
  | .configurationLock => Sys2Proof.Machine.execConfigurationLock s
  | .armingDeadline t m => Sys2Proof.Machine.execArmingDeadline t m s
  | .windowClose t m => Sys2Proof.Machine.execWindowClose t m s
  | .evidenceRelease a v => Sys2Proof.Machine.execEvidenceRelease a v s
  | .frameRows a first rows => Sys2Proof.Machine.execFrameRows a first rows s
  | .waveformTableWrite a band data => Sys2Proof.Machine.execWaveformTableWrite a band data s
  | .partialUpdate a v => Sys2Proof.Machine.execPartialUpdate a v s
  | .fullUpdate a v => Sys2Proof.Machine.execFullUpdate a v s
  | .panelAbort a v => Sys2Proof.Machine.execPanelAbort a v s
  | .repaint a v => Sys2Proof.Machine.execRepaint a v s
  | .reEnable a v => Sys2Proof.Machine.execReEnable a v s
  | .railsInRange t => Sys2Proof.Machine.execRailsInRange t s
  | .updateStart t => Sys2Proof.Machine.execUpdateStart t s
  | .updateEnd t => Sys2Proof.Machine.execUpdateEnd t s
  | .balancingEnd t => Sys2Proof.Machine.execBalancingEnd t s
  | .panelTemperatureRead t temp => Sys2Proof.Machine.execPanelTemperatureRead t temp s
  | .currentBufferCheck t => Sys2Proof.Machine.execCurrentBufferCheck t s
  | .idlePowerOff t => Sys2Proof.Machine.execIdlePowerOff t s
  | .railFault t => Sys2Proof.Machine.execRailFault t s
  | .keyAccept t key pressed => Sys2Proof.Machine.execKeyAccept t key pressed s
  | .trimActionTimeout t => Sys2Proof.Machine.execTrimActionTimeout t s
  | .lfclkCount t => Sys2Proof.Machine.execLfclkCount t s
  | .pd0PowerLoss t => Sys2Proof.Machine.execPd0PowerLoss t s
  | .pd0PowerUp t => Sys2Proof.Machine.execPd0PowerUp t s
  | .vfSourceChange t supply2 above16 => Sys2Proof.Machine.execVfSourceChange t supply2 above16 s
  | .aoComplianceClear t o delivered => Sys2Proof.Machine.execAoComplianceClear t o delivered s
  | .aoShortfallEnd t o => Sys2Proof.Machine.execAoShortfallEnd t o s
  | .driveFrame t => Sys2Proof.Machine.execDriveFrame t s
  | .railsDischarged t => Sys2Proof.Machine.execRailsDischarged t s
  | .ptpTransmit t bus => Sys2Proof.Machine.execPtpTransmit t bus s

end Sys2Proof.Machine
end

