-- ==== Sys2Proof/Safety.lean ====
section
/-! DEFINITION. The terms in which claims about the machine are stated: when an engine is ready for an operation, what issuing a
bundle does to its work, when a write passes the checks of Table 11-3, and the form in which a chip keeps its engines and
memories. -/

namespace Sys2Proof

/-- Engine, guard and place in its bundle of an operation that has a guard. -/
def Instr.op : Instr → Option Op
  | .ldBa o .. | .ldnBa o .. | .andBa o .. | .andnBa o .. | .orBa o .. | .ornBa o .. | .xorBa o .. | .outBit o ..
  | .outnBit o .. | .setBit o .. | .rstBit o .. | .push o .. | .popa o .. | .popo o .. | .notba o .. | .red o .. | .fed o ..
  | .ba2p o .. | .p2ba o .. | .andp o .. | .orp o .. | .ton o .. | .tof o .. | .tp o .. | .ctu o .. | .ctd o .. | .cld o ..
  | .add o .. | .sub o .. | .and o .. | .or o .. | .xor o .. | .andn o .. | .adds o .. | .subs o .. | .min o .. | .max o ..
  | .sel o .. | .abs o .. | .not o .. | .cnt o .. | .clz o .. | .shl o .. | .shr o .. | .sar o .. | .rol o .. | .ror o ..
  | .ext o .. | .ins o .. | .mfs o .. | .mov o .. | .cmpEq o .. | .cmpNe o .. | .cmpLt o .. | .cmpLe o .. | .cmpLtu o ..
  | .cmpLeu o .. | .cmpGt o .. | .cmpGe o .. | .cmpGtu o .. | .cmpF o .. | .cmpD o .. | .mul o .. | .mulh o .. | .mulhU o ..
  | .div o .. | .divU o .. | .rem o .. | .remU o .. | .fadd o .. | .fsub o .. | .fmul o .. | .fdiv o .. | .fmin o ..
  | .fmax o .. | .fabs o .. | .fneg o .. | .cvtFi o .. | .cvtIf o .. | .dadd o .. | .dsub o .. | .dmul o .. | .ddiv o ..
  | .dmin o .. | .dmax o .. | .dabs o .. | .dneg o .. | .cvtDi o .. | .cvtId o .. | .cvtSd o .. | .cvtDs o .. | .tadd o ..
  | .tsub o .. | .tcmpLt o .. | .tcmpLe o .. | .tcmpEq o .. | .badd o .. | .bsub o .. | .bcy o .. | .bbw o .. | .bdaj o ..
  | .b2d o .. | .d2b o .. | .bshl o .. | .bshr o .. | .ldD o .. | .stD o .. | .ldG o .. | .stG o .. | .ldi o .. | .inW o ..
  | .outW o .. | .inB o .. | .outB o .. | .inX o .. | .mbput o .. | .mbget o .. | .mbhdr o .. | .sow o .. | .br o ..
  | .call o .. | .ret o .. | .loop o .. | .eoc o .. | .rcl o .. | .cnf o .. | .wfe o .. | .sev o .. | .clev o .. | .wtu o ..
  | .dmv o .. => some o
  | _ => none

/-- The slot that the tables of chapter 04 assign to an operation. -/
def Instr.slot : Instr → Slot
  | .ldBa .. | .ldnBa .. | .andBa .. | .andnBa .. | .orBa .. | .ornBa .. | .xorBa .. | .outBit .. | .outnBit .. | .setBit ..
  | .rstBit .. | .push .. | .popa .. | .popo .. | .notba .. | .red .. | .fed .. | .ba2p .. | .p2ba .. | .andp .. | .orp ..
  | .ton .. | .tof .. | .tp .. | .ctu .. | .ctd .. | .cld .. => .b
  | .ldD .. | .stD .. | .ldG .. | .stG .. | .ldi .. | .inW .. | .outW .. | .inB .. | .outB .. | .inX .. | .mbput .. | .mbget ..
  | .mbhdr .. | .sow .. => .m
  | .br .. | .call .. | .ret .. | .loop .. | .eoc .. | .rcl .. | .cnf .. | .wfe .. | .sev .. | .clev .. | .wtu .. | .dmv ..
  | .imm .. => .c
  | _ => .a

/-- The commands that an engine executes: the guarded operations, and those without a guard. -/
def Instr.ofEngine (i : Instr) : Bool := match i with
  | .nop .. | .imm .. | .illegalOpcode .. => true
  | _ => i.op.isSome

namespace Machine

/-! ### Engines -/

/-- The instant of an operation that carries one is station time from then on. -/
def Chip.timed (c : Chip) (i : Instr) : Chip := match i with
  | .mfs _ t _ _ | .eoc _ t | .sev _ t _ _ | .wtu _ t _ _ => c.at_ t
  | _ => c

/-- What a squashed control operation leaves of itself: the delay bundles of a branch, call or return (R103). -/
def squashCtl : Instr → Option Ctl
  | .br .. => some (.branch none)
  | .call .. => some (.callTo none)
  | .ret .. => some (.retTo false)
  | _ => none

/-- The open bundle of a work holds nothing, a long immediate apart, which fills slot C (R89, R90). -/
def Fresh (w : Work) : Prop :=
  w.bundle.effs = [] ∧ w.bundle.ctl = none ∧ w.bundle.fault = none ∧ w.bundle.used = if w.bundle.imm.isSome then [.c] else []

/-- Engine position e issues; its open bundle is fresh, no two results in flight meet in it, and its signature is the one that a check
point there expects (R143). -/
def Ready (c : Chip) (e : Nat) : Prop :=
  (c.work e).run = .issuing ∧ Fresh (c.work e) ∧ dueAt (c.work e).flights (c.work e).issued = [] ∧ c.signatureOk e = true

/-- The operation of `o` is the one operation of a bundle of its engine position, and its guard passes. -/
def Alone (c : Chip) (o : Op) : Prop :=
  Ready c o.eng.val ∧ o.last = true ∧ guardOk (c.work o.eng.val) o = true

/-- The same of a control operation, beside which no long immediate stands (R90). -/
def AloneCtl (c : Chip) (o : Op) : Prop := Alone c o ∧ (c.work o.eng.val).bundle.imm = none

/-- A work once its bundle with bits `pcw` and control operation `ctl` has issued: signature, next PC, counts, and the results that
become visible to the next bundle. -/
def nextWork (w : Work) (pcw : Nat) (ctl : Option Ctl) : Work :=
  let w' := nextPc { w with arch := { w.arch with sig := Config.sigStep w.arch.sig pcw }, ended := some w.arch.pc } ctl
  land { w' with bundle := emptyBundle, issued := w'.issued + 1, sinceMs := w'.sinceMs + 1 } (w'.issued + 1)

/-- The chip once engine position e has issued a bundle with these effects and this control operation. -/
def Chip.carries (c : Chip) (e : Nat) (l : List Eff) (ctl : Option Ctl) : Chip :=
  ((l.foldl (fun c f => c.effect e f) c).modWork e (fun w => nextWork w (c.bundleBits e) ctl)).control e ctl

/-- What issuing an operation that is the whole bundle comes to: its effects, or a program fault and none (R108). -/
def Chip.issues (c : Chip) (e : Nat) (r : Except ProgFault Did) : Chip := match r with
  | .ok d => c.carries e d.effs d.ctl
  | .error f => c.raise e f

/-- The effects of an operation whose operand fields are legal; otherwise an illegal opcode. -/
def legalIf (b : Bool) (l : List Eff) : Except ProgFault Did := if b then did l else .error .illegalOpcode

/-- Command i runs, and the chip is then c; the waiting commands stay. -/
def Gives (s : State) (i : Instr) (c : Chip) : Prop := exec i s = .next { s with chip := c }

/-- No result in flight reaches the destination at the next bundle. -/
def NoneDue (w : Work) (d : Dest) : Prop := ∀ f ∈ w.flights, ¬ (f.due = w.issued + 1 ∧ f.dest = d)

/-! ### Dictionary writes -/

/-- The checks of Table 11-3 on a write of a whole value by one message: the chip after them and who writes, where all are passed. -/
def Chip.admits (c : Chip) (a : Acc) (ix sub v : Nat) (data : List Byte) : Option (Chip × Who) :=
  if c.reach ix then
    match (c.at_ a.t).identify a (msgBytes 0x11 (a.sid.getD 0) a.ctr a.csn (writePayload ix sub 1 0 data)) with
    | .ended _ => none
    | .go c w => match c.checkWrite w ix sub data.length v with
      | .ended _ => none
      | .go c w => some (c, w)
  else none

/-- A write of the named row by one message, whose checks are passed and whose owner's condition holds, is carried out: its effect, the
executed number, the frame to the partner and the answer. A row is the command, its entry, the condition and the effect. -/
def Writes (s : State) (a : Acc) (v : Nat) (data : List Byte) (p : Instr × Nat × Nat × (Chip → Prop) × (Chip → Who → Chip)) : Prop :=
  ∀ c w, s.chip.admits a p.2.1 p.2.2.1 v data = some (c, w) → p.2.2.2.1 c →
    Gives s p.1 (c.conclude w p.2.1 p.2.2.1 data (.ok (p.2.2.2.2 c w)))

/-- The checks of Table 11-3 on a read of a tabulated entry: the chip after them and who reads, where all are passed. -/
def Chip.opens (c : Chip) (m : Msg) (ix sub : Nat) (bytes : List Byte) : Option (Chip × Who) :=
  if c.reach ix then
    match (c.at_ m.t).reader m bytes with
    | .ended _ => none
    | .go c w => if (Chip.readCheck w ix sub).isNone then some (c, w) else none
  else none

/-- The chip that takes the content `f` of an Onbex frame: pair mode in force, the link up and not fenced, the CRC right, the type and
the content those of `f`, the number due (R174-R177). -/
def Chip.hears (c : Chip) (rx : Rx) (f : OnbexOut) : Option Chip :=
  if c.onbexOpen && rx.crcOk && rxCarries rx f then
    match (c.at_ rx.t).takeLsn rx.lsn with
    | (c, true) => some c
    | _ => none
  else none

/-- Registers of the dictionary outside a list read as before. -/
def SameRegs (c d : Chip) (l : List (Nat × Nat)) : Prop :=
  ∀ ix sub, ix < 65536 → sub < 256 → (ix, sub) ∉ l → d.rdPair ix sub = c.rdPair ix sub

/-- The form in which a chip keeps its engines and memories: every memory and the register file canonical (log 13), no rung stack deeper
than 16, no return stack deeper than 8, at most two loop levels, and at most two delay bundles to issue (R83, R84, R103). -/
def EnginesFormed (c : Chip) : Prop :=
  Sparse.wf regDefault c.regs = true ∧ (∀ m ∈ c.dbank, WMem.wf m = true) ∧ (∀ m ∈ c.ibank, NMem.wf m = true) ∧
  (∀ r ∈ c.regions, WMem.wf r.gmem = true) ∧
  ∀ w ∈ c.works, WMem.wf w.arch.g = true ∧ NMem.wf w.flags = true ∧ w.arch.rung.length ≤ 16 ∧ w.arch.ret.length ≤ 8 ∧
    w.arch.loops.length ≤ 2 ∧ w.delay ≤ 2

end Machine

end Sys2Proof
end

