-- ==== Sys2Proof/WellFormed.lean ====
section
/-! DEFINITION. What makes a command well formed: operands that the device accepts as an operation, numbers within the fields
that carry them in a message or frame, legal time pairs. -/

namespace Sys2Proof

/-- The dictionary access of a write command. -/
def Instr.acc : Instr → Option Acc
  | .selfTestRequest a _ | .fenceRelease a _ | .fabricWeightWrite a _ _ | .stop a _ | .startOrRestart a _
  | .overrunWarningClear a _ | .resynchronise a _ | .plannedSwap a _ | .leaveFenced a _ | .fenceThisChip a _
  | .editWrite a _ _ | .header a _ _ | .body a _ _ _ | .abortTransfer a _ | .activate a _ | .cancelActivation a _
  | .confirm a _ | .fallBack a _ | .keySlotRevocation a _ | .calibrationRequest a _ | .accumulatorReset a _ _
  | .captureTrigger a _ | .captureLock a _ | .captureUnlock a _ | .counterReset a _ _ | .latchReset a _ _
  | .zeroTrim a _ | .spanTrim a _ | .clearTrims a _ | .fieldConfigWrite a _ _ _ | .stepRequest a _
  | .canRecoveryCommand a _ _ | .cableTestRequest a _ _ | .write a _ _ _ _ _ | .restart a _ _ | .keySlotWrite a _ _ _ _
  | .closeAllSessions a _ | .recorderClear a _ | .evidenceRelease a _ | .frameRows a _ _ | .waveformTableWrite a _ _
  | .partialUpdate a _ | .fullUpdate a _ | .panelAbort a _ | .repaint a _ | .reEnable a _ => some a
  | _ => none

/-- The message of a reading or closing command. -/
def Instr.msg : Instr → Option Msg
  | .captureDataRead m _ _ | .changeRecordRead m _ | .read m _ _ _ _ | .closeSession m | .keepalive m
  | .recordsRead m _ => some m
  | _ => none

/-- The frame header of a command that arrives over the Onbex link. -/
def Instr.rx : Instr → Option Rx
  | .heartbeat r _ _ _ _ | .caps r _ | .nak r _ | .item r _ | .edit r _ | .cmd r _ | .seal r _ | .accum r _
  | .hash r _ _ | .state r _ _ _ | .stateEnd r _ | .abdicate r _ | .role r _ | .fenceFrame r _ => some r
  | _ => none

/-- Session, counter, command number and MAC fit the fields of a message (Table 11-5). -/
def accOk (a : Acc) : Bool :=
  decide (a.sid.getD 0 < 2 ^ 32 ∧ a.ctr < 2 ^ 32 ∧ a.csn < 2 ^ 32 ∧ a.mac < 2 ^ 128 ∧ a.len ≤ 8192)
/-- The same of a message without a command number. -/
def msgOk (m : Msg) : Bool := decide (m.sid.getD 0 < 2 ^ 32 ∧ m.ctr < 2 ^ 32 ∧ m.mac < 2 ^ 128)
/-- The payload of an Onbex frame is 4096 bytes at most (R175). -/
def rxOk (r : Rx) : Bool := decide (r.payload.length ≤ 4096)

/-- Form I has no modifier (Table 03-7). -/
def formOk : Instr → Bool
  | .min _ _ _ (.imm _) m | .max _ _ _ (.imm _) m | .ext _ _ _ (.imm _) m => m == 0
  | _ => true

/-- Time pairs that a frame carries are legal (R7). -/
def pairsOk : Instr → Bool
  | .heartbeat _ _ _ sent began => sent.legal && began.legal
  | .hash _ _ d => d.legal
  | _ => true

/-- An option passes a check, or is absent. -/
def optOk {α : Type} (p : α → Bool) (x : Option α) : Bool := match x with
  | some a => p a
  | none => true

/-- A well-formed command. -/
def Instr.wf (i : Instr) : Bool :=
  operandsLegal i && formOk i && pairsOk i && optOk accOk i.acc && optOk msgOk i.msg && optOk rxOk i.rx

end Sys2Proof
end

