-- ==== Sys2Proof/Certificates/Slice0/Obligations.lean ====
section
/-! DEFINITION. The statements for the provers. Each says which rules of the specification it formalises. -/

open Sys2Proof Sys2Proof.Machine

/-! ### Slot A -/

/-- R118, R120 (R75, R119): an integer operation that is the whole bundle of a ready engine has one result, at distance 1: that of Table
04-6 with register B, or of Table 04-7 with the immediate. -/
def Obligations.IntegerOperationsDeliverTheirTableResult : Prop :=
  ∀ (s : State) (o : Op) (d a b : RegNo) (x : Src) (m : BitVec 2) (im : BitVec 8), Alone s.chip o →
    let w := s.chip.work o.eng.val
    let A := gRead w a
    let B := gRead w b
    ∀ p ∈ [(Instr.add o d a x, A + srcVal w true x), (.sub o d a x, A - srcVal w true x), (.and o d a x, A &&& srcVal w false x),
        (.or o d a x, A ||| srcVal w false x), (.xor o d a x, A ^^^ srcVal w false x), (.andn o d a b, A &&& ~~~ B),
        (.adds o d a b m, addSat m A B), (.subs o d a b m, subSat m A B),
        (.min o d a x m, minW (isU (modOf x m)) A (srcVal w true x)), (.max o d a x m, maxW (isU (modOf x m)) A (srcVal w true x)),
        (.sel o d a b, if w.arch.ba then A else B), (.abs o d a, absW A), (.not o d a, ~~~ A),
        (.cnt o d a, toWord (popCount A)), (.clz o d a, toWord (leadZeros A)),
        (.shl o d a x, A <<< ((srcVal w false x).toNat % 64)), (.shr o d a x, A >>> ((srcVal w false x).toNat % 64)),
        (.sar o d a x, A.sshiftRight ((srcVal w false x).toNat % 64)),
        (.rol o d a x, A.rotateLeft ((srcVal w false x).toNat % 64 % 48)), (.ror o d a x, A.rotateRight ((srcVal w false x).toNat % 64 % 48)),
        (.ext o d a x m, extW (modOf x m == 1) A (srcVal w false x)), (.ins o d a x, insW (gRead w d) A (srcVal w false x)),
        (.mov o d im, immVal w true im)],
      Gives s p.1 (s.chip.carries o.eng.val (resG d 1 p.2) none)

/-- R118, R119, R79, R81: what the saturating, field, minimum and counting functions of Table 04-6 compute; `mfs` delivers special register
0 to 5 as Table 03-2 gives it, and a number from 6 on is an illegal opcode. -/
def Obligations.IntegerFunctionsAndSpecialRegisters : Prop :=
  (∀ (a b d : Word),
    (addSat 0 a b).toInt = max (-(2 ^ 47)) (min (2 ^ 47 - 1) (a.toInt + b.toInt)) ∧
    (addSat 1 a b).toNat = min (2 ^ 48 - 1) (a.toNat + b.toNat) ∧
    (subSat 0 a b).toInt = max (-(2 ^ 47)) (min (2 ^ 47 - 1) (a.toInt - b.toInt)) ∧
    (subSat 1 a b).toNat = a.toNat - b.toNat ∧
    (minW false a b).toInt = min a.toInt b.toInt ∧ (maxW false a b).toInt = max a.toInt b.toInt ∧
    (minW true a b).toNat = min a.toNat b.toNat ∧ (maxW true a b).toNat = max a.toNat b.toNat ∧
    (absW a).toInt = min (2 ^ 47 - 1) |a.toInt| ∧
    (∀ i, leadZeros a = i ↔ (i ≤ 48 ∧ (∀ j, 48 - i ≤ j → a.getLsbD j = false) ∧ (i < 48 → a.getLsbD (47 - i) = true))) ∧
    (48 ≤ amount b → shlW a b = 0 ∧ shrW a b = 0 ∧ sarW a b = if a.getLsbD 47 then -1 else 0) ∧
    (∀ i, i < 48 → (insW d a b).getLsbD i =
      if fieldPos b ≤ i ∧ i < fieldPos b + fieldWidth b then a.getLsbD (i - fieldPos b) else d.getLsbD i) ∧
    (∀ i, i < 48 → (extW false a b).getLsbD i = (decide (i < fieldWidth b) && a.getLsbD (fieldPos b + i)))) ∧
  ∀ (s : State) (o : Op) (t : Instant) (d sr : RegNo), Alone s.chip o →
    Gives s (.mfs o t d sr) ((s.chip.at_ t).issues o.eng.val
      (legalIf (decide (sr.toNat < 6)) (resG d 1 ((s.chip.at_ t).special o.eng.val t sr.toNat))))

/-- R121, R127: a compare writes its predicate at distance 2; time pairs are compared under profile E alone. -/
def Obligations.ComparesWriteTheirPredicate : Prop :=
  ∀ (s : State) (o : Op) (d a b : RegNo) (x : Src) (m : BitVec 2) (im : BitVec 8), Alone s.chip o →
    let w := s.chip.work o.eng.val
    let A := gRead w a
    let B := gRead w b
    let I := immVal w true im
    let X := srcVal w true x
    let pairs := pairOk a && pairOk b
    ∀ p ∈ [(Instr.cmpEq o d a x, true, decide (A = X)), (.cmpNe o d a x, true, decide (A ≠ X)),
        (.cmpLt o d a x, true, decide (A.toInt < X.toInt)), (.cmpLe o d a x, true, decide (A.toInt ≤ X.toInt)),
        (.cmpLtu o d a x, true, decide (A.toNat < X.toNat)), (.cmpLeu o d a b, true, decide (A.toNat ≤ B.toNat)),
        (.cmpGt o d a im, true, decide (I.toInt < A.toInt)), (.cmpGe o d a im, true, decide (I.toInt ≤ A.toInt)),
        (.cmpGtu o d a im, true, decide (I.toNat < A.toNat)),
        (.cmpF o d a b m, true, fpTest m (fpOf f32 (sRead w a)) (fpOf f32 (sRead w b))),
        (.cmpD o d a b m, pairs, fpTest m (fpOf f64 (dRead w a)) (fpOf f64 (dRead w b))),
        (.tcmpLt o d a b, pairs && !profD w, tBefore (tRead w a) (tRead w b)),
        (.tcmpLe o d a b, pairs && !profD w, !tBefore (tRead w b) (tRead w a)),
        (.tcmpEq o d a b, pairs && !profD w, tSame (tRead w a) (tRead w b))],
      Gives s p.1 (s.chip.issues o.eng.val (legalIf p.2.1 (resP d 2 p.2.2)))

/-- R122, R123: products at distance 3; quotients and remainders at distance 24, a zero divisor trapping with DZT = 1 and giving the value
of R123 with DZT = 0. -/
def Obligations.MultiplyAndDivide : Prop :=
  ∀ (s : State) (o : Op) (d a b : RegNo) (x : Src), Alone s.chip o →
    let w := s.chip.work o.eng.val
    let A := gRead w a
    let B := gRead w b
    let trap := decide (B = 0) && divTrap w
    (∀ p ∈ [(Instr.mul o d a x, A * srcVal w true x), (.mulh o d a b, ofIntWord (A.toInt * B.toInt / 2 ^ 48)),
        (.mulhU o d a b, toWord (A.toNat * B.toNat / 2 ^ 48))],
      Gives s p.1 (s.chip.carries o.eng.val (resG d 3 p.2) none)) ∧
    (∀ p ∈ [(Instr.div o d a b, divS A B), (.divU o d a b, divUn A B), (.rem o d a b, remS A B), (.remU o d a b, remUn A B)],
      Gives s p.1 (s.chip.issues o.eng.val (if trap then .error .divideByZero else did (resG d 24 p.2)))) ∧
    (B ≠ 0 → divS A B = ofIntWord (A.toInt.tdiv B.toInt) ∧ remS A B = ofIntWord (A.toInt.tmod B.toInt) ∧
      divUn A B = toWord (A.toNat / B.toNat) ∧ remUn A B = toWord (A.toNat % B.toNat)) ∧
    (B = 0 → divS A B = ofIntWord (if A.toInt < 0 then -(2 ^ 47) else 2 ^ 47 - 1) ∧ remS A B = A ∧
      divUn A B = ofIntWord (-1) ∧ remUn A B = A) ∧
    (A.toInt = -(2 ^ 47) → B.toInt = -1 → divS A B = A ∧ remS A B = 0)

/-- R124, R126: single-precision operations at distance 4, the divide at 24, on bits 31:0 under IEEE 754. -/
def Obligations.SinglePrecisionResults : Prop :=
  ∀ (s : State) (o : Op) (d a b : RegNo) (m : BitVec 2), Alone s.chip o →
    let w := s.chip.work o.eng.val
    let A := fpOf f32 (sRead w a)
    let B := fpOf f32 (sRead w b)
    ∀ p ∈ [(Instr.fadd o d a b, did (resS d 4 (fpAdd f32 A B))), (.fsub o d a b, did (resS d 4 (fpAdd f32 A (fpNeg B)))),
        (.fmul o d a b, did (resS d 4 (fpMul f32 A B))),
        (.fdiv o d a b, if fpIsZero B && divTrap w then .error .divideByZero else did (resS d 24 (fpDiv f32 A B))),
        (.fmin o d a b, did (resS d 4 (fpMin f32 (sRead w a) (sRead w b)))),
        (.fmax o d a b, did (resS d 4 (fpMax f32 (sRead w a) (sRead w b)))),
        (.fabs o d a, did (resS d 4 (fpAbsBits f32 (sRead w a)))), (.fneg o d a, did (resS d 4 (fpNegBits f32 (sRead w a)))),
        (.cvtFi o d a m, did (resS d 4 (fpOfInt f32 (intOf m (gRead w a))))), (.cvtIf o d a m, did (resG d 4 (fpToInt m A)))],
      Gives s p.1 (s.chip.issues o.eng.val p.2)

/-- R125, R126, R77: double-precision operations and conversions at distance 6, the divide at 24, on register pairs; a pair field with an
odd number or 0 is an illegal opcode. -/
def Obligations.DoublePrecisionResults : Prop :=
  ∀ (s : State) (o : Op) (d a b : RegNo) (m : BitVec 2), Alone s.chip o →
    let w := s.chip.work o.eng.val
    let A := fpOf f64 (dRead w a)
    let B := fpOf f64 (dRead w b)
    let three := pairOk d && pairOk a && pairOk b
    let two := pairOk d && pairOk a
    ∀ p ∈ [(Instr.dadd o d a b, legalIf three (resD d 6 (fpAdd f64 A B))),
        (.dsub o d a b, legalIf three (resD d 6 (fpAdd f64 A (fpNeg B)))), (.dmul o d a b, legalIf three (resD d 6 (fpMul f64 A B))),
        (.ddiv o d a b, if three && (fpIsZero B && divTrap w) then .error .divideByZero else legalIf three (resD d 24 (fpDiv f64 A B))),
        (.dmin o d a b, legalIf three (resD d 6 (fpMin f64 (dRead w a) (dRead w b)))),
        (.dmax o d a b, legalIf three (resD d 6 (fpMax f64 (dRead w a) (dRead w b)))),
        (.dabs o d a, legalIf two (resD d 6 (fpAbsBits f64 (dRead w a)))), (.dneg o d a, legalIf two (resD d 6 (fpNegBits f64 (dRead w a)))),
        (.cvtDi o d a m, legalIf (pairOk d) (resD d 6 (fpOfInt f64 (intOf m (gRead w a))))),
        (.cvtId o d a m, legalIf (pairOk a) (resG d 6 (fpToInt m A))),
        (.cvtSd o d a, legalIf (pairOk d) (resD d 6 (fpBits f64 (fpOf f32 (sRead w a))))),
        (.cvtDs o d a, legalIf (pairOk a) (resS d 6 (fpBits f32 A)))],
      Gives s p.1 (s.chip.issues o.eng.val p.2)

/-- R127, R128, R141: the profile pages: time pairs under profile E, packed decimal under profile D; in the other profile each is an
illegal opcode. -/
def Obligations.ProfilePageResults : Prop :=
  ∀ (s : State) (o : Op) (d a b : RegNo) (x : Src), Alone s.chip o →
    let w := s.chip.work o.eng.val
    let A := gRead w a
    let va := bcdVal A
    let vb := bcdVal (gRead w b)
    let k := (srcVal w false x).toNat
    (AloneCtl s.chip o → Gives s (.dmv o d a b) (s.chip.issues o.eng.val (legalIf (profD w) (resG d 1 (digitMove (gRead w d) A
      (fieldOf (gRead w b).toNat 3 0) (fieldOf (gRead w b).toNat 7 4) (fieldOf (gRead w b).toNat 11 8)))))) ∧
    ∀ p ∈ [(Instr.tadd o d a b, legalIf (pairOk d && pairOk a && !profD w) (resT d 1 (tAdd (tRead w a) (gRead w b).toInt))),
        (.tsub o d a b, legalIf (pairOk a && pairOk b && !profD w) (resG d 1 (tSub (tRead w a) (tRead w b)))),
        (.badd o d a b, legalIf (profD w) (resG d 1 (bcdOf ((va + vb) % 10 ^ 12)))),
        (.bsub o d a b, legalIf (profD w) (resG d 1 (bcdOf ((((va : Int) - vb) % 10 ^ 12).toNat)))),
        (.bcy o d a b, legalIf (profD w) (resP d 2 (decide (10 ^ 12 ≤ va + vb)))),
        (.bbw o d a b, legalIf (profD w) (resP d 2 (decide (va < vb)))),
        (.bdaj o d a, legalIf (profD w) (resG d 2 (bcdOf (va % 10 ^ 12)))),
        (.b2d o d a, legalIf (profD w) (resG d 24 (if 10 ^ 12 ≤ A.toNat then toWord 0x999999999999 else bcdOf A.toNat))),
        (.d2b o d a, legalIf (profD w) (resG d 24 (toWord va))),
        (.bshl o d a x, legalIf (profD w) (resG d 1 (if 12 ≤ k then 0 else bcdOf (va % 10 ^ 12 * 10 ^ k % 10 ^ 12)))),
        (.bshr o d a x, legalIf (profD w) (resG d 1 (if 12 ≤ k then 0 else bcdOf (va % 10 ^ 12 / 10 ^ k))))],
      Gives s p.1 (s.chip.issues o.eng.val p.2)

/-! ### Slot B -/

/-- R113, R114: ladder operations deliver BA at distance 1; predicate moves deliver BA or their predicate; an edge operation leaves its
bit holding BA. A bit index from 48 to 63 is an illegal opcode. -/
def Obligations.LadderOperationsDeliverBa : Prop :=
  ∀ (s : State) (o : Op) (x : BitOpnd) (d a : RegNo) (n : BitVec 14) (i : BitVec 6), Alone s.chip o →
    let w := s.chip.work o.eng.val
    let e := o.eng.val
    let ba := w.arch.ba
    let b := s.chip.bitVal e x
    let old := s.chip.bitVal e (.dsp n i)
    let mark := [Eff.dmem n.toNat (putBit (s.chip.dWord e n.toNat) i.toNat ba)]
    ∀ p ∈ [(Instr.ldBa o x, legalIf (opndOk x) (resBA b)), (.ldnBa o x, legalIf (opndOk x) (resBA !b)),
        (.andBa o x, legalIf (opndOk x) (resBA (ba && b))), (.andnBa o x, legalIf (opndOk x) (resBA (ba && !b))),
        (.orBa o x, legalIf (opndOk x) (resBA (ba || b))), (.ornBa o x, legalIf (opndOk x) (resBA (ba || !b))),
        (.xorBa o x, legalIf (opndOk x) (resBA (ba.xor b))), (.notba o, did (resBA !ba)),
        (.ba2p o d, did (resP d 1 ba)), (.p2ba o a, did (resBA (pRead w (predOf a)))),
        (.andp o a, did (resBA (ba && pRead w (predOf a)))), (.orp o a, did (resBA (ba || pRead w (predOf a)))),
        (.push o, did [.push]), (.popa o, did (resBA (ba && rungTop w) ++ [.pop])), (.popo o, did (resBA (ba || rungTop w) ++ [.pop])),
        (.red o n i, legalIf (bitOk i) (resBA (ba && !old) ++ mark)), (.fed o n i, legalIf (bitOk i) (resBA (old && !ba) ++ mark))],
      Gives s p.1 (s.chip.issues e p.2)

/-- R113, R96: a ladder operation writes its bit from BA; `set` and `rst` write nothing while BA is 0; a bit of an I/O word that the class
does not own is an ownership violation. -/
def Obligations.LadderOperationsWriteBits : Prop :=
  ∀ (s : State) (o : Op) (x : BitOpnd), Alone s.chip o →
    let c := s.chip
    let e := o.eng.val
    let ba := (c.work e).arch.ba
    let put (v : Bool) : Except ProgFault Did :=
      if opndOk x then
        match x with
        | .dsp n i => did [.dmem n.toNat (putBit (c.dWord e n.toNat) i.toNat v)]
        | .io n i => (match c.classOf e with
          | some k => if ownsIo (c.cl k) n.toNat then did [.io n.toNat (putBit (c.ioWord e n.toNat) i.toNat v)] else .error .ownership
          | none => .error .ownership)
      else .error .illegalOpcode
    ∀ p ∈ [(Instr.outBit o x, put ba), (.outnBit o x, put !ba),
        (.setBit o x, if ba then put true else legalIf (opndOk x) []), (.rstBit o x, if ba then put false else legalIf (opndOk x) [])],
      Gives s p.1 (c.issues e p.2)

/-- R115, R116, R117: a timer or counter word is evaluated with BA, written back, and BA takes Q at distance 1; `cld` leaves BA. -/
def Obligations.TimersAndCountersEvaluate : Prop :=
  ∀ (s : State) (o : Op) (a b : RegNo) (u : BitVec 2), Alone s.chip o →
    let c := s.chip
    let w := c.work o.eng.val
    let e := o.eng.val
    let ba := w.arch.ba
    let ad := (gRead w a).toNat % 2 ^ 15
    let x := c.dWord e ad
    let G := gRead w b
    let timer (f : TimerWord → Nat → Nat → Bool → TimerWord) : List Eff :=
      let t := f (TimerWord.ofWord x) (c.timerTick e) (min (G.toNat * unitTicks u) (2 ^ 43 - 1)) ba
      resBA t.q ++ [.dmem ad t.toWord]
    let up := if ba && !ctrIn x then min (ctrVal x + 1) (2 ^ 47 - 1) else ctrVal x
    let down := if ba && !ctrIn x then ctrVal x - 1 else ctrVal x
    ∀ p ∈ [(Instr.ton o a b u, timer evalTon), (.tof o a b u, timer evalTof), (.tp o a b u, timer evalTp),
        (.ctu o a b, resBA (decide (G.toNat ≤ up)) ++ [.dmem ad (ctrWord ba up)]),
        (.ctd o a b, resBA (down == 0) ++ [.dmem ad (ctrWord ba down)]),
        (.cld o a b, [.dmem ad (if ba then ctrWord (ctrIn x) (min G.toNat (2 ^ 47 - 1)) else x)])],
      Gives s p.1 (c.carries e p.2 none)

/-! ### Slot M -/

/-- R129, R130, R131, R91, R97: loads deliver the word at their address at the distance of Table 03-13. A direct read delivers the latest
item at the port with the lower-ranked of its quality and its source's, and what `in.w` delivers where nothing arrives. -/
def Obligations.LoadsDeliverMemory : Prop :=
  (∀ (c : Chip) (k : Cls) (g : ClsCfg) (a : Nat), k.cfg = some g →
    ((∀ p ∈ g.inputs, ¬ (p.addr ≤ a ∧ a < p.addr + placeLen p)) → g.remote = [] → c.directRead k a = ioRead k a) ∧
    ∀ (p : Place) (x : Item) (ch : Fin 8) (v : Word) (l : List Word), g.inputs = [p] → p.src = .ai ch → p.addr = a → 0 < placeLen p →
      k.items = [x] → x.src = .ai ch → x.vals = v :: l →
      c.directRead k a = toWord (setFieldOf v.toNat 47 44 (qMin (itemQ x) (c.sourceQ (.ai ch))))) ∧
  ∀ (s : State) (o : Op) (d a : RegNo) (x : Src) (im : BitVec 8), Alone s.chip o →
    let c := s.chip
    let w := c.work o.eng.val
    let e := o.eng.val
    let ad (k : Nat) := (gRead w a + srcVal w true x).toNat % 2 ^ k
    let word := (gRead w a).toNat % 2 ^ 26 / 64
    let bit := (gRead w a).toNat % 64
    ∀ p ∈ [(Instr.ldD o d a x, 3, c.dWord e (ad 15)), (.ldG o d a x, 8, c.gWord e (ad 20)), (.ldi o d a x, 3, c.iHalf e (ad 15)),
        (.inW o d a x, 4, c.ioWord e (ad 20)),
        (.inB o d a, 4, if bit < 48 ∧ (c.ioWord e word).getLsbD bit = true then 1 else 0),
        (.inX o d a im, 4, match c.classOf e with
          | some n => c.directRead (c.cl n) ((gRead w a + immVal w true im).toNat % 2 ^ 20)
          | none => 0),
        (.mbget o d a x, 4, c.ioWord e (0x4000 + ad 14)),
        (.mbhdr o d a im, 4, c.headerAt e (0x4000 + (gRead w a + immVal w true im).toNat % 2 ^ 14))],
      Gives s p.1 (c.carries e (resG d p.2.1 p.2.2) none)

/-- R129, R131, R132, R93, R96: stores put their register into the word at their address; a word outside the partition or not owned, and
a scheduled write of an output not owned, is an ownership violation. -/
def Obligations.StoresWriteMemory : Prop :=
  ∀ (s : State) (o : Op) (v a b : RegNo) (x : Src), Alone s.chip o →
    let c := s.chip
    let w := c.work o.eng.val
    let e := o.eng.val
    let V := gRead w v
    let ad (k : Nat) := (gRead w a + srcVal w true x).toNat % 2 ^ k
    let word := (gRead w a).toNat % 2 ^ 26 / 64
    let bit := (gRead w a).toNat % 64
    let mine (p : Nat → Bool) (l : List Eff) : Except ProgFault Did := match c.classOf e with
      | some n => if p n then did l else .error .ownership
      | none => .error .ownership
    ∀ p ∈ [(Instr.stD o v a x, did [.dmem (ad 15) V]),
        (.stG o v a x, mine (fun n => inPart (c.cl n) (ad 20)) [.gmem (ad 20) V]),
        (.outW o v a x, mine (fun n => ownsIo (c.cl n) (ad 20)) [.io (ad 20) V]),
        (.outB o v a, if bit < 48 then
            mine (fun n => ownsIo (c.cl n) word) [.io word (putBit (c.ioWord e word) bit (V.getLsbD 0))]
          else did []),
        (.mbput o v a x, mine (fun n => ownsIo (c.cl n) (0x4000 + ad 14)) ([.io (0x4000 + ad 14) V] ++
          (match c.boxAt (0x4000 + ad 14) with
            | some (_, y) => [.mbMark (y.base - 0x4000)]
            | none => []))),
        (.sow o a b, if pairOk a then mine (fun n => descOwned (c.cl n) (gRead w b)) [.sched (schedOf (tRead w a) (gRead w b)
            ((c.classOf e).getD 0) e (match (c.cl ((c.classOf e).getD 0)).cycle with | some cy => cy.m | none => 0))]
          else .error .illegalOpcode)],
      Gives s p.1 (c.issues e p.2)

/-! ### Slot C and the region controller -/

/-- R133, R134, R54, R135, R136: control operations; one of them in a delay bundle is an illegal opcode (R103), and so is an event
operation or a timed wait under profile D (R100). -/
def Obligations.ControlOperationsSteerIssue : Prop :=
  ∀ (s : State) (o : Op) (t : Instant) (g : Target) (d a : RegNo) (b : BitVec 14) (k : LoopCount) (mask im : BitVec 8), AloneCtl s.chip o →
    let c := s.chip
    let w := c.work o.eng.val
    let e := o.eng.val
    let flowIf (legal : Bool) (f : Ctl) : Except ProgFault Did := if legal then .ok ⟨[], some f⟩ else .error .illegalOpcode
    let free := decide (w.delay = 0)
    let dest := match g with
      | .bundle n => n.toNat
      | .reg r => (gRead w r).toNat % 2 ^ 14
    let times := match k with
      | .count n => n.toNat
      | .reg r => (gRead w r).toNat
    (∀ p ∈ [(Instr.br o g, flowIf free (.branch (some dest))), (.call o g, flowIf free (.callTo (some dest))),
        (.ret o, flowIf free (.retTo true)), (.loop o b k, flowIf free (.loopTo b.toNat times)),
        (.rcl o, did [.rcl]), (.cnf o, did [.cnf]),
        (.wfe o d, flowIf (!profD w) (.waitEvent (d.toNat % 16))), (.clev o d, legalIf (!profD w) [.clev (d.toNat % 16)])],
      Gives s p.1 (c.issues e p.2)) ∧
    ∀ p ∈ [(Instr.eoc o t, flowIf free (.endCycle t)), (.sev o t d mask, legalIf (!profD w) [.sev t (d.toNat % 16) mask.toNat]),
        (.wtu o t a im, flowIf (!profD w) (.waitTk ((gRead w a).toInt + im.toInt) ((c.at_ t).tkAt e t)))],
      Gives s p.1 ((c.at_ t).issues e p.2)

/-! ### Guards, bundles, results -/

/-- R75: a write of G0 or P0 is discarded; the operation executes in every other respect and the write never collides. -/
def Obligations.WritesOfZeroRegistersAreDiscarded : Prop :=
  (∀ (s : State) (o : Op) (a : RegNo) (x : Src), Alone s.chip o →
    Gives s (.add o 0 a x) (s.chip.carries o.eng.val [] none) ∧ Gives s (.ldD o 0 a x) (s.chip.carries o.eng.val [] none) ∧
    ∀ d, predOf d = 0 → Gives s (.cmpEq o d a x) (s.chip.carries o.eng.val [] none)) ∧
  (∀ (n : RegNo) (k v j : Nat) (x u : Word) (b : Bool) (p : TimePair),
    Eff.res (.g 0) j u ∉ resG n k x ++ resS n k v ++ resD n k v ++ resT n k p ∧ Eff.res (.p 0) j u ∉ resP n k b) ∧
  ∀ w : Work, gRead w 0 = 0 ∧ pRead w 0 = true

/-- Tables 03-6 and 03-15, R87, R99, R108: an operation whose guard fails does nothing; a squashed branch, call or return keeps its delay bundles,
without a target. An operation with an illegal operand field, of the other profile, or a control operation in a delay bundle raises an illegal
opcode, whether or not its guard passes; so do 32 bits that stand for no operation of the engine in their slot. -/
def Obligations.SquashedOperationsDoNothingAndIllegalOnesFault : Prop :=
  (∀ (s : State) (i : Instr) (o : Op), i.op = some o → Ready s.chip o.eng.val → o.last = true →
    (i.slot ≠ .c ∨ (s.chip.work o.eng.val).bundle.imm = none) → guardOk (s.chip.work o.eng.val) o = false → operandsLegal i = true →
    (∀ d, profileOnly i = some d → profD (s.chip.work o.eng.val) = d) →
    (isControl i = true → (s.chip.work o.eng.val).delay = 0) →
    Gives s i ((s.chip.timed i).carries o.eng.val [] (squashCtl i))) ∧
  ((∀ (s : State) (i : Instr) (o : Op), i.op = some o → Ready s.chip o.eng.val → o.last = true →
    (i.slot ≠ .c ∨ (s.chip.work o.eng.val).bundle.imm = none) →
    (operandsLegal i = false ∨ (∃ d, profileOnly i = some d ∧ profD (s.chip.work o.eng.val) ≠ d) ∨
      (isControl i = true ∧ (s.chip.work o.eng.val).delay ≠ 0)) →
    Gives s i ((s.chip.timed i).raise o.eng.val .illegalOpcode)) ∧
  ∀ (s : State) (e : Fin 32) (slot : Slot) (w : BitVec 32), Ready s.chip e.val →
    (slot ≠ .c ∨ (s.chip.work e.val).bundle.imm = none) → decodeOp e true (profD (s.chip.work e.val)) 0 slot w = none →
    Gives s (.illegalOpcode e true slot w) (s.chip.raise e.val .illegalOpcode))

/-- R85, R86, R89, R90, R103: an operation that is not the last of its bundle changes the open bundle of its engine alone (log 4); an engine
that does not issue takes none (R102, log 3), nor does a bundle whose slot is taken. The last operation of a bundle issues all its operations
together, each on the values before the bundle. An `imm` gives the form I operations of its bundle X:IMM8; alone it has no effect, in a delay
bundle it is an illegal opcode (log 138); a `nop` has no effect. -/
def Obligations.BundlesGatherAndTakeEffectWhole : Prop :=
  (∀ (s : State) (i : Instr) (o : Op), i.op = some o →
    let b := (s.chip.work o.eng.val).bundle;
    (o.last = false → (s.chip.work o.eng.val).run = .issuing → slotFree b i.slot = true →
      ∃ b', b'.used = i.slot :: b.used ∧ Gives s i ((s.chip.timed i).modWork o.eng.val (fun w => { w with bundle := b' }))) ∧
    ((s.chip.work o.eng.val).run ≠ .issuing ∨ i.slot ∈ b.used → Gives s i (s.chip.timed i))) ∧
  (∀ (s : State) (o : Op) (d a v : RegNo) (x : Src) (l : List Eff) (ctl : Option Ctl) (im : Option (Bool × BitVec 28)) (us : List Slot),
    let w := s.chip.work o.eng.val
    w.run = .issuing → w.bundle = ⟨l, ctl, im, none, us⟩ → o.last = true → guardOk w o = true → dueAt w.flights w.issued = [] →
    storesCollide l = false → s.chip.signatureOk o.eng.val = true →
    (slotFree w.bundle .a = true →
      Gives s (.add o d a x) (s.chip.carries o.eng.val (l ++ resG d 1 (gRead w a + srcVal w true x)) ctl)) ∧
    (slotFree w.bundle .b = true → Gives s (.push o) (s.chip.carries o.eng.val (l ++ [.push]) ctl)) ∧
    (slotFree w.bundle .c = true → Gives s (.rcl o) (s.chip.carries o.eng.val (l ++ [.rcl]) ctl)) ∧
    (∀ ad, ad = addrOf w 15 a x → slotFree w.bundle .m = true → (∀ u, Eff.dmem ad u ∉ l) →
      Gives s (.stD o v a x) (s.chip.carries o.eng.val (l ++ [.dmem ad (gRead w v)]) ctl)) ∧
    (∀ ad u, ad = addrOf w 15 a x → slotFree w.bundle .m = true → Eff.dmem ad u ∈ l →
      Gives s (.stD o v a x) (s.chip.raise o.eng.val .writeCollision))) ∧
  (∀ (s : State) (e : Fin 32) (sx : Bool) (x : BitVec 28) (i : BitVec 8), Ready s.chip e.val →
    Gives s (.nop e true) (s.chip.carries e.val [] none) ∧
    Gives s (.nop e false) (s.chip.modWork e.val (fun w =>
      { w with bundle := { w.bundle with used := nextSlot w.bundle :: w.bundle.used } })) ∧
    ((s.chip.work e.val).bundle.imm = none → (s.chip.work e.val).delay = 0 →
      Gives s (.imm e true sx x) (s.chip.carries e.val [] none)) ∧
    ((s.chip.work e.val).bundle.imm = none → (s.chip.work e.val).delay ≠ 0 →
      Gives s (.imm e true sx x) (s.chip.raise e.val .illegalOpcode)) ∧
    ∀ w : Work, w.bundle.imm = some (sx, x) → ∀ signed,
      immVal w signed i = if sx then (x ++ i).signExtend 48 else (x ++ i).zeroExtend 48)

/-- R101, R107, R108: a bundle's results that are due at the next bundle, and they alone, stand in their destinations when that bundle issues;
every other result stays in flight. Two results that meet at one destination in one bundle leave it as it was, and that bundle is a write
collision. -/
def Obligations.ResultsLandAtTheirBundleOrCollide : Prop :=
  (∀ (w : Work) (pcw : Nat) (ctl : Option Ctl),
    let w' := nextWork w pcw ctl;
    (∀ f ∈ w.flights, f.due = w.issued + 1 → meets w.flights f = false) →
    w'.flights = w.flights.filter (fun f => f.due != w.issued + 1) ∧
    (∀ f ∈ w.flights, f.due = w.issued + 1 → match f.dest with
      | .g n => WMem.get w'.arch.g n = f.val
      | .p n => n < 16 → w'.arch.p.getLsbD n = f.val.getLsbD 0
      | .ba => w'.arch.ba = f.val.getLsbD 0) ∧
    (∀ n, NoneDue w (.g n) → WMem.get w'.arch.g n = WMem.get w.arch.g n) ∧
    (∀ n, NoneDue w (.p n) → w'.arch.p.getLsbD n = w.arch.p.getLsbD n) ∧
    (NoneDue w .ba → w'.arch.ba = w.arch.ba) ∧ w'.issued = w.issued + 1) ∧
(∀ (w : Work) (pcw : Nat) (ctl : Option Ctl) (f : Flight),
    let w' := nextWork w pcw ctl
    f ∈ w.flights → f.due = w.issued + 1 → meets w.flights f = true →
    f ∈ dueAt w'.flights w'.issued ∧
    match f.dest with
      | .g n => WMem.get w'.arch.g n = WMem.get w.arch.g n
      | .p n => w'.arch.p.getLsbD n = w.arch.p.getLsbD n
      | .ba => w'.arch.ba = w.arch.ba) ∧
  ∀ (s : State) (o : Op) (d a : RegNo) (x : Src),
    let w := s.chip.work o.eng.val
    w.run = .issuing → w.bundle = emptyBundle → o.last = true → dueAt w.flights w.issued ≠ [] → s.chip.signatureOk o.eng.val = true →
    Gives s (.add o d a x) (s.chip.raise o.eng.val .writeCollision)

/-- R98, R153, and the frames of results and stores: an operation with one result changes its own work alone, and there, while nothing else is
due, the register it names; a store changes one word of its own space, no other memory and no register of the dictionary; the first store
of a word since the milestone keeps its old value for the undo. -/
def Obligations.AResultOrStoreChangesOnePlace : Prop :=
  (∀ (s : State) (o : Op) (d a : RegNo) (x : Src), Alone s.chip o → d ≠ 0 →
    let c := s.chip
    let w := c.work o.eng.val;
    (∀ f ∈ w.flights, f.due ≠ w.issued + 1) →
    ∃ c', Gives s (.add o d a x) c' ∧ c' = { c with works := c'.works } ∧ (∀ e ≠ o.eng.val, c'.work e = c.work e) ∧
      let w' := c'.work o.eng.val
      gRead w' d = gRead w a + srcVal w true x ∧ (∀ n ≠ d, gRead w' n = gRead w n) ∧ w'.arch.p = w.arch.p ∧ w'.arch.ba = w.arch.ba ∧
      w'.arch.rung = w.arch.rung ∧ w'.flights = w.flights ∧ w'.undo = w.undo ∧ w'.flags = w.flags ∧
      (w.delay = 0 → w'.arch.ret = w.arch.ret ∧ (w.arch.loops = [] → w'.arch.pc = (w.arch.pc + 1) % 16384 ∧ w'.arch.loops = []))) ∧
  ∀ (c : Chip) (e a : Nat) (v : Word),
    (let c' := c.carries e [.dmem a v] none;
      (∀ e' a', c'.dWord e' a' = if e' = e ∧ a' = a then v else c.dWord e' a') ∧
      c'.regions = c.regions ∧ c'.cls = c.cls ∧ c'.regs = c.regs ∧ c'.ibank = c.ibank ∧ (∀ e' ≠ e, c'.work e' = c.work e') ∧
      ((∀ u, Undo.dword a u ∉ (c.work e).undo) → (c'.work e).undo = .dword a (c.dWord e a) :: (c.work e).undo) ∧
      (∀ u, Undo.dword a u ∈ (c.work e).undo → (c'.work e).undo = (c.work e).undo)) ∧
    (let c' := c.carries e [.gmem a v] none;
      (∀ r a', WMem.get (c'.region r).gmem a' = if r = e / 8 ∧ a' = a then v else WMem.get (c.region r).gmem a') ∧
      c'.dbank = c.dbank ∧ c'.cls = c.cls ∧ c'.regs = c.regs ∧ c'.ibank = c.ibank ∧ (∀ e' ≠ e, c'.work e' = c.work e')) ∧
    (∀ n cy, c.classOf e = some n → (c.cl n).cycle = some cy →
      let c' := c.carries e [.io a v] none;
      (∀ a', ioWorking (c'.cl n) a' = if a' = a then v else ioWorking (c.cl n) a') ∧
      (∀ m ≠ n, c'.cl m = c.cl m) ∧ c'.dbank = c.dbank ∧ c'.regions = c.regions ∧ c'.regs = c.regs ∧
      (∀ e' ≠ e, c'.work e' = c.work e'))

/-- R27, R28, R54, R105, R108: a program fault leaves the architectural state and every memory as they were, stops the engine, holds the other
members that issue or wait, and is held by the region controller where it holds none. `eoc` ends the cycle of its member: nothing issues after
it, results in flight are discarded, and with the last member E has come. -/
def Obligations.AProgramFaultOrEocEndsTheWork : Prop :=
  (∀ (c : Chip) (e n : Nat) (f : ProgFault), c.classOf e = some n →
    let c' := c.raise e f;
    (c'.work e).run = .faulted f ∧ (c'.work e).arch = (c.work e).arch ∧ (c'.work e).bundle = emptyBundle ∧
    (∀ m ∈ clsTeam (c.cl n), m ≠ e → (c.work m).run = .issuing → (c'.work m).run = .teamHeld ∧ (c'.work m).saved = .issuing) ∧
    (∀ m, m ∉ clsTeam (c.cl n) → m ≠ e → c'.work m = c.work m) ∧
    c'.dbank = c.dbank ∧ c'.regions = c.regions ∧ c'.regs = c.regs ∧
    ((c.cl n).held = none → (c'.cl n).held = some ⟨e, f, c.cy n, (c.work e).arch.pc, c.now⟩) ∧
    (∀ m ≠ n, c'.cl m = c.cl m)) ∧
  (∀ (s : State) (o : Op) (t : Instant) (n : Nat) (cy : Cycle), AloneCtl s.chip o → (s.chip.work o.eng.val).delay = 0 →
    s.chip.classOf o.eng.val = some n → (s.chip.cl n).cycle = some cy →
    ∃ c', Gives s (.eoc o t) c' ∧ (c'.work o.eng.val).run = .done ∧ (c'.work o.eng.val).flights = [] ∧
      ∃ cy', (c'.cl n).cycle = some cy' ∧ cy'.done = cy.done + 1 ∧
        cy'.eocAt = (if cy.done + 1 = (clsTeam (s.chip.cl n)).length then some t else cy.eocAt) ∧
        cy'.work = cy.work ∧ cy'.marks = cy.marks ∧ cy'.sched = cy.sched)

/-! ### The next bundle -/

/-- R92, R103, R104, R133, R134: where issue goes: sequentially modulo 16 384; after a taken branch, call or return through two delay
bundles to the target; round a hardware loop without delay. -/
def Obligations.IssueFollowsControl : Prop :=
  ∀ (w : Work) (p q t n : Nat),
    w.delay = 0 → w.arch.loops = [] →
    let on (w : Work) := nextWork w q none;
    (on w).arch.pc = (w.arch.pc + 1) % 16384 ∧
    (let w1 := nextWork w p (some (.branch (some t)));
      w1.arch.pc = (w.arch.pc + 1) % 16384 ∧ (on w1).arch.pc = (w1.arch.pc + 1) % 16384 ∧ (on (on w1)).arch.pc = t ∧ (on (on w1)).delay = 0) ∧
    (let w1 := nextWork w p (some (.branch none));
      (on (on w1)).arch.pc = ((w1.arch.pc + 1) % 16384 + 1) % 16384 ∧ (on (on w1)).delay = 0) ∧
    (let w1 := nextWork w p (some (.callTo (some t)));
      (on (on w1)).arch.pc = t ∧ w1.arch.ret = ((w.arch.pc + 3) % 16384 :: w.arch.ret).take 8) ∧
    (let w1 := nextWork w p (some (.retTo true));
      (on (on w1)).arch.pc = w.arch.ret.headD 0 ∧ w1.arch.ret = w.arch.ret.tail) ∧
    (nextWork w p (some (.loopTo t 0))).arch.pc = (t + 1) % 16384 ∧
    (0 < n → let w1 := nextWork w p (some (.loopTo t n));
      w1.arch.pc = (w.arch.pc + 1) % 16384 ∧ w1.arch.loops = [⟨(w.arch.pc + 1) % 16384, t, n⟩]) ∧
    (∀ a b k, let w1 := { w with arch := { w.arch with pc := b, loops := [⟨a, b, k⟩] } }
      (1 < k → (on w1).arch.pc = a ∧ (on w1).arch.loops = [⟨a, b, k - 1⟩]) ∧
      (k ≤ 1 → (on w1).arch.pc = (b + 1) % 16384 ∧ (on w1).arch.loops = []))

/-- R106, R137, R138: `wfe` goes on with its flag set, which it clears, and otherwise holds the member; `clev` clears a flag; an event
that arrives releases the member held on it, or sets the flag; a `wtu` holds until TK has reached its operand. -/
def Obligations.EventsAndTimedWaitsHoldAndRelease : Prop :=
  (∀ (s : State) (o : Op) (d : RegNo), AloneCtl s.chip o → profD (s.chip.work o.eng.val) = false →
    let ev := d.toNat % 16
    let had := NMem.has (s.chip.work o.eng.val).flags ev;
    (∃ c', Gives s (.wfe o d) c' ∧ (c'.work o.eng.val).run = (if had then .issuing else .waitEvent ev) ∧
      NMem.has (c'.work o.eng.val).flags ev = false) ∧
    ∃ c', Gives s (.clev o d) c' ∧ NMem.has (c'.work o.eng.val).flags ev = false ∧ (c'.work o.eng.val).run = .issuing) ∧
  (∀ (s : State) (o : Op) (t : Instant) (a : RegNo) (i : BitVec 8), AloneCtl s.chip o → profD (s.chip.work o.eng.val) = false →
    let tk := (gRead (s.chip.work o.eng.val) a).toInt + i.toInt
    ∃ c', Gives s (.wtu o t a i) c' ∧
      (c'.work o.eng.val).run = (if tk ≤ (s.chip.at_ t).tkAt o.eng.val t then .issuing else .waitTk tk)) ∧
  (∀ (s : State) (t : Instant) (k : Nat) (f : EventInFlight), s.chip.evFlight[k]? = some f → f.at_ ≤ t →
    let w := s.chip.work f.target
    ∃ c', Gives s (.eventArrival t k) c' ∧ c'.evFlight = s.chip.evFlight.eraseIdx k ∧ (∀ e ≠ f.target, c'.work e = s.chip.work e) ∧
      (w.run = .waitEvent f.event → (c'.work f.target).run = .issuing ∧ (c'.work f.target).flags = w.flags) ∧
      (w.run ≠ .waitEvent f.event → (c'.work f.target).run = w.run ∧ NMem.has (c'.work f.target).flags f.event = true)) ∧
  ∀ (s : State) (t : Instant) (e : Fin 32) (tk : Int), (s.chip.work e.val).run = .waitTk tk → tk ≤ s.chip.tkAt e.val t →
    ∃ c', Gives s (.wtuWaitEnd t e) c' ∧ (c'.work e.val).run = .issuing ∧ (c'.work e.val).arch = (s.chip.work e.val).arch ∧
      ∀ k ≠ e.val, c'.work k = s.chip.work k

/-- R144: where the signature that the bundle at the PC brings is not the one its check point expects, no operation of the bundle takes effect and
the engine issues no more. R143, R146, R147, R151: at a marked point that is a check point a milestone puts the architectural state into the next of the two ledger slots, one milestone number on, empties
the undo buffer and leaves the architectural state. -/
def Obligations.AMilestoneFillsTheNextLedgerSlot : Prop :=
  (∀ (s : State) (o : Op) (d a : RegNo) (x : Src), (s.chip.work o.eng.val).run = .issuing → slotFree (s.chip.work o.eng.val).bundle .a = true →
    o.last = true → s.chip.signatureOk o.eng.val = false →
    Gives s (.add o d a x) (s.chip.modWork o.eng.val (fun w => { w with run := .mismatch, bundle := emptyBundle }))) ∧
  ∀ (s : State) (t : Instant) (e : Fin 32),
    let w := s.chip.work e.val
    w.run = .issuing → s.chip.milestoneDue e.val = true → atMilestonePoint w = true → s.chip.atMarkedPoint e.val = true →
    ∃ c', Gives s (.milestone t e) c' ∧
      let w' := c'.work e.val
      w'.arch = w.arch ∧ w'.undo = [] ∧ w'.sinceMs = 0 ∧ slot1Valid w' = !slot1Valid w ∧
      (validSlot w').arch = w.arch ∧ (validSlot w').isb = w.issued ∧ (validSlot w').ent = false ∧
      (validSlot w').swn = s.chip.schedBy e.val ∧ (validSlot w').msn = ((validSlot w).msn + 1) % 2 ^ 31 ∧
      (if slot1Valid w then w'.slot1 = w.slot1 else w'.slot0 = w.slot0) ∧
      c'.rd 0x2300 0x07 = (s.chip.rd 0x2300 0x07 + 1) % 2 ^ 48 ∧ (∀ k ≠ e.val, c'.work k = s.chip.work k)

/-! ### Supplies, start-up, faults -/

/-- R401, R410, R413-R417, Table 15-6: how the supplies take the chip through its phases, and that start-up ends with READY raised and the
dictionary answering. -/
def Obligations.SuppliesTakeTheChipThroughItsPhases : Prop :=
  ∀ (s : State) (t : Instant) (f : StartUp) (s2 on : Bool) (cut : Option (FlashWrite × FlashCut)) (save : Option (Fin 8 × FlashCut))
    (er : Option (FlashArea × Fin 128 × Bool)),
    let c := s.chip;
    (∀ p ∈ [(Instr.powerUp t f, c.power.phase = .off ∨ c.power.phase = .pd0Alone),
        (.startUpRetry t f, c.power.phase = .stopped ∧ ∀ u, c.power.stopAt = some u → u + 1000000000 ≤ t),
        (.startUpRetry t f, c.power.phase = .ready ∧ c.pairState = psFenced ∧ c.pair.fencedBy = 11 ∧ c.power.restartCause = 2),
        (.vinReturn t f, c.power.phase = .camp)],
      p.2 → ∃ c', Gives s p.1 c' ∧
        c'.power.phase = (if f.testMode then .factoryTest else if f.monitorTrip then .stopped
          else if f.fwBank = none then .recovery else if f.flash.cut = none then .ready
          else if c.pd0On = true ∧ c.power.readySeen = true then .camp else .pd0Alone) ∧
        (c'.power.phase = .ready → c'.rd 0x2000 0x05 = 1 ∧ c'.dict.mssUp = true ∧ c'.power.readyN = false ∧ c'.power.lossAt = none) ∧
        (c'.power.phase = .stopped → c'.power.stopAt = some t)) ∧
    (c.power.vin = true → ∃ c', Gives s (.vinLoss ⟨t, cut, save, er⟩) c' ∧ c'.power.vin = false ∧ c'.dict.mssUp = false ∧
      c'.dict.sessions = [] ∧ c'.rd 0x2000 0x05 = 0 ∧
      c'.power.phase = (if c.power.readySeen then .camp else .pd0Alone) ∧ c'.meas.campOn = c.power.readySeen ∧
      (c.power.readySeen = true → c'.power.lossAt = some t)) ∧
    (c.power.phase = .camp → c.power.vf1 = false → c.power.vf2 = false → ∃ c', Gives s (.vbakLowInCamp t) c' ∧
      c'.power.phase = .pd0Alone ∧ c'.power.vbakAt = some t ∧ c'.meas.campOn = false ∧ c'.cal = c.cal ∧ c'.campRecs = c.campRecs) ∧
    (c.pd0On = true → c.power.vin = false → ∃ c', Gives s (.pd0PowerLoss t) c' ∧ c'.power.phase = .off ∧ c'.pd0On = false ∧
      c'.cal = Calendar.reset ∧ c'.wd = Watchdog.reset ∧ c'.campRecs = [] ∧ c'.store = c.store ∧ c'.recd = c.recd) ∧
    (c.pd0On = false → ∃ c', Gives s (.pd0PowerUp t) c' ∧ c'.power.phase = .pd0Alone ∧ c'.pd0On = true ∧
      c'.cal = Calendar.reset ∧ c'.wd = Watchdog.reset ∧ c'.campRecs = [] ∧ c'.power.readySeen = false) ∧
    ∃ c', Gives s (.vfSourceChange t s2 on) c' ∧ c' = { c with now := t, power := c'.power } ∧
      (if s2 then c'.power.vf2 = on ∧ c'.power.vf1 = c.power.vf1 else c'.power.vf1 = on ∧ c'.power.vf2 = c.power.vf2) ∧
      c'.power.phase = c.power.phase ∧ (c.pd0On = true → c'.power.pd0Src = pd0Source c'.power)

/-- R342, R404, R416, Table 11-11: what a sensor refresh and a measurement of VBAK write, and the events of their crossings. -/
def Obligations.SensorsAreReportedAndTheirCrossingsRecorded : Prop :=
  ∀ (s : State) (t : Instant) (vin vf1 vf2 power core base field v : BitVec 32), s.chip.running = true →
    let c := s.chip;
    (∃ c', Gives s (.sensorRefresh t vin vf1 vf2 power core base field) c' ∧
      c' = { c with now := t, regs := c'.regs, recd := c'.recd, power := { c.power with overTemp := real32Lt real115 core } } ∧
      SameRegs c c' [(0x2F00, 1), (0x2F00, 2), (0x2F00, 3), (0x2F00, 6), (0x2F00, 7), (0x2F00, 8), (0x2F00, 9), (0x2F00, 0x0B), (0x2B00, 9)] ∧
      c'.rd 0x2F00 1 = vin.toNat ∧ c'.rd 0x2F00 2 = vf1.toNat ∧ c'.rd 0x2F00 3 = vf2.toNat ∧ c'.rd 0x2F00 6 = power.toNat ∧
      c'.rd 0x2F00 7 = core.toNat ∧ c'.rd 0x2F00 8 = base.toNat ∧ c'.rd 0x2F00 9 = field.toNat ∧
      c'.rd 0x2F00 0x0B = (if real32Lt (BitVec.ofNat 32 (c.rd 0x2F00 0x0B)) core then core.toNat else c.rd 0x2F00 0x0B) ∧
      (real32Lt real115 core = false ∨ c.power.overTemp = true → c'.recd = c.recd) ∧
      (real32Lt real115 core = true → c.power.overTemp = false → c.recd.queue.length < 256 →
        c'.recd.queue.length = c.recd.queue.length + 1 ∧ ∃ r ∈ c'.recd.queue, r.code = 0x0F04 ∧ r.sev = sevMajor)) ∧
    ∃ c', Gives s (.vbakMeasurement t v) c' ∧ c' = { c with now := t, regs := c'.regs, recd := c'.recd } ∧ c'.rd 0x2F00 4 = v.toNat ∧
      (c.rd 0x2F00 5 = 0 → real32Le v realBelow26 = true → c'.rd 0x2F00 5 = 1) ∧
      (c.rd 0x2F00 5 = 0 → real32Le v realBelow26 = false → c'.rd 0x2F00 5 = 0 ∧ c'.recd = c.recd) ∧
      (c.rd 0x2F00 5 = 1 → real32Le realFrom27 v = true → c'.rd 0x2F00 5 = 0) ∧
      (c.rd 0x2F00 5 = 1 → real32Le realFrom27 v = false → c'.rd 0x2F00 5 = 1 ∧ c'.recd = c.recd)

/-- R15, R26, R30-R37, R358, R402, R440, Tables 01-6, 01-7: every hardware fault counts in 0x2100.05 and fences the function it is in; a correctable
error is written back, and a fenced bank is not reached; where the flash die's supply goes, the event records still queued are lost; a released fence ends at a muster of every
class that uses its function. -/
def Obligations.HardwareFaultsFenceTheirFunction : Prop :=
  ∀ (s : State) (t : Instant), s.chip.running = true →
    let c := s.chip
    let dieOf : Die → Nat
      | .field => 0
      | .sense => 1
    let fenced (i : Instr) (p : Nat) : Prop := ∃ c', Gives s i c' ∧ c'.portFenced p = true ∧
      c'.rd 0x2100 0x05 = (c.rd 0x2100 0x05 + 1) % 2 ^ 48 ∧ c'.power.fencesDue.testBit p = false ∧ (∀ n, c'.cl n = c.cl n) ∧
      c'.works = c.works ∧ (p = 0 → c'.field.linkUp = false ∧ c'.rd 0x2800 0x01 = 3) ∧ (p = 1 → c'.meas.senseLost = true)
    let due (d : Nat) : Prop := ∃ c', Gives s (.dieLinkRegained t (if d = 0 then .field else .sense)) c' ∧
      c' = { c with now := t, power := c'.power } ∧ c'.power.fencesDue.testBit d = true ∧
        ∀ q, q ≠ d → c'.power.fencesDue.testBit q = c.power.fencesDue.testBit q;
    (∀ p : PortBit, p.val ≠ 3 →
      fenced (.hardwareFault t (.port p)) p.val ∧
      (4 ≤ p.val → p.val < 10 → fenced (.clockFault t .nclk p) p.val) ∧ (10 ≤ p.val → p.val < 14 → fenced (.clockFault t .cclk p) p.val) ∧
      (p = 15 → fenced (.clockFault t .mclk p) 15) ∧ (p = 14 → fenced (.clockFault t .oclk p) 14) ∧
      (p = 0 → fenced (.clockFault t .fdclk p) 0) ∧ (p = 1 → fenced (.clockFault t .sdclk p) 1)) ∧
    (∀ d, fenced (.dieLinkLoss t d) (dieOf d)) ∧
    (∀ d, c.portFenced (dieOf d) = true → due (dieOf d)) ∧
    (∀ e : Fin 32, c.canAbdicate = false → (∀ k, (e.val, k) ∉ (c.region (e.val / 8)).banks) →
      ∀ i ∈ [Instr.hardwareFault t (.iBank e), .hardwareFault t (.dBank e), .hardwareFault t (.undoBuffer e),
        .scrub t (.iBank e 0) .uncorrectable, .scrub t (.dBank e 0) .uncorrectable],
      ∃ c', Gives s i c' ∧ c'.bit 0x2100 0x02 (12 + e.val) = true ∧ c'.rd 0x2100 0x05 = (c.rd 0x2100 0x05 + 1) % 2 ^ 48 ∧
        (∀ n, c.classOf e.val = some n → (c.cl n).cfg.isSome = true → c.clState n ≠ csNone → c'.clState n = csHwFault)) ∧
    (∀ (a : ScrubAt), (c.scrubs a = true → Gives s (.scrub t a .clean) (c.at_ t)) ∧ (c.scrubs a = false → ∀ x, Gives s (.scrub t a x) c)) ∧
    (∀ (e : Fin 32) (a : BitVec 15) (w : Nat), (e.val, BankKind.data) ∉ (c.region (e.val / 8)).banks → ∃ c', Gives s (.scrub t (.dBank e a) (.corrected w)) c' ∧
      c' = { c with now := t, regs := c'.regs, dbank := c'.dbank } ∧ c'.rd 0x2100 0x07 = (c.rd 0x2100 0x07 + 1) % 2 ^ 48 ∧
      ∀ k b, c'.dWord k b = if k = e.val ∧ b = a.toNat then toWord w else c.dWord k b) ∧
    (∀ (d : Fin 16) (cut : Option (FlashWrite × FlashCut)) (er : Option (FlashArea × Fin 128 × Bool)), d.val = 11 →
      ∃ c', Gives s (.supplyMonitorTrip ⟨t, cut, er⟩ d) c' ∧
      c'.portFenced 2 = true ∧ c'.rd 0x2F00 0x0A = c.rd 0x2F00 0x0A ∧
      ∃ r, c'.recd.queue = [r] ∧ r.code = 0x0113 ∧ r.unit = 4) ∧
    (∀ p : PortBit, isTick t = true → c.portFenced p.val = true → c.power.fencesDue.testBit p.val = true →
      (∀ n, n < 16 → isBusy (c.clState n) = true → c.usesPort n p.val = true →
        ∀ g, (c.cl n).cfg = some g → cfgReleased g (tickNo t) = true) →
      ∃ c', Gives s (.fenceEnd t p) c' ∧ c'.portFenced p.val = false ∧ c'.power.fencesDue.testBit p.val = false ∧
        (p = 0 → c.field.inReset = false → c'.field.linkUp = true) ∧ (p = 1 → c'.meas.senseLost = false))

/-- R154-R158, R161, R162: the 72 bits of an undo entry spell it; a hardware fault of an engine whose relief is ready fences the silicon and rolls its work back to the valid
milestone; the attachment hands the work to the relief, which goes on from there, and counts and reports the takeover. -/
def Obligations.TheReliefTakesAFailedEnginesWork : Prop :=
  ((∀ (a : Nat) (old : Word), a < 2 ^ 20 → undoOf (undoBits (.dword a old)) = .dword a old ∧ undoOf (undoBits (.gword a old)) = .gword a old ∧
      undoOf (undoBits (.ioword a old)) = .ioword a old) ∧
    (∀ e mask, e < 16 → mask < 256 → undoOf (undoBits (.sent e mask)) = .sent e mask ∧ undoOf (undoBits (.consumed e)) = .consumed e ∧
      ∀ b, undoOf (undoBits (.cleared e b)) = .cleared e b) ∧
    ∀ off, off < 2 ^ 14 → undoOf (undoBits (.mark off)) = .mark off) ∧
  ∀ (s : State) (t : Instant),
    let c := s.chip;
    (∀ (sil : Silicon) (src : Fin 5) (e n : Nat) (cy : Cycle), c.running = true → c.silFenced sil.val = false →
      (c.at_ t).workOf sil.val = some e → c.classOf e = some n → (c.cl n).cycle = some cy → cy.sealed = false → sealedBy cy t = false → (c.cl n).held = none →
      (c.region (e / 8)).attach = none → c.reliefState (e / 8) = 0 → (c.work e).undo = [] →
      ∃ c', Gives s (.hardwareFault t (.engine sil src)) c' ∧ c'.silFenced sil.val = true ∧ c'.reliefState (e / 8) = 1 ∧
        c'.rd 0x2100 0x05 = (c.rd 0x2100 0x05 + 1) % 2 ^ 48 ∧ (∀ k ≠ e, c'.work k = c.work k) ∧
        (c'.work e).run = .abdicated ∧ (c'.work e).flights = [] ∧ (c'.work e).undo = [] ∧ (c'.work e).bundle = emptyBundle ∧
        ((validSlot (c.work e)).ent = false → (c'.work e).arch = (validSlot (c.work e)).arch ∧
          (c'.work e).issued = (validSlot (c.work e)).isb) ∧ c'.dbank = c.dbank ∧
        ∃ at_, (c'.region (e / 8)).attach = some at_ ∧ at_.work = e ∧ at_.silFailed = sil.val ∧ at_.src = src.val) ∧
    (∀ (r : Fin 4) (x : Attach), c.running = true → (c.region r.val).attach = some x → x.work / 8 = r.val →
      ∃ c', Gives s (.reliefAttach t r) c' ∧ (c'.region r.val).attach = none ∧ c'.servedBy x.work = c.reliefSil r.val ∧
        (∀ k ≠ x.work, c'.work k = c.work k) ∧ (c'.work x.work).arch = (c.work x.work).arch ∧
        (c'.work x.work).run = (match c.classOf x.work with
          | some n => if (c.at_ t).unsealed n then (if (c.cl n).held.isSome then .teamHeld else .issuing) else .idle
          | none => .idle) ∧
        c'.rd 0x2300 0x05 = (c.rd 0x2300 0x05 + 1) % 2 ^ 48 ∧ c'.rdPair 0x2300 0x09 = (c.at_ t).pairAt x.faultAt ∧
        (c'.region (regOf x.silFailed)).tests = (c.region (regOf x.silFailed)).tests ++ [(x.silFailed, .asRelief, false)])

/-- R27, R28, R165, R168, R169: the result of a self-test fences or frees its silicon and returns it to its place; an idle test changes
nothing where it passes; a planned swap is prepared after the member's `eoc`; a program fault stands 1 µs after its detection. -/
def Obligations.SelfTestsAndHeldFaultsResolve : Prop :=
  ∀ (s : State) (t : Instant) (sil : Silicon),
    let c := s.chip
    let r := regOf sil.val;
    (∀ (k : TestKind) (rest : List (Nat × TestKind × Bool)) (asked pass : Bool), (c.region r).tests = (sil.val, k, asked) :: rest →
      ∃ c', Gives s (.selfTestComplete t sil pass) c' ∧
        ((pass = true ∨ k = .asRelief ∨ k = .reliefPass) → (c'.region r).tests = rest ∧ c'.works = c.works ∧ c'.cls = c.cls) ∧
        ((asked && !pass) = false → c.recd.queue.length < 256 →
          ∃ q ∈ c'.recd.queue, q.code = (if pass then 0x0502 else 0x0503) ∧ q.unit = c.testUnit sil.val k) ∧
        c'.silFenced sil.val = !pass ∧ (c'.rd 0x2300 0x31).testBit sil.val = !pass ∧
        (k = .asRelief → pass = true → c'.reliefSil r = codeOf sil.val ∧ c'.reliefState r = 0) ∧
        (k = .asRelief → pass = false → c'.reliefState r = 4) ∧
        (k = .reliefPass → c'.reliefState r = if pass then 0 else 4) ∧
        c'.rd 0x2100 0x05 = (if asked && !pass then (c.rd 0x2100 0x05 + 1) % 2 ^ 48 else c.rd 0x2100 0x05)) ∧
    (c.running = true → (∀ e, c.workOf sil.val = some e → (c.work e).run = .idle ∨ (c.work e).run = .done) →
      Gives s (.idleSelfTest t sil true) (c.at_ t) ∧
      (c.silFenced sil.val = false → c.workOf sil.val = none → (c.region r).attach = none →
        ∃ c', Gives s (.idleSelfTest t sil false) c' ∧ c'.silFenced sil.val = true ∧ c'.rd 0x2100 0x05 = (c.rd 0x2100 0x05 + 1) % 2 ^ 48 ∧
          (c.reliefSil r = codeOf sil.val → c'.reliefState r = 4))) ∧
    (∀ (r : Fin 4) (e : Nat), (c.region r.val).swap = some (e, false) → (c.work e).run = .done →
      Gives s (.plannedSwapPrepare t r) ((c.at_ t).modRegion r.val (fun x => { x with swap := some (e, true) }))) ∧
    ∀ (n : Fin 16) (h : HeldFault) (g : ClsCfg), (c.cl n.val).held = some h → (c.cl n.val).cfg = some g → h.t + 1000 ≤ t →
      ∃ c', Gives s (.programFaultHoldExpiry t n) c' ∧ c'.clState n.val = csProgFault ∧ (c'.cl n.val).cycle = none ∧
        (c'.cl n.val).held = none ∧ c'.rd 0x2100 0x06 = (c.rd 0x2100 0x06 + 1) % 2 ^ 48 ∧
        (isBusy (c.clState n.val) = true → (c'.cl n.val).safeAt = some (nextDispatch g t) ∧ (c'.cl n.val).stopAt = heldFrom (c.cl n.val).stopAt (nextDispatch g t)) ∧
        (c.recd.queue.length < 256 → ∃ q ∈ c'.recd.queue, q.code = 0x0201 ∧ q.sev = sevMajor ∧ q.unit = n.val)

/-- R18, R20, R35, R37, R61, R168, R169, R190-R192, Table 06-14: what writes of chapters 01, 02, 05 and 06 do where their conditions hold. -/
def Obligations.FaultAndPairWritesTakeEffect : Prop :=
  ∀ (s : State) (a : Acc) (v : Nat) (port : Fin 13),
    let b := fieldOf v 5 0
    ∀ p ∈ ([(Instr.selfTestRequest a v, 0x2300, 0x30, fun c => 32 ≤ b ∧ c.reliefState (b - 32) = 0,
          fun c _ => (c.setReliefState (b - 32) 3).queueTest (silOf (b - 32) (c.reliefSil (b - 32))) .reliefPass true),
        (.selfTestRequest a v, 0x2300, 0x30, fun c => b < 32 ∧ (∃ n, c.classOf b = some n ∧ isBusy (c.clState n) = true) ∧ c.reliefState (b / 8) = 0,
          fun c _ => (c.modRegion (b / 8) (fun x => { x with swap := some (b, false) })).setReliefState (b / 8) 2),
        (.selfTestRequest a v, 0x2300, 0x30, fun c => b < 32 ∧ (∃ n, c.classOf b = some n ∧ isBusy (c.clState n) = false) ∧
            c.testAsked (b / 8) = false ∧ c.servedBy b ≠ 15 ∧ c.reliefState (b / 8) = 0,
          fun c _ => ((c.relieve b).bump 0x2300 0x06).queueTest (silOf (b / 8) (c.servedBy b)) .asRelief true),
        (.selfTestRequest a v, 0x2300, 0x30, fun c => b < 32 ∧ c.classOf b = none ∧ c.testAsked (b / 8) = false ∧ c.servedBy b ≠ 15,
          fun c _ => (c.setBit 0x2100 0x01 (silOf (b / 8) (c.servedBy b)) true).queueTest (silOf (b / 8) (c.servedBy b)) .inPlace true),
        (.fenceRelease a v, 0x2100, 0x30, fun c => ∀ p < 16, v.testBit p = true → c.portFenced p = true → c.causeGone p = true,
          fun c _ => c.draw.modPower (fun x => { x with fencesDue :=
            ((List.range 16).filter (fun p => v.testBit p && c.portFenced p)).foldl (fun m p => setFieldOf m p p 1) x.fencesDue })),
        (.fabricWeightWrite a port v, 0x2100, 0x10 + port.val, fun c => c.store.queue.length < 64 ∧
            (((List.range 13).filter (· != port.val)).map (fun p => c.rd 0x2100 (0x10 + p))).sum + v ≤ 64,
          fun c _ => (c.persist 1 0x2100 (0x10 + port.val) (leBytes v a.len)).wr 0x2100 (0x10 + port.val) v),
        (.overrunWarningClear a v, 0x2200, 0x0A, fun _ => True,
          fun c _ => c.wr 0x2200 0x05 ((List.range 16).foldl (fun x n => if v.testBit n then setFieldOf x n n 0 else x) (c.rd 0x2200 0x05))),
        (.resynchronise a v, 0x2400, 0x20, fun c => fieldOf v 3 0 = 1 ∧ c.pairState = psStandbyReady,
          fun c _ => (c.bump 0x2400 0x0D).setPair psSynchronising 0),
        (.plannedSwap a v, 0x2400, 0x20, fun c => fieldOf v 3 0 = 2 ∧ c.pairState = psActive ∧ c.partnerState = psStandbyReady,
          fun c _ => (c.modPair (fun p => { p with grant := some (settingTick a.t), grantCause := 5 })).send (.roleGrant (settingTick a.t))),
        (.leaveFenced a v, 0x2400, 0x20, fun c => fieldOf v 3 0 = 3 ∧ c.pairState = psFenced ∧ c.pair.fencedBy = 0,
          fun c _ => c.setPair psJoining 0),
        (.fenceThisChip a v, 0x2400, 0x20, fun c => fieldOf v 3 0 = 4 ∧ c.pair.inForce = true ∧ c.pairState ≠ psFenced ∧ c.partnerReady = false,
          fun c _ => (c.setPair psFenced 0).modPair (fun p => { p with fencedBy := 0 })),
        (.fenceThisChip a v, 0x2400, 0x20, fun c => fieldOf v 3 0 = 4 ∧ c.pair.inForce = true ∧ c.partnerReady = true,
          fun c _ => c.abdicateChip.modPair (fun p => { p with fencedBy := 0 }))] :
        List (Instr × Nat × Nat × (Chip → Prop) × (Chip → Who → Chip))),
      Writes s a v (beBytes v a.len) p

/-! ### Task classes -/

/-- R31, R38, R45, R46, R48, R53, R57, R60, R76, R137: a muster at a tick boundary releases a class that is due, after every dispatch due by
then: its cycle starts with the muster's
time pair and dispatch instant, its members enter at their entry points with the architectural state of R76 and no event flag set, and items
before the cut-off leave the region port; a release that an overrun skips is counted. What the tick boundary, the muster and the arrival of
an item come to; an item at the port of a fenced region is discarded and counted. -/
def Obligations.AMusterStartsTheCyclesThatAreDue : Prop :=
  (∀ (c : Chip) (n : Nat) (m : Instant) (g : ClsCfg), n < 16 → (c.cl n).cfg = some g → (c.cl n).cycle = none →
    c.executes n m = true →
    let c' := c.musterClass n m
    let team := clsTeam (c.cl n)
    (∃ cy, (c'.cl n).cycle = some cy ∧ cy.m = m ∧ cy.mPair = c.pairAt m ∧ cy.d = m + g.offset ∧ cy.cy = c.nextCy n ∧ cy.done = 0 ∧
      cy.eocAt = none ∧ cy.sealed = false ∧ cy.work = [] ∧ cy.sched = []) ∧
    c'.clState n = csRunning ∧ c'.cy n = c.nextCy n ∧ c'.rdPair (0x2210 + n) 0x0C = c.pairAt m ∧ (c'.cl n).lastM = some m ∧
    (c'.cl n).items = (c.cl n).items.filter (fun i => !before m i.stamp) ∧
    (∀ e, e ∉ team → c'.work e = c.work e) ∧
    (∀ k e, team[k]? = some e → team.Nodup → (c'.work e).arch = Arch.entry (nth 0 g.entries k) ∧ (c'.work e).flags = [] ∧
      (c'.work e).flights = [] ∧ (c'.work e).undo = [] ∧
      (c'.work e).run = if (c.work e).run = .abdicated then .abdicated else .issuing) ∧
    (∀ f ∈ c'.evFlight, f.target ∉ team) ∧ c'.dbank = c.dbank ∧ (∀ k ≠ n, c'.cl k = c.cl k)) ∧
  ∀ (s : State) (t : Instant),
    let c := s.chip
    let skipped (d : Chip) : Chip := (List.range 16).foldl (fun c n => c.countSkip n t) d
    let d := skipped ((c.dispatchAll t).at_ t);
    (isTick t = true → c.pair.copying = false → Gives s (.tickBoundary t) (skipped (c.at_ t))) ∧
    (isTick t = true → d.acts = true → Gives s (.muster t) ((List.range 16).foldl (fun c n => c.musterClass n t)
        ((List.range 4).foldl (fun c r => c.applyEdits r t) d)).sendSeals) ∧
    ((∀ n < 16, ∀ u, c.dispatchDue n = some u → t < u) → c.dispatchAll t = c) ∧
    (∀ (d : Chip) (n : Nat) (u : Instant), (d.cl n).skipAt = some u → u ≤ t → d.switchesAt (clsRegion (d.cl n)) u = false →
      (d.countSkip n t).rd (0x2210 + n) 0x0B = (d.rd (0x2210 + n) 0x0B + 1) % 2 ^ 48 ∧ ((d.countSkip n t).cl n).skipAt = none) ∧
    (∀ (k p : Nat) (i : Item), c.crossing[k]? = some (p, i) → i.stamp ≤ t → c.pairState = psAlone →
      ∃ c', Gives s (.itemArrival t k) c' ∧ c'.crossing = c.crossing.eraseIdx k ∧ c'.works = c.works ∧
        ∀ n < 16, if consumes (c.cl n) i.src = true ∧ c.bit 0x2100 0x02 (8 + clsRegion (c.cl n)) = false then
            (c'.cl n).items = (c.cl n).items ++ [{ i with late := (match (c.cl n).lastM with
              | some l => before l i.stamp
              | none => false) }]
          else c'.cl n = c.cl n)

/-- R54, R56, R58, R60, R149: a cycle is sealed 4 µs after E; at its dispatch instant a sealed cycle publishes its words and ends, an
unsealed one overruns: the warning is set, the next release is skipped and the cycle waits for the following dispatch instant. -/
def Obligations.CyclesAreSealedDispatchedOrOverrun : Prop :=
  ∀ (s : State) (t : Instant) (n : Fin 16) (cy : Cycle) (g : ClsCfg),
    let c := s.chip
    (c.cl n.val).cycle = some cy → (c.cl n.val).cfg = some g → c.pair.inForce = false → c.pairState = psAlone →
    (∀ e, cy.eocAt = some e → e + 4000 ≤ t → cy.sealed = false →
      ∃ c', Gives s (.cycleSeal t n) c' ∧ (c'.cl n.val).cycle = some { cy with sealed := true } ∧ c'.dbank = c.dbank ∧
        c'.rd (0x2210 + n.val) 0x0E = max (c.rd (0x2210 + n.val) 0x0E) (e - cy.m) % 2 ^ 48 ∧
        ∀ k ∈ clsTeam (c.cl n.val), (clsTeam (c.cl n.val)).Nodup → (validSlot (c'.work k)).ent = true ∧ (c'.work k).undo = []) ∧
    (cy.d ≤ t → (c.cl n.val).safeAt = none → sealedBy cy cy.d = false →
      ∃ c', Gives s (.dispatch t n) c' ∧ c'.bit 0x2200 0x05 n.val = true ∧
        c'.rd (0x2210 + n.val) 0x0A = (c.rd (0x2210 + n.val) 0x0A + 1) % 2 ^ 48 ∧
        (c'.cl n.val).cycle = some { cy with d := cy.d + cfgPeriod g } ∧ (c'.cl n.val).pub = (c.cl n.val).pub ∧
        c'.field = c.field ∧ c'.net = c.net ∧
        ∃ u, (c'.cl n.val).skipAt = some (u * tickNs) ∧ cy.d ≤ u * tickNs ∧ (g.phase < g.period → cfgReleased g u = true)) ∧
    (cy.d ≤ t → (c.cl n.val).safeAt = none → sealedBy cy cy.d = true → cy.sealed = true → g.doOut = [] → g.aoOut = [] → cy.sched = [] → g.trigger = none →
      cy.cnf = false →
      ∃ c', Gives s (.dispatch t n) c' ∧ (c'.cl n.val).cycle = none ∧ (c'.cl n.val).everDisp = true ∧ (c'.cl n.val).undisp = [] ∧
        (c'.cl n.val).boxCy = cy.cy ∧ (c'.cl n.val).boxFr = cy.marks ∧
        (∀ a, WMem.get (c'.cl n.val).pub a = ioWorking (c.cl n.val) a) ∧ (∀ k ≠ n.val, c'.cl k = c.cl k) ∧ c'.works = c.works)

/-- R46, R66-R69, R168, R198-R201: class commands and edits that pass their checks are queued and answered at the muster that takes them; a start
of a class that a fence or a test of its silicon keeps stopped is refused; a start at a muster reloads the class and takes it to RESTARTING,
a stop takes it to STOPPED. -/
def Obligations.ClassCommandsAndEditsAreQueuedAndTaken : Prop :=
  ∀ (s : State) (a : Acc) (v : Nat) (ix : Nat) (data : List Byte),
    let n := fieldOf v 3 0
    let act := fieldOf v 7 4;
    (∀ c w, s.chip.admits a 0x2200 0x06 v (beBytes v a.len) = some (c, w) → c.clState n ≠ csNone → c.queueFree (clsRegion (c.cl n)) = true →
      (act = 1 → Gives s (.stop a v) (c.enqueue w ⟨.classCmd 1, n, clsRegion (c.cl n), a.t, w.snum, w.path, w.org, w.csn⟩)) ∧
      (act = 2 → c.startRefused n = true → Gives s (.startOrRestart a v) (c.refuse w abState)) ∧
      (act = 2 → c.startRefused n = false →
        Gives s (.startOrRestart a v) (c.enqueue w ⟨.classCmd 2, n, clsRegion (c.cl n), a.t, w.snum, w.path, w.org, w.csn⟩))) ∧
    (∀ c w e, 0x3000 ≤ ix → ix < 0x4000 → s.chip.reach ix = true →
      (s.chip.at_ a.t).identify a (msgBytes 0x11 (a.sid.getD 0) a.ctr a.csn (writePayload ix 1 1 0 data)) = .go c w →
      c.editEntry (editRegion ix) ix = some e → 2 ≤ w.role → data.length = editLen e.typ → c.acts = true → c.csnCheck w = .fresh →
      editInRange e.typ e.min e.max (beNat data) = true → c.busyClass (some e.cls) = true → (c.region (editRegion ix)).paused = false →
      c.queueFree (editRegion ix) = true →
      Gives s (.editWrite a ix data) (c.enqueue w ⟨.edit ix data, e.cls, editRegion ix, a.t, w.snum, w.path, w.org, w.csn⟩)) ∧
    (∀ (c : Chip) (w : Who) (q : Queued), let c' := c.enqueue w q
      (c'.region q.region).queue = (c.region q.region).queue ++ [q] ∧
      c'.dict.waiting = c.dict.waiting ++ [(w.orig, w.csn, w.path, w.ctr)] ∧ c'.dict.answers = c.dict.answers) ∧
    (∀ (c : Chip) (k : Nat) (m : Instant) (g : ClsCfg), k < 16 → (c.cl k).cfg = some g →
      (let c' := c.startClass k m;
        c'.clState k = csRestarting ∧ (c'.cl k).cycle = none ∧ (c'.cl k).notBefore = m + 1000000 ∧
        (c.clState k = csRunning → (c'.cl k).safeAt = some (m + g.offset))) ∧
      (let c' := c.stopAtInstant k csStopped (m + g.offset);
        c'.clState k = csStopped ∧ (c'.cl k).cycle = none ∧ (c'.cl k).safeAt = some (m + g.offset)))

/-- R201, R204: an edit that a muster takes writes its target, is counted in 0x2500.06, recorded with its old and new value and stored; the
edits of a muster are applied once. -/
def Obligations.AnEditWritesItsTarget : Prop :=
  (∀ (s : State) (t m : Instant) (r : Fin 4), isTick m = true → s.chip.changesAt r.val m = false →
    (s.chip.acts = true → m ≤ t + 1000 → t < m → Gives s (.editApply t r m) ((s.chip.at_ t).applyEdits r.val m)) ∧
    (s.chip.acts = false → m + 2000 ≤ t → t < m + 3000 →
      Gives s (.editApply t r m) ((s.chip.sealsFor r.val m).foldl (fun c e => c.applySealed e) (s.chip.at_ t))) ∧
    ((s.chip.region r.val).takenAt = m → (s.chip.at_ t).applyEdits r.val m = s.chip.at_ t)) ∧
  ∀ (c : Chip) (r : Nat) (m : Instant) (q : Queued) (ix : Nat) (value : List Byte) (e : EditEntry) (pos a : Nat),
    q.kind = .edit ix value → c.editEntry r ix = some e → e.target = .dWord pos a → e.typ ≠ 4 → e.cls < 16 →
    let c' := c.applyEdit r m q;
    c'.dWord pos a = toWord (beNat value) ∧ (∀ k b, ¬ (k = pos ∧ b = a) → c'.dWord k b = c.dWord k b) ∧
    c'.rd 0x2500 0x06 = (c.rd 0x2500 0x06 + 1) % 2 ^ 48 ∧ NMem.get (c'.region r).editAt e.k = c.nextCy e.cls ∧
    (∃ x ∈ c'.store.queue ++ c'.store.held, x.1 = 2 ∧ x.2.1 = ix ∧ x.2.2.2.1 = value.reverse) ∧ c'.works = c.works ∧ c'.ibank = c.ibank ∧
    (c.recd.queue.length < 256 → ∃ x ∈ c'.recd.queue, x.code = 0x0701 ∧ x.org = q.org ∧ x.csn = q.csn)

/-- R27, R32, R57-R59: at a class's safe instant every DO and AO it owns takes its safe state, and its scheduled writes still held are gone;
scheduled writes of the die apply at their time. -/
def Obligations.SafeStatesAndScheduledWritesApply : Prop :=
  (∀ (s : State) (t : Instant) (n : Fin 16) (g : ClsCfg) (d : Instant), (s.chip.cl n.val).cfg = some g → (s.chip.cl n.val).cycle = none →
    (s.chip.cl n.val).safeAt = some d → d ≤ t → s.chip.acts = true →
    ∃ c', Gives s (.dispatch t n) c' ∧ (c'.cl n.val).safeAt = none ∧ (∀ x ∈ c'.field.sched, x.cls ≠ n.val) ∧
      (s.chip.field.linkUp = true → s.chip.fieldAlive = true → s.chip.field.failing = false → ∀ k ∈ g.doOut.map (·.1), k < 24 →
        (c'.doc k).lastDisp = none ∧ (s.chip.rd (0x2840 + k) 0x03 = 0 → (c'.doc k).cmd = false) ∧
        (s.chip.rd (0x2840 + k) 0x03 = 1 → (c'.doc k).cmd = true)) ∧
      (s.chip.field.linkUp = true → s.chip.fieldAlive = true → s.chip.field.failing = false → ∀ o ∈ g.aoOut.map (·.1), o < 4 →
        (c'.aoch o).lastDisp = none ∧ (s.chip.rd (0x2868 + o) 0x01 = 0 → (c'.aoch o).applied = 0 ∧ (c'.aoch o).alarm = false) ∧
        (s.chip.rd (0x2868 + o) 0x01 = 2 → (c'.aoch o).applied = s.chip.alarmNa o ∧ (c'.aoch o).alarm = true))) ∧
  ∀ (s : State) (t : Instant) (x : Sched), s.chip.fieldAlive = true → s.chip.field.sched = [x] → x.t ≤ t → x.ao = false →
    Gives s (.scheduledWriteApply t) (((s.chip.at_ t).modField (fun f => { f with sched := [] })).levelDo x.ch (x.val % 2 == 1))

/-! ### The pair -/

/-- R173, R177-R179, R185, R188-R192, R425, Table 06-5: what the events of the pair and the frames that change a role do to the pair state,
which 0x2400.03 reports; a cause is reported in 0x2400.12 and a takeover counted in 0x2400.0C; a joining chip elects, fences or copies; a standby
whose held release is overdue synchronises again instead of taking over. The causes of a handover are the model's choice (log 109). -/
def Obligations.ThePairStateFollowsItsEvents : Prop :=
  ∀ (s : State) (t : Instant), s.chip.pair.inForce = true →
    let c := s.chip
    let st := c.pairState
    let at3 (c' : Chip) : Prop := c'.pairState = psActive ∧ c'.rd 0x2400 0x12 = 3 ∧ c'.rd 0x2400 0x0C = (c.rd 0x2400 0x0C + 1) % 2 ^ 48 ∧
      c'.pair.baton = true
    let late := c.pair.heldRel.any (fun p => decide (p.2 + 6700 < t))
    let dropped (c' : Chip) : Prop := if 2 ≤ c.pair.abandoned then c'.pairState = psFenced ∧ c'.pair.fencedBy = 12 else c'.pairState = psJoining;
    (c.batonSeen = true → ∃ c', Gives s (.batonStopped t) c' ∧ c'.batonSeen = false ∧
      (st = psSynchronising → dropped c') ∧
      (st = psStandbyReady → late = false → c.bit 0x2400 0x0A 1 = false → at3 c') ∧ (st = psStandbyReady → late = true → dropped c') ∧
      (st ≠ psSynchronising → (st = psStandbyReady → late = false ∧ c.bit 0x2400 0x0A 1 = true) → c'.pairState = st)) ∧
    (c.batonSeen = false → ∃ c', Gives s (.batonToggling t) c' ∧ c'.batonSeen = true ∧
      (st = psJoining → c.pair.capsEqual = true → c.linkUp = true → c'.pairState = psSynchronising) ∧
      (st = psActive → c.linkUp = true → c.pair.partnerBegan < c.pair.began → c'.pairState = psFenced ∧ c'.pair.fencedBy = 6) ∧
      (st = psActive → c.linkUp = true → c.pair.began < c.pair.partnerBegan → c'.pairState = psActive) ∧
      (st = psActive → c.linkUp = false ∨ c.pair.began = c.pair.partnerBegan →
        c'.pairState = if c.pair.sideB then psFenced else psActive) ∧
      (st ≠ psJoining → st ≠ psActive → c'.pairState = st)) ∧
    (∀ l, c.pair.lastHb = some l → c.bit 0x2400 0x0A 1 = true → l + 4500 ≤ t → ∃ c', Gives s (.heartbeatLoss t) c' ∧
      c'.bit 0x2400 0x0A 1 = false ∧ c'.partnerState = 15 ∧ (c.partnerState ≠ 15 → c'.pair.grant = none) ∧
      (st = psStandbyReady → late = true → c'.pairState = psSynchronising) ∧ (st = psStandbyReady → late = false → c.batonSeen = false → at3 c') ∧
      ((st = psStandbyReady → late = false ∧ c.batonSeen = true) → c'.pairState = st)) ∧
    (∀ lanes : BitVec 4, c.linkUp = true → ∃ c', Gives s (.onbexLinkLoss ⟨t, lanes⟩) c' ∧ c'.linkUp = false ∧
      c'.fld 0x2400 0x0A 7 4 = lanes.toNat ∧ c'.partnerState = 15 ∧
      (st = psSynchronising → dropped c') ∧
      (st = psStandbyReady → c.batonSeen = true → c'.pairState = psFenced ∧ c'.pair.fencedBy = 7 ∧ c'.rd 0x2400 0x12 = 7) ∧
      (st = psActive → c'.pairState = psActive ∧ c'.bit 0x2400 0x0A 3 = true)) ∧
    (∀ rt, c.linkUp = false → ∃ c', Gives s (.onbexLinkUp t rt) c' ∧ c'.linkUp = true ∧
      c'.fld 0x2400 0x0A 7 4 = 15 ∧ c'.bit 0x2400 0x0A 3 = false ∧ c'.rd 0x2400 0x0B = min rt 8000 ∧
      c'.pairState = if st = psFenced ∧ c.pair.fencedBy = 7 ∧ c.portFenced 14 = false then psJoining else st) ∧
    (st = psJoining → c.pair.joinedAt + 5000000 ≤ t →
      (let elected := (!c.linkUp && !c.batonSeen) || (c.linkUp && decide (c.partnerState = psJoining) && c.pair.capsEqual &&
          if c.pair.sideB then c.rd 0x2400 0x05 == 2 else (c.rd 0x2400 0x05 == 0 || c.rd 0x2400 0x05 == 1));
        (elected = true → ∃ c', Gives s (.joiningTimeout t) c' ∧ c'.pairState = psActive ∧ c'.rd 0x2400 0x12 = 1 ∧
          c'.rdPair 0x2400 0x11 = (c.at_ t).pairAt t ∧ c'.pair.baton = true ∧ c'.pair.released = false) ∧
        (elected = false → Gives s (.joiningTimeout t) c))) ∧
    (∀ r, c.pair.readySince = some r → st = psStandbyReady → c.rd 0x2400 0x06 = 1 → c.rd 0x2400 0x05 = (if c.pair.sideB then 2 else 1) →
      c.pair.asked = false → r + c.rd 0x2400 0x07 * 1000000000 ≤ t →
      Gives s (.revertHoldOffExpiry t) (((c.at_ t).modPair (fun p => { p with asked := true })).send .roleRequest)) ∧
    (∀ th, c.pair.grant = some th → th ≤ t → ∃ c', Gives s (.handoverTick t) c' ∧
      (st = psActive → c'.pairState = psStandbyReady ∧ c'.pair.grant = none ∧ c'.pair.baton = false) ∧
      (st = psStandbyReady → c'.pairState = psActive ∧ c'.pair.grant = none ∧ c'.pair.baton = true ∧ c'.rd 0x2400 0x0C = c.rd 0x2400 0x0C)) ∧
    (∀ (rx : Rx) (state : Nat) (sideB : Bool) (sent began : TimePair), c.onbexOpen = true → rx.crcOk = true →
      rxCarries rx (.heartbeat state sideB sent began) = true → state < 16 →
      ∃ c', Gives s (.heartbeat rx state sideB sent began) c' ∧ c'.partnerState = state ∧ c'.bit 0x2400 0x0A 1 = true ∧
        c'.pair.lastHb = some rx.t ∧ c'.pair.partnerBegan = began.instant ∧ c'.pair.partnerSideB = sideB ∧
        c'.now = (if c.rd 0x2A00 0x01 = 4 then sent.instant + c.rd 0x2400 0x0B / 2 else rx.t) ∧
        (st = psJoining → sideB = c.pair.sideB → c'.pairState = psFenced ∧ c'.pair.fencedBy = 10) ∧
        (st ≠ psJoining ∨ sideB ≠ c.pair.sideB → c'.pairState = st)) ∧
    ∀ (rx : Rx) (d : Chip),
      (∀ cause, c.hears rx (.abdicate cause) = some d →
        let overdue := d.pair.heldRel.any (fun p => decide (p.2 + 6700 < rx.t));
        (cause < 16 → d.pairState = psStandbyReady → overdue = false → ∃ c', Gives s (.abdicate rx cause) c' ∧ c'.pairState = psActive ∧
          c'.rd 0x2400 0x12 = 2 ∧ c'.rd 0x2400 0x0C = (d.rd 0x2400 0x0C + 1) % 2 ^ 48) ∧
        (d.pairState = psStandbyReady → overdue = true → ∃ c', Gives s (.abdicate rx cause) c' ∧ c'.pairState = psSynchronising) ∧
        (d.pairState ≠ psStandbyReady → overdue = false → Gives s (.abdicate rx cause) d.cancelGrant)) ∧
      (∀ cause, c.hears rx (.fence cause) = some d → cause < 16 → ∃ c', Gives s (.fenceFrame rx cause) c' ∧ c'.partnerState = psFenced ∧
        c'.pairState = d.pairState) ∧
      (∀ p, c.hears rx (.caps p) = some d → ∃ c', Gives s (.caps rx p) c' ∧ c'.pair.capsSeen = some p ∧ c'.pair.capsEqual = d.capsMatch p ∧
        c'.pairState = if d.pairState = psJoining then (if d.capsMatch p then (if d.batonSeen then psSynchronising else psJoining) else psFenced)
          else d.pairState) ∧
      (d.pairState = psSynchronising →
        (c.hears rx (.stateEnd none) = some d → ∃ c', Gives s (.stateEnd rx none) c' ∧
          c'.pairState = if d.copiedClasses.all (fun n => d.pair.synced.contains n) then psStandbyReady else psSynchronising) ∧
        ∀ n : Fin 16, c.hears rx (.stateEnd (some n.val)) = some d → ∃ c', Gives s (.stateEnd rx (some n)) c' ∧ c'.clState n.val = csRunning ∧
          c'.pairState = if d.pair.sharedSynced && d.copiedClasses.all (fun k => k == n.val || d.pair.synced.contains k) then psStandbyReady
            else psSynchronising) ∧
      (c.hears rx .roleRequest = some d → d.partnerReady = true → d.pair.grant = none → ∃ c', Gives s (.role rx none) c' ∧
        c'.pair.grant = some (settingTick rx.t) ∧ c'.pairState = psActive) ∧
      ∀ th, c.hears rx (.roleGrant th) = some d → d.pairState = psStandbyReady →
        Gives s (.role rx (some th)) (d.modPair (fun p => { p with grant := some th, grantCause := if p.asked then 4 else 5 }))

/-- R175-R182, R185, R187, R195, R205, Tables 06-1 and 06-2: a frame whose CRC is wrong or whose type is reserved is counted and discarded;
the next frame in number is taken, and on a chip that shadows the active its items, edits, commands, accumulators, pages and seals are
kept for the releases. -/
def Obligations.FramesOfTheActiveAreTakenByTheShadow : Prop :=
  ∀ (s : State) (rx : Rx),
    let c := s.chip;
    (c.onbexOpen = true → ∀ (h cause page : Nat) (caps : Caps) (items : List (Fin 16 × Item)) (e : Queued) (f : FwdCmd)
        (es : List SealEntry) (accs : List (List Int)) (sp : PageSpace) (words : List Word) (cls : Option (Fin 16)) (g : Option Instant)
        (p : TimePair), ∀ i ∈ [Instr.caps rx caps, .nak rx h, .item rx items, .edit rx e, .cmd rx f, .seal rx es, .accum rx accs,
          .hash rx h p, .state rx sp page words, .stateEnd rx cls, .abdicate rx cause, .role rx g, .fenceFrame rx cause],
        (rx.crcOk = false → Gives s i ((c.at_ rx.t).bump 0x2400 0x10)) ∧
        (rx.crcOk = true → rx.typ ∉ [0x01, 0x02, 0x03, 0x10, 0x11, 0x12, 0x13, 0x14, 0x20, 0x30, 0x31, 0x40, 0x41, 0x42] →
          Gives s i (((c.at_ rx.t).takeLsn rx.lsn).1.bump 0x2400 0x10))) ∧
    (c.onbexOpen = true → rx.crcOk = false → ∀ (st : Nat) (b : Bool) (p q : TimePair),
      Gives s (.heartbeat rx st b p q) ((c.at_ rx.t).bump 0x2400 0x10)) ∧
    (∀ (l : Nat) (f : OnbexOut), c.onbexOpen = true → rx.crcOk = true → rxCarries rx f = true → c.pair.lsnIn = some l → l < 2 ^ 32 →
      rx.lsn = (l + 1) % 2 ^ 32 → c.hears rx f = some ((c.at_ rx.t).modPair (fun p => { p with lsnIn := some rx.lsn }))) ∧
    ∀ d : Chip,
      (∀ first, c.hears rx (.nak first) = some d → Gives s (.nak rx first) (d.modPair (fun p => { p with
        resent := (p.store.map (·.1)).filter (fun x => !lsnBefore x first) }))) ∧
      ((d.pairState = psStandbyReady ∨ d.pairState = psSynchronising) →
        (∀ items : List (Fin 16 × Item), c.hears rx (.item 0 default) = some d → ∃ c', Gives s (.item rx items) c' ∧
          SameRegs d c' [(0x2200, 0x09), (0x2600, 0x0A)] ∧
          c'.rd 0x2200 0x09 = (d.rd 0x2200 0x09 + (items.filter (fun p => p.2.late)).length) % 2 ^ 48 ∧
          c'.rd 0x2600 0x0A = (d.rd 0x2600 0x0A + (items.filter (fun p => decide (6 < p.2.qc))).length) % 2 ^ 48 ∧
          c' = { d with regs := c'.regs, pair := { d.pair with fwdItems := d.pair.fwdItems ++ items.map (fun q => (q.1.val, q.2)) } }) ∧
        (∀ q : Queued, ∀ i ∈ (if c.hears rx (.edit q) = some d then [Instr.edit rx q] else []) ++
            (if c.hears rx (.cmd (.queued q)) = some d then [.cmd rx (.queued q)] else []), ∃ c', Gives s i c' ∧
          (c'.region q.region).queue = (d.region q.region).queue ++ [q] ∧ (∀ k ≠ q.region, c'.region k = d.region k) ∧
          c' = { d with regions := c'.regions }) ∧
        (∀ (st : Instant) (ix sub : Nat) (data : List Byte) (org csn : Nat), c.hears rx (.cmd (.write st ix sub data org csn)) = some d →
          let mine (q : Nat × Nat × List Byte) : Bool := q.1 == org && q.2.1 == csn
          let whole := (d.pair.cmdParts.filter mine).flatMap (·.2.2) ++ data
          let y := d.modPair (fun p => { p with cmdParts := p.cmdParts.filter (fun q => !mine q) });
          (∀ x, y.entryEffect (forwardedBy org csn) st ix sub whole = .ok x →
            Gives s (.cmd rx (.write st ix sub data org csn)) (x.executedOn st org csn 0)) ∧
          (∀ k, y.entryEffect (forwardedBy org csn) st ix sub whole = .error k → Gives s (.cmd rx (.write st ix sub data org csn)) y)) ∧
        (∀ (data : List Byte) (org csn : Nat), c.hears rx (.cmd (.more org csn data)) = some d →
          Gives s (.cmd rx (.more org csn data)) (d.modPair (fun p => { p with cmdParts := p.cmdParts ++ [(org, csn, data)] }))) ∧
        (∀ (accs : List (List Int)), c.hears rx (.accum accs) = some d → accs.length = d.meas.sets.length → ∃ c', Gives s (.accum rx accs) c' ∧
          c'.meas.sets.map (·.acc) = accs ∧ c' = { d with meas := { d.meas with sets := c'.meas.sets } }) ∧
        ∀ e : SealEntry, c.hears rx (.seal [e]) = some d → let x := d.dispatchAll rx.t;
          x.shadows e.cls.val = true → ∃ c', Gives s (.seal rx [e]) c' ∧
          (rx.t ≤ e.m.instant + 3000 → x.ownImageHash e = e.hash →
            c' = x.modPair (fun p => { p with seals := p.seals ++ [⟨e, rx.t, true⟩] })) ∧
          (e.m.instant + 3000 < rx.t ∨ x.ownImageHash e ≠ e.hash →
            c'.pairState = psSynchronising ∧ c'.pair.seals.length ≤ x.pair.seals.length ∧
            (x.pairState = psStandbyReady → c'.rd 0x2400 0x0D = (x.rd 0x2400 0x0D + 1) % 2 ^ 48 ∧ c'.rd 0x2400 0x12 = 9) ∧
            (x.pairState = psSynchronising → e.cls.val ∉ c'.pair.synced))) ∧
      (d.pairState = psSynchronising → ∀ (page : Nat) (words : List Word), words.length ≤ 682 →
        (∀ e : Fin 32, c.hears rx (.state (.dBank e) page words) = some d → ∃ c', Gives s (.state rx (.dBank e) page words) c' ∧
          c'.pair.pages = d.pair.pages ++ [(.dBank e, page)] ∧
          ∀ k a, c'.dWord k a = if k = e.val ∧ page * 682 ≤ a ∧ a < page * 682 + words.length then nth 0 words (a - page * 682) else d.dWord k a) ∧
        ∀ r : Fin 4, c.hears rx (.state (.region r) page words) = some d → ∃ c', Gives s (.state rx (.region r) page words) c' ∧
          c'.pair.pages = d.pair.pages ++ [(.region r, page)] ∧
          (∀ a, WMem.get (c'.region r.val).gmem a =
            if page * 682 ≤ a ∧ a < page * 682 + words.length ∧ d.shadowed r.val a = false then nth 0 words (a - page * 682)
            else WMem.get (d.region r.val).gmem a) ∧ ∀ k ≠ r.val, c'.region k = d.region k) ∧
      ((d.pairState = psActive ∨ d.pairState = psStandbyReady) → ∀ (h : Nat) (p : TimePair), c.hears rx (.hash h p) = some d →
        let x := d.modPair (fun x => { x with partnerHash := x.partnerHash.filter (fun y => y.1 != p.instant) ++ [(p.instant, h)] })
        let own := d.pair.ownHash.find? (fun x => x.1 == p.instant);
        (rx.t < p.instant ∨ (∀ y, own = some y → y.2 ≠ h) → Gives s (.hash rx h p) x) ∧
        (∀ y, own = some y → p.instant ≤ rx.t → y.2 = h → Gives s (.hash rx h p) (x.hashMatch p.instant)))

/-- R173, R177, R181, R182, R184, R185, R187: a heartbeat every microsecond, accumulators every second; a release waits for its seal, which
lets it start; without it, or where the dispatch hashes differ, the standby synchronises again; a lasting difference of an input is
counted once. -/
def Obligations.HotShadowRunsFromSealsAndChecksHashes : Prop :=
  ∀ (s : State) (t : Instant),
    let c := s.chip;
    (c.onbexOpen = true → (∀ x, c.pair.hbSent = some x → x.1 + 1000 ≤ t) →
      Gives s (.heartbeatTransmit t) ((c.at_ t).modPair (fun p => { p with
        hbSent := some (t, (p.lsnOut + 2 ^ 32 - 1) % 2 ^ 32, .heartbeat (c.rd 0x2400 0x03) c.pair.sideB ((c.at_ t).pairAt t) ((c.at_ t).pairAt c.pair.began)) }))) ∧
    (t % 1000000000 = 0 → c.pairState = psActive →
      Gives s (.accumTransmit t) ((c.at_ t).send (.accum (c.meas.sets.map (·.acc))))) ∧
    (∀ (f : OnbexOut), c.onbexOpen = true → frameSize f + storeSize c.pair.store ≤ 262144 →
      (c.send f).pair.store = c.pair.store ++ [(c.pair.lsnOut, f)] ∧ (c.send f).pair.lsnOut = (c.pair.lsnOut + 1) % 2 ^ 32) ∧
    (∀ (cls : Fin 16), let m := t - 3000
      let d := (c.dispatchAll t).at_ t
      let its := d.pair.seals.find? (fun x => x.e.cls.val == cls.val && x.e.m.instant == m);
      3000 ≤ t → isTick m = true → (d.cl cls.val).cycle = none →
      (c.shadows cls.val = true → d.pair.lost = false → ∀ x, its = some x → Gives s (.shadowStart t cls) (d.shadowRelease cls.val m x.e)) ∧
      (c.shadows cls.val = true → d.pair.lost = true ∨ its = none → d.sealExpected cls.val m = true →
        Gives s (.shadowStart t cls) (d.modPair (fun p => { p with heldRel := p.heldRel ++ [(cls.val, m)] }))) ∧
      (c.pairState = psActive → m < c.pair.began → (c.cl cls.val).lastM ≠ some m → d.pair.lost = true ∨ its = none →
        Gives s (.shadowStart t cls) ((d.applyEdits (clsRegion (d.cl cls.val)) m).musterClass cls.val m).sendSeals)) ∧
    (∀ (cls : Fin 16) (m : Instant), (cls.val, m) ∈ c.pair.heldRel → m + 6700 ≤ t → ∃ c', Gives s (.sealFaultDeadline t cls) c' ∧
      (∀ x ∈ c'.pair.heldRel, x.1 ≠ cls.val) ∧
      (c.pairState = psStandbyReady → c'.pairState = psSynchronising ∧ c'.rd 0x2400 0x0D = (c.rd 0x2400 0x0D + 1) % 2 ^ 48 ∧
        c'.rd 0x2400 0x12 = 9) ∧
      (c.pairState = psSynchronising → c'.pairState = psSynchronising ∧ cls.val ∉ c'.pair.synced)) ∧
    (∀ d h, c.pair.ownHash.find? (fun x => decide (x.1 + 2500 ≤ t)) = some (d, h) → ∃ c', Gives s (.hashDeadline t) c' ∧
      (∀ x ∈ c'.pair.ownHash, x.1 ≠ d) ∧
      ((∀ p, c.pair.partnerHash.find? (fun x => x.1 == d) = some p → p.2 ≠ h) →
        ((c.pair.partnerHash.find? (fun x => x.1 == d)).isSome = true ∨ (c.linkUp = true ∧ (c.partnerReady = true ∨ c.pairState = psStandbyReady))) →
        c'.rd 0x2400 0x0E = (c.rd 0x2400 0x0E + 1) % 2 ^ 48 ∧
        (c.pairState = psStandbyReady → c'.pairState = psSynchronising ∧ c'.rd 0x2400 0x12 = 8) ∧
        (c.pairState = psActive → c'.pairState = psActive))) ∧
    (∀ (src : ItemSrc), c.pairState = psStandbyReady → discrKey src ≠ 0 → 2 ≤ NMem.get c.pair.discr (discrKey src) →
      NMem.get c.pair.discr (discrKey src) - 2 + c.rd 0x2400 0x08 * 1000000 ≤ t → ∃ c', Gives s (.inputDiscrepancy t src) c' ∧
        c'.rd 0x2400 0x0F = (c.rd 0x2400 0x0F + 1) % 2 ^ 48 ∧ NMem.get c'.pair.discr (discrKey src) = 1 ∧
        c'.pairState = c.pairState) ∧
    ∀ (n : Nat) (m : Instant) (e : SealEntry) (g : ClsCfg), n < 16 → (c.cl n).cfg = some g → e.ncm = 0 → e.cy < 2 ^ 48 →
      ∃ cy, ((c.shadowRelease n m e).cl n).cycle = some cy ∧ cy.m = m ∧ cy.mPair = e.m ∧ cy.cy = e.cy ∧ (c.shadowRelease n m e).cy n = e.cy

/-! ### Updates -/

/-- R206-R213, R217, R218, Tables 07-4 and 07-9: what writes of the update objects do: a header that passes its checks begins an update with
the other bank incomplete, one that fails a check is refused with its reason; body bytes are appended in order; the commands. -/
def Obligations.UpdateObjectsTakeTheirWrites : Prop :=
  (∀ (s : State) (a : Acc) (tgt : Fin 6) (bytes : List Byte) (c : Chip) (w : Who),
    s.chip.admits a (0x2510 + tgt.val) 1 0 bytes = some (c, w) →
    let ix := 0x2510 + tgt.val
    let other := 1 - c.bankOf tgt.val;
    (c.updating tgt.val = true → c.headerFault tgt.val bytes = some (9, 0x0B000002)) ∧
    (c.updating tgt.val = false → c.ownerLocked = true → c.headerFault tgt.val bytes = some (10, 0x0B000004)) ∧
    (∀ r code, c.headerFault tgt.val bytes = some (r, code) →
      Gives s (.header a tgt bytes) ((c.wr 0x2500 0x08 (r + tgt.val * 256)).refuse w code)) ∧
    (c.headerFault tgt.val bytes = none → c.storeFree = true → ∃ x, Gives s (.header a tgt bytes) (c.conclude w ix 1 bytes (.ok x)) ∧
      x.rd ix 0x05 = (if (parseHeader bytes).len = 0 then 2 else 1) ∧ x.rd ix 0x03 = 0 ∧ x.rd ix 0x08 = 0 ∧
      x.fld ix 0x06 (2 * other + 1) (2 * other) = 1 ∧ x.bankOf tgt.val = c.bankOf tgt.val ∧
      (x.target tgt.val).head = some (parseHeader bytes) ∧ (x.target tgt.val).body = [] ∧ (∀ k ≠ tgt.val, x.target k = c.target k) ∧
      x.store.queue = c.store.queue ++ [(7, tgt.val, other, [], c.now)])) ∧
  (∀ (s : State) (a : Acc) (tgt : Fin 6) (off : Nat) (bytes : List Byte) (c : Chip) (w : Who) (h : Header), off < 2 ^ 32 →
    s.chip.admits a (0x2510 + tgt.val) 2 0 (leBytes off 4 ++ bytes) = some (c, w) → (c.target tgt.val).head = some h →
    let ix := 0x2510 + tgt.val
    let have_ := c.rd ix 0x03;
    (c.rd ix 0x05 = 1 → off = have_ → have_ + bytes.length ≤ h.len → ∃ x, Gives s (.body a tgt off bytes) (c.conclude w ix 2 (leBytes off 4 ++ bytes) (.ok x)) ∧
      (x.target tgt.val).body = (c.target tgt.val).body ++ bytes ∧ x.rd ix 0x03 = (have_ + bytes.length) % 2 ^ 48 ∧
      x.rd ix 0x05 = (if have_ + bytes.length = h.len then 2 else 1) ∧ (∀ k ≠ tgt.val, x.target k = c.target k)) ∧
    (off + bytes.length ≤ have_ → off ≠ have_ ∨ c.rd ix 0x05 ≠ 1 → ((c.target tgt.val).body.drop off).take bytes.length = bytes →
      Gives s (.body a tgt off bytes) (c.conclude w ix 2 (leBytes off 4 ++ bytes) (.ok (c.modTarget tgt.val (fun x => { x with lastBody := a.t })))))) ∧
  ∀ (s : State) (a : Acc) (v : Nat),
    let t := fieldOf v 2 0
    let ix := 0x2510 + t
    let act := fieldOf v 7 4
    let early (c : Chip) : Prop := ∃ ta, (c.target t).ta = some ta ∧ a.t + 1000000 ≤ ta;
    ∀ p ∈ ([(Instr.abortTransfer a v, 0x2500, 0x01, fun c => act = 1 ∧ 1 ≤ c.rd ix 0x05 ∧ c.rd ix 0x05 ≤ 3,
          fun c _ => c.abortUpdate t 19),
        (.activate a v, 0x2500, 0x01, fun c => act = 2 ∧ (c.rd ix 0x05 = 3 ∨ (c.rd ix 0x05 = 4 ∧ early c)) ∧ c.refusalState = none ∧
            ¬ (t < 4 ∧ c.inMotion t = true) ∧ (c.activationAt t (c.requested t a.t)).isSome = true,
          fun c _ => let ta := (c.activationAt t (c.requested t a.t)).getD 0
            ((c.wrPair ix 0x04 (c.pairAt ta)).wr ix 0x05 4).modTarget t (fun x => { x with ta := some ta })),
        (.cancelActivation a v, 0x2500, 0x01, fun c => act = 3 ∧ c.rd ix 0x05 = 4 ∧ early c,
          fun c _ => (c.wr ix 0x05 3).modTarget t (fun x => { x with ta := none })),
        (.confirm a v, 0x2500, 0x01, fun c => act = 4 ∧ c.rd ix 0x05 = 5 ∧ (c.target t).fallAt = none ∧ (c.target t).resumeAt = none,
          fun c _ => let arc := (c.target t).arcNew
            let d := (((c.wr ix 0x09 arc).wr ix 0x05 0).setBit ix 0x06 5 false).modTarget t (fun x => { x with trialEnd := none, head := none })
            ((d.persist 5 t 0 (leBytes arc 4)).persist 4 t 0 (leBytes (d.bankOf t) 1 ++ leBytes 0 1)).event 0x0704 sevInfo 11 t []),
        (.fallBack a v, 0x2500, 0x01, fun c => act = 5 ∧ 4 ≤ t ∧ c.rd ix 0x05 = 5 ∧ (c.target t).fallAt = none ∧ (c.target t).resumeAt = none,
          fun c _ => c.modTarget t (fun x => { x with fallAt := some c.now, trialEnd := none })),
        (.fallBack a v, 0x2500, 0x01, fun c => act = 5 ∧ t < 4 ∧ c.rd ix 0x05 = 5 ∧ (c.target t).fallAt = none ∧ (c.target t).resumeAt = none,
          fun c _ => let here := (c.now + 62499) / 62500 * 62500
            c.modTarget t (fun x => { x with
              fallAt := some (if c.runningCfgs t = [] then here else (activationTick c.now (c.runningCfgs t)).getD here), trialEnd := none })),
        (.keySlotRevocation a v, 0x2500, 0x0A, fun c => c.store.queue.length < 64, fun c _ =>
          let m := c.rd 0x2500 0x0B ||| v % 16
          (c.persist 0x82 0x2500 0x0A (leBytes m 1)).wr 0x2500 0x0B m)] :
        List (Instr × Nat × Nat × (Chip → Prop) × (Chip → Who → Chip))),
      Writes s a v (beBytes v a.len) p

/-- R209, R211, R214, R217-R219, R221, R222: a complete body is checked and its bank complete or the update ended with a reason; at the
activation tick the banks change places and the region pauses 250 µs, then the trial runs; a failed trial puts the previous bank back. -/
def Obligations.ImagesAreCheckedActivatedTriedAndPutBack : Prop :=
  ∀ (s : State) (t : Instant) (tgt : Fin 6),
    let c := s.chip
    let k := tgt.val
    let ix := 0x2510 + k
    let x := c.target k
    let ended (c' : Chip) (reason : Nat) : Prop := c'.rd ix 0x05 = 0 ∧ c'.rd 0x2500 0x08 = reason + k * 256 ∧ (c'.target k).head = none ∧
      (c'.target k).app = x.app ∧ c'.bankOf k = c.bankOf k ∧ c'.fld ix 0x06 (2 * (1 - c.bankOf k) + 1) (2 * (1 - c.bankOf k)) = 1
    let swapped (d c' : Chip) (trial : Bool) : Prop := c'.bankOf k = 1 - d.bankOf k ∧ c'.rd ix 0x07 = d.rd ix 0x08 ∧
      c'.rd ix 0x08 = d.rd ix 0x07 ∧ c'.bit ix 0x06 5 = trial ∧ (c'.target k).app = (d.target k).prevApp ∧
      (c'.target k).prevApp = (d.target k).app
    let d := (c.dispatchAll t).at_ t
    let paused (c' : Chip) (at_ : Instant) (trial : Bool) : Prop := swapped d c' trial ∧ (c'.region k).paused = true ∧
      (c'.region k).image = (d.target k).prevApp ∧ (c'.target k).resumeAt = some (at_ + 250000) ∧
      (∀ r, r ≠ k → (c'.region r).image = (d.region r).image)
    let small (y : Target') : Prop := ∀ im, y.prevApp = some im → ∀ g ∈ im.classes, g.num < 16;
    (∀ h, x.head = some h → c.rd ix 0x05 = 2 →
      (Config.sha256 x.body ≠ h.hash → ∃ c', Gives s (.imageCheckComplete t tgt) c' ∧ ended c' 13 ∧
        (c.recd.queue.length < 256 → ∃ q ∈ c'.recd.queue, q.code = 0x0702 ∧ q.unit = k)) ∧
      (Config.sha256 x.body = h.hash → k < 4 → Config.parseApp k x.body = none → ∃ c', Gives s (.imageCheckComplete t tgt) c' ∧ ended c' 14) ∧
      (∀ im, Config.sha256 x.body = h.hash → k < 4 → Config.parseApp k x.body = some im →
        let row := c.imageRow k h im;
        (row = 0 ↔ c.appCheck k im = 0 ∧ migCounts h im = true) ∧
        (row ≠ 0 → ∃ c', Gives s (.imageCheckComplete t tgt) c' ∧ ended c' 14 ∧
          (c.recd.queue.length < 256 → ∃ q ∈ c'.recd.queue, q.code = 0x0202 ∧ q.dtl = beBytes row 1)) ∧
        (row = 0 → stagingOk x.app im = false → ∃ c', Gives s (.imageCheckComplete t tgt) c' ∧ ended c' 15)) ∧
      (Config.sha256 x.body = h.hash → 4 ≤ k → ¬ (h.migN = 0 ∧ h.migR = 0) → ∃ c', Gives s (.imageCheckComplete t tgt) c' ∧ ended c' 14) ∧
      (∀ app meas, Config.sha256 x.body = h.hash →
        ((k < 4 ∧ meas = none ∧ ∃ im, app = some im ∧ Config.parseApp k x.body = some im ∧ c.appCheck k im = 0 ∧ migCounts h im = true ∧
            stagingOk x.app im = true) ∨
          (k = 4 ∧ h.migN = 0 ∧ h.migR = 0 ∧ app = none ∧ meas = none) ∨
          (k = 5 ∧ h.migN = 0 ∧ h.migR = 0 ∧ app = none ∧ ∃ im, meas = some im ∧ Config.parseMeas x.body = some im ∧ measOk im = true)) →
        ∃ c', Gives s (.imageCheckComplete t tgt) c' ∧ c'.rd ix 0x05 = 3 ∧ c'.rd ix 0x08 = h.ver % 2 ^ 48 ∧
          c'.fld ix 0x06 (2 * (1 - c.bankOf k) + 1) (2 * (1 - c.bankOf k)) = 2 ∧ (c'.target k).prevApp = app ∧ (c'.target k).prevMeas = meas ∧
          (c'.target k).app = x.app ∧ c'.recd = c.recd)) ∧
    (c.rd ix 0x05 = 1 → x.lastBody + 300000000000 ≤ t → ∃ c', Gives s (.transferTimeout t tgt) c' ∧ ended c' 19) ∧
    (∀ (r : Fin 4) (ta : Instant), r.val = k → x.ta = some ta → c.rd ix 0x05 = 4 → ta ≤ t →
      (d.inMotion k = true → ∃ c', Gives s (.activationTick t r) c' ∧ c'.rd ix 0x05 = 3 ∧ c'.rd 0x2500 0x08 = 16 + k * 256 ∧
        (c'.target k).ta = none ∧ c'.bankOf k = d.bankOf k ∧ c'.works = d.works ∧
        (d.recd.queue.length < 256 → ∃ q ∈ c'.recd.queue, q.code = 0x0703)) ∧
      (d.inMotion k = false → small (d.target k) → ∃ c', Gives s (.activationTick t r) c' ∧ paused c' ta true ∧
        ∀ a ∈ d.ownedWords, a ∉ c'.ownedWords → ∃ w ∈ (c'.region k).orphans, w.addr = a ∧ w.held = ta + 250000 ∧
          ∀ n, ownsIo (d.cl n) a = true → (∀ j < n, ownsIo (d.cl j) a = false) → w.val = WMem.get (d.cl n).pub a)) ∧
    (∀ (r : Fin 4) (m : Instant), r.val = k → x.resumeAt = some m → m ≤ t → ∃ c', Gives s (.regionResume t r) c' ∧
      (c'.region k).paused = false ∧ (c'.target k).resumeAt = none ∧ c'.rd ix 0x05 = (if x.isFallback then 0 else 5) ∧
      (c'.target k).trialEnd = (if x.isFallback then none else some (m + c.rd 0x2500 0x05 * 1000000000)) ∧
      (c'.region k).orphans = (c.region k).orphans) ∧
    (∀ e, x.trialEnd = some e → e ≤ t → c.rd ix 0x05 = 5 → x.fallAt = none → x.resumeAt = none → ∃ c', Gives s (.trialPeriodExpiry t tgt) c' ∧
      (c'.target k).trialEnd = none ∧ (4 ≤ k → (c'.target k).fallAt = some t) ∧ (∀ j ≠ k, c'.target j = c.target j) ∧
      let here := (t + 62499) / 62500 * 62500;
      (k < 4 → c.runningCfgs k = [] → (c'.target k).fallAt = some here) ∧
      (k < 4 → (c'.target k).fallAt = some ((activationTick t (c.runningCfgs k)).getD here))) ∧
    (∀ f, x.fallAt = some f → f ≤ t →
      (k < 4 → small (d.target k) → ∃ c', Gives s (.fallbackTick t tgt) c' ∧ paused c' f false) ∧
      (k = 4 → ∃ c', Gives s (.fallbackTick t tgt) c' ∧ swapped c c' false ∧ c'.rd ix 0x05 = 0 ∧ c'.dict.mssUp = false ∧ c'.dict.sessions = []) ∧
      (k = 5 → ∃ c', Gives s (.fallbackTick t tgt) c' ∧ swapped c c' false ∧ c'.rd ix 0x05 = 0 ∧ c'.meas.image = x.prevMeas)) ∧
    (∀ ta, k = 4 → x.ta = some ta → c.rd ix 0x05 = 4 → ta ≤ t →
      let turn := c.pairState = psAlone ∨ (c.pairState = psStandbyReady ∧ (c.pair.began ≤ ta ∨ x.swapDue = true));
      (turn → ∃ c', Gives s (.mssFirmwareActivation t) c' ∧ swapped c c' true ∧ c'.rd ix 0x05 = 5 ∧ c'.dict.mssUp = false ∧ c'.dict.sessions = [] ∧
        (c'.target k).trialEnd = some (t + c.rd 0x2500 0x05 * 1000000000) ∧
        (c'.target k).swapDue = decide (c.pairState = psStandbyReady ∧ c.pair.began ≤ ta)) ∧
      (¬ turn → c.pair.grant = none → ta + 200000000 ≤ t →
        Gives s (.mssFirmwareActivation t) (((c.at_ t).wr ix 0x05 3).modTarget k (fun x => { x with ta := none, swapDue := false }))) ∧
      (¬ turn → c.pair.grant ≠ none ∨ t < ta + 200000000 → Gives s (.mssFirmwareActivation t) c)) ∧
    (k = 4 → c.running = true → c.dict.mssUp = false →
      (∃ c', Gives s (.mssFirmwareBack t true) c' ∧ c'.dict.mssUp = true ∧ c'.bankOf k = c.bankOf k ∧
        (x.swapDue = true → c.pairState = psStandbyReady → c.partnerState = psActive → c.rd ix 0x05 = 5 → c'.pair.asked = true ∧
          (c'.target k).swapDue = false) ∧
        (x.swapDue = false → c' = (c.at_ t).modDict (fun y => { y with mssUp := true }))) ∧
      (c.rd ix 0x05 = 5 → ∃ c', Gives s (.mssFirmwareBack t false) c' ∧ swapped c c' false ∧ c'.rd ix 0x05 = 0 ∧ c'.dict.mssUp = false) ∧
      (c.rd ix 0x05 ≠ 5 → Gives s (.mssFirmwareBack t false) (c.at_ t))) ∧
    ∀ ta, k = 5 → x.ta = some ta → c.rd ix 0x05 = 4 → ta ≤ t →
      ∃ c', Gives s (.measurementConfigActivation t) c' ∧ swapped c c' true ∧ c'.rd ix 0x05 = 5 ∧ c'.meas.image = x.prevMeas ∧
        (c'.target k).trialEnd = some (ta + c.rd 0x2500 0x05 * 1000000000)

/-! ### Measurement -/

/-- R224-R227, R230-R236, R249: samples join their sources; at the release of a grid instant every source has its grid word, whose index is
that of the instant, and the words leave for the regions; streams are counted, late samples discarded; publications are sent; a sense
temperature selects its band. -/
def Obligations.SamplesReachTheGridAndThePublications : Prop :=
  ∀ (s : State) (t : Instant), s.chip.running = true →
    let c := s.chip;
    (∀ (ch : Fin 17) (stamp : Instant) (v : Int), c.meas.senseLost = false → c.portFenced 15 = false → stamp ≤ t →
      ∃ c', Gives s (.senseSample t ch stamp v) c' ∧
        (c'.chan ch.val).recent = ((c.chan ch.val).recent ++ [(stamp, v)]).drop ((c.chan ch.val).recent.length + 1 - 64) ∧
        (∀ k ≠ ch.val, c'.chan k = c.chan k) ∧ c' = { c with now := t, meas := { c.meas with chans := c'.meas.chans } }) ∧
    (∀ (g : Instant) (im : MeasImage), c.imageAt g = some im → isTick g = true → g + 312500 ≤ t → (∀ l, c.meas.lastG = some l → l < g) →
      c.portFenced 15 = false →
      let d := (((c.at_ t).endCamp.modMeas (fun m => { m with lastG := some g })).dropSense g).forAll (List.range 18)
        (fun c src => c.cycleBoundary src g)
      let idx := tickNo g % 16000;
      ∃ c', Gives s (.gridRelease t g) c' ∧ c'.now = t ∧ c'.meas.lastG = some g ∧ c'.meas.campOn = false ∧
        (∀ ch, ch < 16 → fieldOf (c'.chan ch).word.toNat 13 0 = idx ∧
          (im.inUse.testBit ch = false → (c'.chan ch).word = sampleWord 0 2 false false false false 3 idx) ∧
          (im.inUse.testBit ch = true → d.localValue im ch g = none ∨ d.meas.lost.contains (ch / 8) = true →
            (c'.chan ch).word = sampleWord 0 2 false false false false 0 idx) ∧
          (∀ z, im.inUse.testBit ch = true → d.localValue im ch g = some z → d.meas.lost.contains (ch / 8) = false →
            let v := nearestRat z
            let ovr := decide (0x7FFFFF < v ∨ v < -0x7FFFFF);
            (c'.chan ch).word = sampleWord (max (-0x7FFFFF) (min v 0x7FFFFF)) (if ovr || (d.chan ch).calBad then 1 else 0) ovr (d.chan ch).fromCal
              false (d.chan ch).chg 0 idx)) ∧
        (∀ k, k < 16 → streamIn im k = none → (c'.stream k).words = List.replicate 8 (sampleWord 0 2 false false false false 3 idx)) ∧
        (∀ k f p q, k < 16 → streamIn im k = some f → (d.stream k).aligned = true → d.meas.lost.contains (2 + k) = false →
          let n := g * f.rate / 1000000000
          let between := g * f.rate % 1000000000;
          streamAt (d.stream k) n = some p → streamAt (d.stream k) (if between = 0 then n else n + 1) = some q →
          (c'.stream k).words = (List.range 8).map (bracketWord f.shift (streamSrc f.rate) idx between 1000000000 p q)) ∧
        ∀ ch, ch < 144 → c.placed (.grid ch) = true → ∃ i ∈ c'.crossing, i.2.src = .grid ch ∧ i.2.stamp = g + 312500 ∧ i.2.vals = [c'.gridWord ch]) ∧
    (∀ g : Instant, c.imageAt g = none → isTick g = true → g + 312500 ≤ t → c.portFenced 15 = false → Gives s (.gridRelease t g) (c.at_ t).endCamp) ∧
    (∀ (p : Fin 4) (fr : SvRx) (im : MeasImage), c.meas.image = some im → c.portOn p.val = true → c.portFenced 15 = false →
      (streamOf im fr = none → Gives s (.svFrame t p fr) c) ∧
      ∀ f, streamOf im fr = some f → f.num < 16 → ∃ c', Gives s (.svFrame t p fr) c' ∧
        c'.rd (0x2620 + f.num) 0x05 = (c.rd (0x2620 + f.num) 0x05 + 1) % 2 ^ 48 ∧ c'.meas.chans = c.meas.chans ∧
        (∀ j ≠ f.num, c'.stream j = c.stream j) ∧
        ∀ a : Asdu, fr.asdus = [a] →
          let u := portStamp t
          let n0 := u / 1000000000 * f.rate + a.smpCnt
          let n := if n0 * 1000000000 ≤ u * f.rate then n0 else n0 - f.rate
          let x := c.stream f.num
          let x' := c'.stream f.num
          let newest := x.newest
          let late := decide (n * 1000000000 + (if f.rate = 4800 then 100000 else 239000) * f.rate < u * f.rate);
          u % 8 = 0 ∧ u ≤ t ∧ t < u + 8 ∧ x'.newest = max newest n ∧
          x'.aligned = (a.smpSynch == 2 || (a.smpSynch == 1 && f.local_)) ∧ n ∉ x'.gaps ∧
          (newest ≠ 0 → ∀ k, newest < k → k < n → n < k + 16 → k ∈ x'.gaps) ∧
          c'.rd (0x2620 + f.num) 0x07 = (c.rd (0x2620 + f.num) 0x07 + ((x.gaps.filter (fun k => decide (k + 16 ≤ n))).length +
            if newest = 0 then 0 else max (newest + 1) (n - 15) - (newest + 1))) % 2 ^ 48 ∧
          (late = true → c'.rd (0x2620 + f.num) 0x06 = (c.rd (0x2620 + f.num) 0x06 + 1) % 2 ^ 48 ∧ x'.samples = x.samples) ∧
          (late = false → c'.rd (0x2620 + f.num) 0x06 = c.rd (0x2620 + f.num) 0x06 ∧ x'.samples =
            (x.samples.filter (fun y => y.1 != n) ++ [(n, a.vals, a.quals.map streamQc)]).drop (x.samples.length + 1 - 16))) ∧
    (∀ (set : Fin 2) (count rate p : Nat) (im : MeasImage) (vals : List (List (Int × SvQual))), c.meas.image = some im →
      im.pubs.find? (fun q => q.1 == set.val) = some (p, rate) → (c.acts = true ∨ c.pairState = psStandbyReady) → count < rate →
      let n := if rate = 4800 then 1 else 6
      let sec := if t % 1000000000 * rate < (count + n - 1) * 1000000000 then t / 1000000000 - 1 else t / 1000000000;
      count % n = 0 → vals.length = n →
      (∀ i, i < n → (List.range 8).map (fun j => c.published (8 * set.val + (if j < 4 then 4 + j else j - 4)) ((sec * rate + count + i) * 1000000000) rate) =
        (nth [] vals i).map some) →
      let seq := ((c.at_ t).nextPubSeq true).1;
      let ports := (busPorts true).filter (fun q => c.portOn q);
      ∃ c', Gives s (.svPublicationFrame t set count) c' ∧ c'.meas = c.meas ∧
        (c.pair.inForce = true → c'.net.seqPairP = (c.net.seqPairP + 1) % 2 ^ 16) ∧
        (c.acts = false ∨ ports = [] → c'.net.sent = c.net.sent) ∧
        (c.acts = true → ports ≠ [] → (∀ q ∈ ports, c'.rd (0x2910 + q) 0x09 = (c.rd (0x2910 + q) 0x09 + 1) % 2 ^ 48) ∧
          c'.net.sent = c.net.sent ++ [.sv c.net.pubP (c.rd 0x2900 0x0B) seq set.val count (if (c.pairAt t).w1.getLsbD 7 then 2 else 0) vals])) ∧
    (∀ (temp : BitVec 32), c.meas.senseLost = false → ∃ c', Gives s (.senseTemperatureRead t temp) c' ∧ c'.rd 0x2600 0x05 = temp.toNat ∧
      c'.now = t ∧ c'.meas.chans = c.meas.chans ∧
      let b := c.rd 0x2600 0x06
      let b' := c'.rd 0x2600 0x06
      let x := real32Rat temp;
      ((((-40 + 20 * (b : Int) - 1 : Int) : Rat) ≤ x ∨ b = 0) → (x < ((-20 + 20 * (b : Int) + 1 : Int) : Rat) ∨ 7 ≤ b) → b' = b ∧ c'.meas = c.meas) ∧
      (b ≤ 7 → b' ≤ 7 ∧ ((((-40 + 20 * (b' : Int) - 1 : Int) : Rat) ≤ x ∨ b' = 0) ∧ (x < ((-20 + 20 * (b' : Int) + 1 : Int) : Rat) ∨ b' = 7))) ∧
      (b' ≠ b → ∀ r, c.meas.cal = some r → c'.meas.cal = some (if r.step < 2 then { r with step := 0, start := t }
        else if r.step = 2 then { r with step := 3 } else r)))

/-- R228-R230: calibrations run one at a time in order: matching of gain, offset and delay, switch-over at a cycle boundary after 300 ms, return
after 400 ms with the gain and offset found, which a gain more than 0.5 % from the previous discards. -/
def Obligations.CalibrationsRunInTurn : Prop :=
  (∀ (s : State) (a : Acc) (v : Nat),
    Writes s a v (beBytes v a.len) (.calibrationRequest a v, 0x2600, 0x07, fun _ => True,
      fun c _ => (c.forAll (if v.testBit 4 then List.range 16 else [v % 16]) (fun c ch => c.queueCal ch)).nextCal)) ∧
  (∀ (c : Chip) (ch k : Nat) (r : List Nat),
    ((∀ x, c.meas.cal = some x → x.ch ≠ ch) → ch ∉ c.meas.calQueue → (c.queueCal ch).meas.calQueue = c.meas.calQueue ++ [ch]) ∧
    (ch ∈ c.meas.calQueue → c.queueCal ch = c) ∧
    (c.meas.cal = none → c.meas.calQueue = k :: r →
      c.nextCal.meas.cal = some ⟨k, 0, c.now, 0x3F800000, 0, 0⟩ ∧ c.nextCal.meas.calQueue = r) ∧
    (c.meas.cal.isSome = true → c.nextCal.meas = c.meas)) ∧
  (∀ (c : Chip) (src : Nat) (g : Instant) (r : CalRun), c.startsWindow src g = true → c.meas.cal = some r → r.step = 3 → r.ch / 8 = src →
    (c.cycleBoundary src g).meas.cal = some { r with step := 0, start := c.now } ∧ ((c.cycleBoundary src g).chan r.ch).fromCal = false) ∧
  ∀ (s : State) (t : Instant),
    let c := s.chip
    let next := match c.meas.lastG with
      | some l => l + 62500
      | none => 0;
    (∀ im, c.meas.image = some im → im.rotate = true → t % 10000000000 = 0 → c.meas.senseLost = false → c.running = true →
      ∃ c', Gives s (.calibrationRotation t) c' ∧ c'.meas.nextRot = (c.meas.nextRot + 1) % 16 ∧
        (c.meas.cal = none → c.meas.calQueue = [] → c'.meas.cal = some ⟨c.meas.nextRot % 16, 0, t, 0x3F800000, 0, 0⟩)) ∧
    ∀ r, c.meas.cal = some r →
      (r.step = 0 → r.start + 100000000 ≤ t → ∀ (gain : BitVec 32) (offset delay : Int),
        Gives s (.calibrationMatch ⟨t, gain, offset, delay⟩)
          ((c.at_ t).modMeas (fun m => { m with cal := some { r with step := 1, gain := gain, offset := offset, delay := delay } }))) ∧
      (r.step = 1 → r.start + 300000000 ≤ t → c.meas.lastG.isSome = true → c.startsWindow (r.ch / 8) next = true → r.start + 300000000 ≤ next →
        ∃ c', Gives s (.calibrationSwitchOver t) c' ∧ c'.meas.cal = some { r with step := 2 } ∧ (c'.chan r.ch).fromCal = true ∧
          (c'.chan r.ch).chg = true ∧ ∀ k ≠ r.ch, c'.chan k = c.chan k) ∧
      (r.step = 2 → r.start + 400000000 ≤ t → c.meas.lastG.isSome = true → c.startsWindow (r.ch / 8) next = true → r.start + 400000000 ≤ next →
        r.ch < 16 → ∀ (gain : BitVec 32) (offset : Int),
        let band := nth 0 c.meas.setBand (r.ch / 8)
        let old := real32Rat (nth (0x3F800000, 0) (c.chan r.ch).coefs band).1
        let bad := decide (absRat old < 200 * absRat (real32Rat gain - old));
        ∃ c', Gives s (.calibrationReturn t (gain, offset)) c' ∧ (c'.chan r.ch).fromCal = false ∧ (c'.chan r.ch).chg = true ∧
          (c'.chan r.ch).calBad = bad ∧ (∀ b, nth (0x3F800000, 0) (c'.chan r.ch).coefs b =
            if b = band ∧ bad = false then (gain, offset) else nth (0x3F800000, 0) (c.chan r.ch).coefs b) ∧
          c'.rd (0x2610 + r.ch) 0x06 = (if bad then c.rd (0x2610 + r.ch) 0x06 else gain.toNat) ∧
          (bad = false → c'.rdPair (0x2610 + r.ch) 0x05 = (c.at_ t).pairAt t ∧ c'.recd = c.recd) ∧
          (bad = true → c.recd.queue.length < 256 → ∃ q ∈ c'.recd.queue, q.code = 0x0814) ∧
          (c.meas.calQueue = [] → c'.meas.cal = none) ∧ ∀ k q, c.meas.calQueue = k :: q → c'.meas.cal = some ⟨k, 0, t, 0x3F800000, 0, 0⟩)

/-- R237-R245: a complete window forms its results and accumulates, unless a sample of it is Invalid, and the next begins where it ends;
intervals and synchrophasors put their results; the accumulators are saved every 60 s and reset by a write at the next window end. The
values that the specification names no estimator for are free values of the model (log 8). -/
def Obligations.WindowsIntervalsAndAccumulators : Prop :=
  (∀ (s : State) (t : Instant) (k : Fin 8) (f : SetCfg) (n0 : Instant),
    let c := s.chip
    let x := c.mset k.val;
    c.setCfg k.val = some f → x.n0 = some n0 → 0 < x.len → x.len ≤ x.samples.length → n0 + x.len * 62500 + 312500 ≤ t →
    c.portFenced 15 = false → ∃ c', Gives s (.windowEnd t k) c' ∧ (c'.mset k.val).n0 = some (n0 + x.len * 62500) ∧ (c'.mset k.val).samples = x.samples.drop x.len ∧
      (c'.mset k.val).fresh = false ∧ (c'.mset k.val).len = c'.windowLen k.val ∧ (c'.mset k.val).resets = 0 ∧
      (c'.mset k.val).aggs.map (fun a => (a.count, a.dur)) = x.aggs.map (fun a => (a.count + 1, a.dur + x.len)) ∧
      ((∃ v ∈ x.samples.take x.len, ∃ p ∈ v, p.2 = 2) →
        (c'.mset k.val).acc = (x.acc.zipIdx).map (fun p => if x.resets.testBit p.2 then 0 else p.1) ∧
        c'.rd (0x2700 + k.val) 0x0D = (c.rd (0x2700 + k.val) 0x0D + 1) % 2 ^ 48) ∧
      (∀ q, q < 49 → (f.wiring ≠ 2 ∨ q < 24 ∨ 39 ≤ q) → fieldOf (WMem.get (c'.mset k.val).results q).toNat 47 44 =
        (if (33 ≤ q ∧ q < 36 ∧ nth 0 (windowVals f.wiring (if x.freqQ = 2 ∨ x.freq ≤ 0 then 16000 / (x.len : Rat) else x.freq)
              (c.primary f.source (x.samples.take x.len))) (q - 3) = 0) ∨
            (q = 42 ∧ nth 0 (windowVals f.wiring (if x.freqQ = 2 ∨ x.freq ≤ 0 then 16000 / (x.len : Rat) else x.freq)
              (c.primary f.source (x.samples.take x.len))) 41 = 0)
          then qMin (quantityQc f.wiring q (x.samples.take x.len)) 1 else quantityQc f.wiring q (x.samples.take x.len)) % 16) ∧
      fieldOf (WMem.get (c'.mset k.val).results 49).toNat 47 44 =
        qMin (freqQc f.wiring (c'.mset k.val).freqBy (x.samples.take x.len)) (c'.mset k.val).freqQ % 16 ∧
      ∀ j ≠ k.val, c'.mset j = c.mset j) ∧
  (∀ (c : Chip) (k : Nat) (incs : List (Option Rat)) (j : Nat), k < 8 → incs.length = 8 → (c.mset k).acc.length = 8 → (c.mset k).frac.length = 8 → j < 8 →
    let x := c.mset k
    let y := (c.accumulate k incs true).mset k;
    (x.resets.testBit j = true → nth 0 y.acc j = 0 ∧ nth 0 y.frac j = 0) ∧
    (x.resets.testBit j = false → (nth none incs j = none → nth 0 y.acc j = nth 0 x.acc j ∧ nth 0 y.frac j = nth 0 x.frac j) ∧
      ∀ e, nth none incs j = some e →
        let r := addEnergy (nth 0 x.acc j) (nth 0 x.frac j) e
        let gained : Rat := (((r.1 - nth 0 x.acc j) * 2 ^ 32 + (r.2.1 - nth 0 x.frac j : Int) : Int) : Rat);
        nth 0 y.acc j = r.1 ∧ nth 0 y.frac j = r.2.1 ∧
        (r.2.2 = false → microWh e * 2 ^ 32 ≤ gained ∧ gained < microWh e * 2 ^ 32 + 1) ∧ (r.2.2 = true → (c.accumulate k incs true).bit (0x2700 + k) 0x0C j = true))) ∧
  (∀ (s : State) (t : Instant) (k : Fin 8) (f : SetCfg) (i : Interval),
    let c := s.chip
    let p := intervalPlace i
    let x := c.mset k.val
    let a := nth (aggFrom 0) x.aggs p
    let utc (x : Instant) : Nat := ((x / 1000000000 : Nat) - (c.rdw 0x2A00 0x0D).toInt).toNat
    let due : Prop := match i with
      | .cycles10 => (if c.nominal = 60 then 12 else 10) ≤ a.count
      | .cycles150 => (if c.nominal = 60 then 180 else 150) ≤ a.count
      | .min10 => utc a.last / 600 ≠ utc t / 600
      | .hour2 => utc a.last / 7200 ≠ utc t / 7200
      | .sec10 => utc a.last / 10 ≠ utc t / 10
    let capped (q : Nat) : Nat := if a.flag || x.fresh then qMin (nth 0 a.qcs q) 1 else nth 0 a.qcs q;
    c.setCfg k.val = some f → 0 < a.count → due → c.portFenced 15 = false → ∃ c', Gives s (.intervalEnd t k i) c' ∧
      nth (aggFrom 0) (c'.mset k.val).aggs p = aggFrom t ∧
      (∀ q, q ≠ p → ¬ (i = .min10 ∧ q = 0) → nth (aggFrom 0) (c'.mset k.val).aggs q = nth (aggFrom 0) x.aggs q) ∧
      (i = .sec10 → WMem.get (c'.mset k.val).results 369 = quantityWord (capped 49) (ratF32 (aggFreq10 a x.freq))) ∧
      (i ≠ .sec10 → ∀ q, q < 50 → (q < 16 ∨ (43 ≤ q ∧ q < 49) →
          WMem.get (c'.mset k.val).results (64 * (p + 1) + q) = quantityWord (capped q) (ratF32 (sqrtRat (nth 0 a.sums q / a.count)))) ∧
        (39 ≤ q ∧ q < 42 → WMem.get (c'.mset k.val).results (64 * (p + 1) + q) = quantityWord (capped q) (ratF32 (nth 0 a.sums q / a.count)))) ∧
      (c'.mset k.val).acc = x.acc ∧ c'.regs = c.regs) ∧
  (∀ (s : State) (t : Instant) (k : Fin 8) (f : SetCfg),
    let c := s.chip
    let rate := fieldOf f.phasor 7 0
    let m := f.phasor.testBit 8
    let r := t / 1000000000 * 1000000000 + (t % 1000000000) * rate / 1000000000 * 1000000000 / rate
    let reach := if m then 5000000000 / rate else 1000000000 / c.nominal;
    c.setCfg k.val = some f → rate ∈ (if c.nominal = 60 then [10, 12, 15, 20, 30, 60, 120] else [10, 25, 50, 100]) →
    (c.mset k.val).phPair.instant < r → (c.mset k.val).n0.isSome = true → c.portFenced 15 = false →
    ∃ c', Gives s (.synchrophasorReport t k) c' ∧ (c'.mset k.val).phPair = (c.at_ t).pairAt r ∧ c'.regs = c.regs ∧
      ∀ i, i < 22 → WMem.get (c'.mset k.val).results (512 + i) =
        quantityWord (phasorQc f.wiring (c.mset k.val) r reach i) (ratF32 (nth 0 (c.phasorReport k.val f m rate r) i))) ∧
  (∀ nominal second, phasorRef nominal (second * 1000000000) = 0) ∧
  (∀ (s : State) (t : Instant), let c := s.chip
    c.running = true → c.meas.savedAt + 60000000000 ≤ t → ∃ c', Gives s (.accumulatorSave t) c' ∧ c'.meas = { c.meas with savedAt := t } ∧
      c'.store.queue.length + c'.store.held.length = c.store.queue.length + c.store.held.length + 8 ∧
      (c.store.queue.length + 8 ≤ 64 → c'.store.held = c.store.held) ∧ ∀ k, k < 8 → c'.rdPair (0x2700 + k) 0x0B = (c.at_ t).pairAt t) ∧
  ∀ (s : State) (a : Acc) (k : Fin 8) (v : Nat),
    Writes s a v (beBytes v a.len) (.accumulatorReset a k v, 0x2700 + k.val, 0x0A, fun _ => True,
      fun c w => (c.modSet k.val (fun x => { x with resets := x.resets ||| (v % 256) })).eventAs c.now Config.resetEventCode sevAudit false 4 k.val
        w.org w.csn (leBytes k.val 1 ++ leBytes v 1))

/-- R247, R248, R250-R253: triggers start a capture or mark the one that runs; a complete one is stored where unlocked ones make room; locks,
the data of the named capture and pages; camp stages pick up and drop out and their records move to the recorder. -/
def Obligations.CapturesAndCampRecords : Prop :=
  (∀ (s : State) (a : Acc) (v : Nat),
    let named (c : Chip) : Chip := c.modMeas (fun m => { m with named := fieldOf v 15 8 })
    let locks (on : Bool) (c : Chip) : Chip := (named c).modMeas (fun m => { m with
      stored := m.stored.map (fun x => if x.num % 256 = fieldOf v 15 8 then { x with locked := on } else x) });
    ∀ p ∈ ([(Instr.captureTrigger a v, 0x2600, 0x0B, fun _ => fieldOf v 3 0 = 1, fun c _ => (named c).triggerCapture 255),
        (.captureLock a v, 0x2600, 0x0B, fun _ => fieldOf v 3 0 = 2, fun c _ => locks true c),
        (.captureUnlock a v, 0x2600, 0x0B, fun _ => fieldOf v 3 0 = 3, fun c _ => locks false c)] :
        List (Instr × Nat × Nat × (Chip → Prop) × (Chip → Who → Chip))),
      Writes s a v (beBytes v a.len) p) ∧
  (∀ (c : Chip) (src : Nat) (im : MeasImage) (g : Instant), c.meas.image = some im → c.meas.lastG = some g →
    (∀ x, c.meas.capture = some x → (c.triggerCapture src).meas = { c.meas with capture := some { x with retrig := x.retrig ++ [c.pairAt g] } }) ∧
    (c.meas.capture = none → ∃ x, (c.triggerCapture src).meas = { c.meas with capture := some x, nextNum := c.meas.nextNum + 1 } ∧
      x.num = c.meas.nextNum ∧ x.trigger = g ∧ x.pair = c.pairAt g ∧ x.source = src ∧ x.locked = false ∧ x.endsAt = g + im.post * 1000000 ∧ x.retrig = [] ∧
      x.chans = im.capChans ∧ x.pre = im.pre ∧ x.post = im.post)) ∧
  (∀ (s : State) (m : Msg) (off want : Nat) (d : Chip) (w : Who),
    s.chip.opens m 0x2600 0x0D (msgBytes 0x10 (m.sid.getD 0) m.ctr 0 (readPayload 0x2600 0x0D off want)) = some (d, w) →
    Gives s (.captureDataRead m off want) ((d.bumpBy 0x2D00 0x07 m.ecc.single).answer w.path 0 w.ctr
      (readBody d.namedCapture.length ((d.namedCapture.drop off).take (min want 1396))))) ∧
  ∀ (s : State) (t : Instant),
    let c := s.chip;
    (∀ x g, c.meas.capture = some x → c.meas.lastG = some g → x.endsAt ≤ g → ∃ c', Gives s (.captureComplete t) c' ∧ c'.meas.capture = none ∧
      let put (l : List Capture) : Prop :=
        let secs := freeSectors l (captureSectors x);
        c'.meas.stored = l ++ [{ x with sectors := secs }] ∧ c'.regs = c.regs ∧ c'.die = c.die.putCapture secs (captureAs leBytes x);
      (c.portFenced 2 = false → storedSectors c.meas.stored + captureSectors x ≤ 128 → put c.meas.stored) ∧
      (c.portFenced 2 = false → ∀ p y q, c.meas.stored = p ++ y :: q → (∀ z ∈ p, z.locked = true) → y.locked = false →
        128 < storedSectors c.meas.stored + captureSectors x → storedSectors (p ++ q) + captureSectors x ≤ 128 → put (p ++ q)) ∧
      (c.portFenced 2 = true ∨ (128 < storedSectors c.meas.stored + captureSectors x ∧ ∀ y ∈ c.meas.stored, y.locked = true) →
        c'.meas.stored = c.meas.stored ∧ c'.die = c.die ∧ c'.rd 0x2600 0x0C = (c.rd 0x2600 0x0C + 1) % 2 ^ 48)) ∧
    (∀ (n : Fin 16) (g : ClsCfg) (a b : Nat) (x : Capture), (c.cl n.val).cfg = some g → g.pageReq = some (a, b) → (c.cl n.val).everDisp = true → c.portFenced 15 = false →
      c.meas.stored.find? (fun y => y.num == (Config.pageRequest (WMem.get (c.cl n.val).pub a)).1) = some x →
      ∃ c' i, Gives s (.capturePageFetch t n) c' ∧ (c'.cl n.val).items = (c.cl n.val).items ++ [i] ∧ i.src = .capturePage ∧ i.stamp = t ∧
        i.vals = (x.samples.drop (256 * (Config.pageRequest (WMem.get (c.cl n.val).pub a)).2)).take 256) ∧
    (∀ (ch : Fin 8) (samples : List Int) (im : MeasImage), c.meas.campOn = true → samples.length = 80 → (c.target 5).meas = some im →
      let k := nth ⟨0, 0, 0, 0, 0, 0⟩ im.chans (if ch.val < 4 then 4 + ch.val else 8 + ch.val)
      let up (d : Chip) (stg : Nat) : Bool := (nth ⟨false, 0, 0⟩ d.meas.campStages (2 * ch.val + stg)).up
      let thr (stg : Nat) : Nat := if stg = 0 then k.stage1 else k.stage2
      let below (stg pct : Nat) : Bool := decide ((samples.map (fun v => v.natAbs * v.natAbs)).sum * 10000 < 80 * 2 ^ 18 * (thr stg * pct) * (thr stg * pct));
      ∃ c', Gives s (.campWindowEnd t ch samples) c' ∧
        (∀ stg, stg < 2 → up c' stg = if up c stg then !below stg 95 else !below stg 100) ∧
        (∀ j, j / 2 ≠ ch.val → nth ⟨false, 0, 0⟩ c'.meas.campStages j = nth ⟨false, 0, 0⟩ c.meas.campStages j) ∧
        (c.campRecs.length < 255 →
          c'.campRecs.length = c.campRecs.length + ((List.range 2).filter (fun stg => up c stg != up c' stg)).length)) ∧
    (c.running = true → c.meas.campOn = false → ∃ c' l, Gives s (.campRecordTransfer t) c' ∧ c'.recd.queue = queueEvents c.recd.queue l ∧
      l.length = min (256 - c.recd.queue.length) c.campRecs.length ∧ c'.campRecs = c.campRecs.drop (256 - c.recd.queue.length) ∧
      c'.rd 0x2600 0x0E = (c.rd 0x2600 0x0E + l.length) % 2 ^ 48 ∧
      ∀ (i : Nat) (r : CampRec) (q : EvRec), c.campRecs[i]? = some r → l[i]? = some q → q.code = (if r.stg2 then 0x0816 else 0x0815) ∧ q.unit = r.ch)

/-! ### The field die -/

/-- R257-R260, R264, R265, R280, R315, Tables 09-3 and 09-7: a supply condition is reported and masks detection; a reset of the die turns every
output off and loses what it held; the tick latch, the refresh and the fail action 2 ms after it; settings take effect at their tick. -/
def Obligations.TheFieldDieResetsLatchesAndFails : Prop :=
  ∀ (s : State) (t : Instant),
    let c := s.chip
    let heard (k : Nat) : Prop := c.field.linkUp = true ∧ c.recd.queue.length < 256 ∧ ∀ x ∈ c.field.taken, x.1 = k → x.2.1 ≠ t;
    (∀ (s2 missing set : Bool), c.fieldAlive = true → c.bit 0x2800 0x02 (supplyBit s2 missing) ≠ set →
      ∃ c', Gives s (.fieldSupplyChange t s2 missing set) c' ∧ c'.bit 0x2800 0x02 (supplyBit s2 missing) = set ∧
        (∀ b, b ≠ supplyBit s2 missing → c'.bit 0x2800 0x02 b = c.bit 0x2800 0x02 b) ∧
        (missing = true → set = true → c'.masked s2 = true ∧
          (∀ n, n < 24 → doSupply n = s2 → ∀ b ∈ [stRBK, stGRP, stOVL, stSHT, stOPN, stMIS, stEXT], c'.doBit n b = false) ∧
          ∀ o, o < 4 → aoSupply o = s2 → (c'.aoch o).cpl = false ∧ (c'.aoch o).delivered = 0) ∧
        (missing = true → set = false → (if s2 then c'.field.mask2 else c'.field.mask1) = t + 10000000 ∧
          ∀ o, o < 4 → aoSupply o = s2 → (c'.aoch o).delivered = (c.aoch o).applied) ∧
        (heard (noteKey (0x0901 + supplyBit s2 missing) (supplySev missing) (bit01 s2) (!set)) →
          ∃ q ∈ c'.recd.queue, q.code = 0x0901 + supplyBit s2 missing ∧ q.fin = !set)) ∧
    (c.fieldAlive = true → ∃ c', Gives s (.fieldDieReset t) c' ∧ c'.field.inReset = true ∧ c'.field.linkUp = false ∧
      c'.power.domains = c.power.domains &&& 0xBFFF#16 ∧ c'.field.resetAt = some t ∧ c'.field.sched = [] ∧
      c'.field.events = [] ∧ c'.rd 0x2800 0x06 = (c.rd 0x2800 0x06 + (c.field.sched.length + c.queuedCommands)) % 2 ^ 48 ∧
      c'.rd 0x2800 0x04 = (c.rd 0x2800 0x04 + 1) % 2 ^ 48 ∧ c'.bit 0x2800 0x02 4 = true ∧
      c'.rd 0x2800 0x01 = (if c.fieldRuns then 1 else c.rd 0x2800 0x01) ∧
      (∀ n, n < 24 → (c'.doc n).applied = false ∧ (c'.doc n).pulse = none ∧ (∀ b, c'.doBit n b = false) ∧
        c'.rd (0x2840 + n) 0x06 = c.rd (0x2840 + n) 0x06) ∧
      (∀ o, o < 4 → (c'.aoch o).applied = 0 ∧ (c'.aoch o).delivered = 0) ∧
      ∀ d, (c'.di d).valid = false ∧ (c'.di d).count = 0) ∧
    (c.field.inReset = true → Gives s (.fieldDieResetEnd t)
      { c.at_ t with field := { c.field with inReset := false, lastRefresh := t }
                     power := { c.power with domains := c.power.domains ||| 0x4000#16 } }) ∧
    (c.field.inReset = false → c.rd 0x2800 0x01 = 1 → ∃ c', Gives s (.fieldDieRediscovered t) c' ∧ c'.rd 0x2800 0x01 = 2 ∧
      c' = { c with now := t, regs := c'.regs, recd := c'.recd, field := { c.field with
        discAt := t, linkUp := true, lastRefresh := t, deliver := allOutputs, notes := [], taken := c'.field.taken } } ∧
      SameRegs c c' [(0x2800, 0x01), (0x2B00, 0x09)] ∧
      (c.recd.queue.length + c.field.notes.length ≤ 256 →
        c'.recd.queue.length = c.recd.queue.length + c.field.notes.length ∧ c'.rd 0x2B00 0x09 = c.rd 0x2B00 0x09) ∧
      (NMem.wf c.field.notes = true → ∀ n ∈ c.field.notes, (n.1, t, n.2 == 2) ∈ c'.field.taken)) ∧
    (isTick t = true → c.fieldAlive = true → ∃ c', Gives s (.fieldTickLatch t) c' ∧
      (∀ d, d < 48 → (c'.di d).count = (match (c.di d).resetDue with
          | some r => if r ≤ t then 0 else (c.di d).count
          | none => (c.di d).count) ∧
        (c.field.linkUp = false → c'.regs = c.regs) ∧
        (c.field.linkUp = true → c'.rd (0x2810 + d) 0x03 = (c'.di d).count % 2 ^ 48 ∧ c'.rd (0x2810 + d) 0x06 = (c.di d).freqVal.toNat)) ∧
      (∀ o, o < 4 → t % 1000000 = 0 → (c.aoch o).changedAt + 1000000 ≤ t → (c'.aoch o).readback = (c.aoch o).delivered) ∧
      (c.field.linkUp = true →
        (∀ n, n < 24 → c'.rd (0x2840 + n) 0x06 = c.supplyQc (doSupply n) false * 2 ^ 44 + fieldOf (NMem.get c.field.live n) 11 0) ∧
        ∀ o, o < 4 → c'.fld (0x2868 + o) 0x05 31 0 = (c'.aoch o).readback % 2 ^ 32 ∧ c'.fld (0x2868 + o) 0x05 43 41 = fieldOf (NMem.get c.field.live (24 + o)) 43 41)) ∧
    (isTick t = true → c.fieldRuns = true → c.field.linkUp = true → c.field.inReset = false →
      (c.field.failing = false → Gives s (.fieldRefresh t) ((c.at_ t).modField (fun f => { f with lastRefresh := t }))) ∧
      (c.field.failing = true → ∃ c', Gives s (.fieldRefresh t) c' ∧ c'.field.lastRefresh = t ∧ c'.field.failing = false ∧
        c'.field.deliver = allOutputs ∧ (∀ n, n < 24 → c'.doBit n stFLA = false) ∧ ∀ o, o < 4 → c'.aoBit o aoFLA = false)) ∧
    (c.fieldAlive = true → c.field.failing = false → c.field.lastRefresh + 2000000 ≤ t → ∃ c', Gives s (.failAction t) c' ∧
      c'.field.failing = true ∧ c'.rd 0x2800 0x05 = (c.rd 0x2800 0x05 + 1) % 2 ^ 48 ∧
      (∀ n, n < 24 → c'.doBit n stFLA = true ∧
        (c.rd (0x2840 + n) 0x04 = 0 → (c.doc n).pulse = none → (c'.doc n).applied = false) ∧
        (c.rd (0x2840 + n) 0x04 ≠ 0 → c'.doc n = c.doc n)) ∧
      ∀ o, o < 4 → c'.aoBit o aoFLA = true ∧ (c.rd (0x2868 + o) 0x02 = 0 → (c'.aoch o).applied = 0) ∧
        (c.rd (0x2868 + o) 0x02 ≠ 0 → c'.aoch o = c.aoch o)) ∧
    ∀ (ix sub v : Nat) (u : Instant), c.field.pendSet = [(ix, sub, v, u)] → u ≤ t → ∃ c', Gives s (.settingTakesEffect t) c' ∧
      c'.field.pendSet = [] ∧
      ((0x2840 ≤ ix ∧ ix < 0x2858 ∧ sub = 0x08) → c'.doBit (ix - 0x2840) stLAT = false) ∧
      ((0x2920 ≤ ix ∧ ix < 0x2924 ∧ sub = 0x06) → (c'.canp (ix - 0x2920)).waiting = false) ∧
      ((0x2910 ≤ ix ∧ ix < 0x2914 ∧ sub = 0x06) → (c'.ethp (ix - 0x2910)).testing = ((c.ethp (ix - 0x2910)).testing || !c.bit ix 0x03 0)) ∧
      ((0x2868 ≤ ix ∧ ix < 0x286C ∧ sub = 0x03) → c.aoAlarmed (ix - 0x2868) = true → c.field.failing = false →
        let na := if v % 2 ^ 48 = 0 then 3500000 else 21500000;
        (c'.aoch (ix - 0x2868)).armed = (na, true) ∧ (c.pairState ≠ psStandbyReady → (c'.aoch (ix - 0x2868)).applied = na)) ∧
      (¬ (0x2840 ≤ ix ∧ ix < 0x2858 ∧ sub = 0x08) → ¬ (0x2920 ≤ ix ∧ ix < 0x2924 ∧ sub = 0x06) →
        ¬ (0x2910 ≤ ix ∧ ix < 0x2914 ∧ sub = 0x06) → c'.rd ix sub = v % 2 ^ 48)

/-- R279, R406: an event of the die reaches the core once; while the previous of its kind is not acknowledged, within its instant or over an outage
of the link, it merges with that, is counted in 0x2800.07 and leaves the merge flag; the link, when it is back, delivers each kind once. -/
def Obligations.NotificationsCrossOnceAndMerge : Prop :=
  (∀ (c : Chip) (code sev unit : Nat) (fin : Bool) (dtl : List Byte),
    let k := noteKey code sev unit fin
    let c' := c.notify code sev unit fin dtl
    let again := c.field.taken.any (fun x => x.1 == k && x.2.1 == c.now);
    (c.field.linkUp = true → again = false → c'.rd 0x2800 0x07 = c.rd 0x2800 0x07 ∧ (k, c.now, false) ∈ c'.field.taken ∧
      (c.recd.queue.length < 256 → ∃ q ∈ c'.recd.queue, q.code = code ∧ q.sev = sev ∧ q.unit = unit ∧ q.fin = fin ∧ q.dtl = dtl)) ∧
    (c.field.linkUp = true → again = true → c'.rd 0x2800 0x07 = (c.rd 0x2800 0x07 + 1) % 2 ^ 48 ∧ (k, c.now, true) ∈ c'.field.taken ∧
      c'.recd = c.recd) ∧
    (c.field.linkUp = false → c'.recd = c.recd ∧ c'.field.taken = c.field.taken ∧
      (NMem.has c.field.notes k = false → c'.regs = c.regs ∧ (NMem.wf c.field.notes = true → NMem.get c'.field.notes k = 1)) ∧
      (NMem.has c.field.notes k = true → c'.rd 0x2800 0x07 = (c.rd 0x2800 0x07 + 1) % 2 ^ 48 ∧
        (NMem.wf c.field.notes = true → NMem.get c'.field.notes k = 2)))) ∧
  ∀ code sev unit fin code' sev' unit' fin', sev < 8 → unit < 64 → sev' < 8 → unit' < 64 →
    noteKey code sev unit fin = noteKey code' sev' unit' fin' → code = code' ∧ sev = sev' ∧ unit = unit' ∧ fin = fin'

/-- R257, R262-R266, R273-R275, Tables 09-5 and 09-8: an edge is stamped to 25 ns and accepted after its debounce time, counted by the input's mode
and timed for its frequency; a conversion gives its word; trims; and what writes of the die's entries do. -/
def Obligations.InputsAreAcceptedCountedAndConverted : Prop :=
  (∀ (s : State) (t : Instant) (d : Fin 48),
    let c := s.chip
    let x := c.di d.val
    let deb := c.rd (0x2810 + d.val) 0x01
    let counted (lv : Bool) (n : Nat) (b : Bool) : Nat := if b && edgeCounts (c.cntMode d.val) lv then (n + 1) % 2 ^ 48 else n;
    (∀ lv, c.fieldAlive = true → x.raw ≠ lv →
      let c0 := c.acceptDue d.val t
      let y := c0.di d.val;
      ∃ c', Gives s (.diEdge t d lv) c' ∧ (c'.di d.val).raw = lv ∧
      (deb = 0 → y.level ≠ lv → (c'.di d.val).level = lv ∧ (c'.di d.val).stp = some (t / 25 * 25) ∧ (c'.di d.val).changes = y.changes + 1 ∧
        (c'.di d.val).run = none ∧ (c'.di d.val).count = counted lv y.count true) ∧
      (deb = 0 → y.level = lv → (c'.di d.val).level = lv ∧ (c'.di d.val).run = none ∧ (c'.di d.val).changes = y.changes ∧
        (c'.di d.val).count = counted lv y.count (c.cntRaw d.val)) ∧
      (deb ≠ 0 → (c'.di d.val).level = y.level ∧ (c'.di d.val).run = some (t / 25 * 25) ∧ (c'.di d.val).changes = y.changes ∧
        (c'.di d.val).count = counted lv y.count (c.cntRaw d.val)) ∧
      (lv = true → 0 < c.gateNs d.val → x.fT0 = none → (c'.di d.val).fT0 = some (t / 25 * 25) ∧ (c'.di d.val).fN = 0) ∧
      (∀ u, lv = true → 0 < c.gateNs d.val → x.fT0 = some u → c.freqDue d.val = false → (c'.di d.val).fT0 = some u ∧
        (c'.di d.val).fN = x.fN + 1 ∧ (c'.di d.val).lastRise = some (t / 25 * 25)) ∧
      ∀ k ≠ d.val, c'.di k = c.di k) ∧
    (∀ e, x.run = some e → c.fieldAlive = true → x.raw = x.level ∨ t < e + deb * 1000 → c.acceptDue d.val t = c) ∧
    (∀ e, x.run = some e → c.fieldAlive = true → x.raw ≠ x.level → e + deb * 1000 ≤ t → ∃ c', Gives s (.diAccept t d) c' ∧
      Gives s (.diAccept t d) (c.acceptDue d.val t) ∧
      (c'.di d.val).level = x.raw ∧ (c'.di d.val).stp = some e ∧ (c'.di d.val).acc = some (e + deb * 1000) ∧ (c'.di d.val).changes = x.changes + 1 ∧ (c'.di d.val).run = none ∧
      (c'.di d.val).count = counted x.raw x.count (!c.cntRaw d.val) ∧ ∀ k ≠ d.val, c'.di k = c.di k) ∧
    (∀ u e, c.fieldAlive = true → 0 < c.gateNs d.val → x.fT0 = some u → x.lastRise = some e → u + c.gateNs d.val ≤ e →
      Gives s (.frequencyMeasurementEnd t d) ((c.at_ t).modDi d.val (fun y => { y with
        freqVal := ratReal32 (x.fN * 1000000000) (e - u), freqQ := if 100000 * (e - u) < x.fN * 1000000000 then 1 else 0,
        fT0 := some e, fN := 0, fValid := x.fValid || c.fieldRuns }))) ∧
    (c.fieldAlive = true → 0 < c.gateNs d.val → x.lastRise.getD c.field.discAt + 110000000000 ≤ t →
      Gives s (.frequencyTimeout t d) ((c.at_ t).modDi d.val (fun y => { y with
        freqVal := 0, freqQ := 0, fT0 := none, fN := 0, fValid := x.fValid || c.fieldRuns }))) ∧
    ∀ (m : Msg) (b : Chip) (w : Who),
      c.opens m (0x2810 + d.val) 0x08 (msgBytes 0x10 (m.sid.getD 0) m.ctr 0 (readPayload (0x2810 + d.val) 0x08 0 18)) = some (b, w) →
      Gives s (.changeRecordRead m d) ((b.modDi d.val (fun y => { y with readCnt := y.changes })).answer w.path 0 w.ctr
        (readBody (b.changeRecord d.val).length ((b.changeRecord d.val).take 18)))) ∧
  (∀ (s : State) (t : Instant) (ch : Fin 8),
    let c := s.chip
    let ix := 0x2860 + ch.val;
    (∀ (raw : Int) (lim : Bool), t % 1000000 = 0 → c.fieldAlive = true → c.rd ix 0x07 ≠ 1 → (c.aich ch.val).trim = none →
      let i := c.corrected ch.val raw
      let nes := if lim then 5 else if i ≤ 3600000 then 3 else if i < 3800000 then 1 else if i ≤ 20500000 then 0 else if i < 21000000 then 2 else 4
      let q := if lim then 2 else if i ≤ 3600000 then 2 else if i < 3800000 then 1 else if i ≤ 20500000 then 0 else if i < 21000000 then 1 else 2
      ∃ c', Gives s (.aiConversion t ch raw lim) c' ∧
        (c'.aich ch.val).word = toWord (qMin q (c.supplyQc (aiSupply ch.val) false) * 2 ^ 44 + nes * 2 ^ 41 + i) ∧
        (c.field.linkUp = true → c'.rd ix 0x05 = ((c'.aich ch.val).word).toNat) ∧
        (c.field.linkUp = true → c.placed (.ai ch) = true → c.bit 0x2100 0x03 0 = false → ∃ y ∈ c'.crossing, y.2.src = .ai ch ∧ y.2.stamp = t ∧ y.2.vals = [(c'.aich ch.val).word]) ∧
        (3 ≤ nes → (∀ p ∈ (c.aich ch.val).fails, p.1 ≠ nes) → c'.rd ix 0x06 = (c.rd ix 0x06 + 1) % 2 ^ 48) ∧
        ∀ k ≠ ch.val, c'.aich k = c.aich k) ∧
    (∀ (raw : Int) (lim : Bool), t % 1000000 = 0 → c.fieldAlive = true → c.rd ix 0x07 = 1 → (c.aich ch.val).trim = none →
      ∃ c', Gives s (.aiConversion t ch raw lim) c' ∧ (c'.aich ch.val).word =
        toWord (qMin (if 24000000 < raw then 1 else 0) (c.supplyQc (aiSupply ch.val) false) * 2 ^ 44 + c.corrected ch.val raw) ∧
        c'.rd ix 0x06 = c.rd ix 0x06) ∧
    ∀ (act : Nat) (b : Instant) (raws : List Int) (org csn : Nat), (c.aich ch.val).trim = some (act, b, raws, org, csn) → b ≤ t →
      (act = 3 ∨ 16 ≤ raws.length) → ∃ c', Gives s (.trimComplete t ch) c' ∧ (c'.aich ch.val).trim = none ∧
        (act = 3 → c'.rd ix 0x02 = 0 ∧ c'.rd ix 0x03 = 0x3F800000) ∧
        (act = 1 → -3200000 ≤ 64000000 - raws.sum → 64000000 - raws.sum ≤ 3200000 → raws.sum % 16 = 0 →
          c'.rdw ix 0x02 = ofIntWord ((64000000 - raws.sum) / 16) ∧ c'.rd ix 0x03 = c.rd ix 0x03 % 2 ^ 32) ∧
        (act = 1 → (64000000 - raws.sum < -3200000 ∨ 3200000 < 64000000 - raws.sum) → c'.rdw ix 0x02 = c.rdw ix 0x02 ∧
          (c.recd.queue.length < 256 → ∃ q ∈ c'.recd.queue, q.code = 0x0933 ∧ q.org = org ∧ q.csn = csn))) ∧
  (∀ (s : State) (a : Acc) (v ix sub : Nat) (d : Fin 48) (n : Fin 24),
    ∀ p ∈ ([(Instr.counterReset a d v, 0x2810 + d.val, 0x04, fun _ => True,
          fun c _ => c.modDi d.val (fun x => { x with resetDue := some (settingTick a.t) })),
        (.latchReset a n v, 0x2840 + n.val, 0x08, fun _ => True,
          fun c _ => c.modField (fun f => { f with pendSet := f.pendSet ++ [(0x2840 + n.val, 0x08, v, settingTick a.t)] })),
        (.fieldConfigWrite a ix sub v, ix, sub, fun c => isFieldCfg ix sub = true ∧ c.fieldRefused ix sub v = false ∧ c.storeFree = true,
          fun c _ => (c.persist 1 ix sub (otherOrder ix sub (beBytes v a.len))).modField (fun f => { f with
            pendSet := f.pendSet ++ [(ix, sub, v &&& regMask ix sub, settingTick a.t)] }))] :
        List (Instr × Nat × Nat × (Chip → Prop) × (Chip → Who → Chip))),
      Writes s a v (beBytes v a.len) p) ∧
  ∀ (s : State) (a : Acc) (ch : Fin 8), ∀ p ∈ [(Instr.zeroTrim a ch, 1), (.spanTrim a ch, 2), (.clearTrims a ch, 3)],
    Writes s a p.2 (beBytes p.2 a.len) (p.1, 0x2860 + ch.val, 0x04, fun _ => True,
      fun c w => c.modAi ch.val (fun x => { x with trim := some (p.2, settingTick a.t, [], w.org, w.csn) }))

/-- R258, R269-R272, R276-R278, Table 09-7: pulses end; diagnostic bits are set where the switch and its supply allow detection, counted and
recorded, and clear; a third shutdown within a second latches the output; loop outputs report a shortfall and fall to 0 mA. -/
def Obligations.OutputsPulseAndDiagnoseThemselves : Prop :=
  ∀ (s : State) (t : Instant),
    let c := s.chip
    let c0 := c.at_ t
    let heard (k : Nat) : Prop := c.field.linkUp = true ∧ c.recd.queue.length < 256 ∧ ∀ x ∈ c.field.taken, x.1 = k → x.2.1 ≠ t
    let crosses (c' : Chip) (o : Fin 4) : Prop := c.field.linkUp = true → c.placed (.aoStatus o) = true → c.bit 0x2100 0x03 0 = false →
      ∃ y ∈ c'.crossing, y.2.src = .aoStatus o ∧ y.2.stamp = t ∧ y.2.vals = [c'.aoStatusWord o.val]
    let settled (c' : Chip) (n b : Nat) : Prop := c'.doBit n b = true ∧ (∀ k ≠ n, c'.doc k = c.doc k) ∧
      (c.doBit n b = false → c'.rd (0x2840 + n) 0x07 = (c.rd (0x2840 + n) 0x07 + 1) % 2 ^ 48) ∧
      (c.doBit n b = true → c'.rd (0x2840 + n) 0x07 = c.rd (0x2840 + n) 0x07);
    (∀ n : Fin 24,
      (∀ e, (c.doc n.val).pulse = some e → e ≤ t → ∃ c', Gives s (.pulseEnd t n) c' ∧ (c'.doc n.val).pulse = none ∧
        (c'.doc n.val).applied = ((c.doc n.val).pendSafe.getD false) ∧ c'.doBit n.val stPLS = false ∧ ∀ k ≠ n.val, c'.doc k = c.doc k) ∧
      (c0.detects n.val = true → c0.conducts n.val = true →
        (∃ c', Gives s (.doCurrentLimit t n) c' ∧ settled c' n.val stSHT ∧ c'.doc n.val = c.doc n.val) ∧
        Gives s (.doOverload t n) (c0.setDo n.val stOVL true)) ∧
      (c0.fieldAlive = true → c0.conducts n.val = true → ∃ c', Gives s (.doThermalShutdown t n) c' ∧ (c'.doc n.val).thermal = true ∧
        c'.doBit n.val stTHS = true ∧ (c'.doc n.val).shut = (c.doc n.val).shut.filter (fun u => decide (t < u + 1000000000)) ++ [t] ∧
        c'.doBit n.val stLAT = decide (3 ≤ (c'.doc n.val).shut.length) ∧ c'.conducts n.val = false) ∧
      ((c.doc n.val).thermal = true → ∃ c', Gives s (.doThermalRecovery t n) c' ∧ (c'.doc n.val).thermal = false ∧
        c'.conducts n.val = ((c.doc n.val).applied && !c.doBit n.val stLAT) ∧ c'.recd = c.recd) ∧
      (c0.detects n.val = true → (c.doc n.val).applied = false → c.pairParallel n.val = false →
        ∃ c', Gives s (.doOpenLoad t n) c' ∧ settled c' n.val stOPN ∧ c'.doc n.val = c.doc n.val) ∧
      (c0.detects n.val = true → (c.doc n.val).applied = false → c.pairParallel n.val = true → ∃ c', Gives s (.doOpenLoad t n) c' ∧
        c'.doBit n.val stEXT = true ∧ (c'.doc n.val).pinOff = true ∧ c'.recd = c.recd) ∧
      (c0.detects n.val = true → (c.doc n.val).switched + 2000000 ≤ t →
        (¬ (c.pairParallel n.val = true ∧ (c.doc n.val).applied = false) →
          ∃ c', Gives s (.doReadbackMismatch t n) c' ∧ settled c' n.val stMIS ∧ (c'.doc n.val).pinOff = true) ∧
        (c.pairParallel n.val = true → (c.doc n.val).applied = false →
          ∃ c', Gives s (.doReadbackMismatch t n) c' ∧ c'.doBit n.val stEXT = true ∧ (c'.doc n.val).pinOff = true ∧ c'.recd = c.recd)) ∧
      ∀ b : Fin 12, 3 ≤ b.val → b.val ≤ 9 → c.doBit n.val b.val = true → (b.val = stTHS → (c.doc n.val).thermal = false) →
        ∃ c', Gives s (.doDiagnosticClear t n b) c' ∧
        c'.doBit n.val b.val = false ∧ ∀ k, 3 ≤ k → k ≠ b.val → k ≠ stPLS → c'.doBit n.val k = c.doBit n.val k) ∧
    (∀ upper : Bool, c0.fieldAlive = true → c0.masked upper = false → ∃ c', Gives s (.doGroupCurrent t upper) c' ∧
      ∀ n, n < 24 → c'.doBit n stGRP = (c.doBit n stGRP || doSupply n == upper)) ∧
    ∀ (o : Fin 4) (del : Nat),
      let x := c.aoch o.val;
      (c.fieldAlive = true → c0.masked (aoSupply o.val) = false → x.cpl = false → del < x.applied →
        ∃ c', Gives s (.aoComplianceLimit t o del) c' ∧ c'.aoch o.val = { x with cpl := true, cplAt := t, delivered := del, changedAt := t } ∧
          c'.aoBit o.val aoCPL = true ∧ crosses c' o ∧ ∀ k ≠ o.val, c'.aoch k = c.aoch k) ∧
      (x.cpl = true → x.short = false → x.cplAt + 100000000 ≤ t → ∃ c', Gives s (.aoShortfallPersist t o) c' ∧
        c'.aoch o.val = { x with short := true } ∧ c'.rd (0x2868 + o.val) 0x06 = (c.rd (0x2868 + o.val) 0x06 + 1) % 2 ^ 48 ∧
        (heard (noteKey 0x0920 sevMinor o.val false) → ∃ q ∈ c'.recd.queue, q.code = 0x0920 ∧ q.unit = o.val ∧ q.fin = false)) ∧
      (x.cpl = true → del ≤ x.applied + 20000 → x.applied ≤ del + 20000 → ∃ c', Gives s (.aoComplianceClear t o del) c' ∧
        c'.aoch o.val = { x with cpl := false, cplAt := t, delivered := del, changedAt := t } ∧ c'.aoBit o.val aoCPL = false ∧ crosses c' o) ∧
      (x.short = true → x.cpl = false → x.cplAt + 100000000 ≤ t → ∃ c', Gives s (.aoShortfallEnd t o) c' ∧
        c'.aoch o.val = { x with short := false } ∧
        (heard (noteKey 0x0920 sevMinor o.val true) → ∃ q ∈ c'.recd.queue, q.code = 0x0920 ∧ q.unit = o.val ∧ q.fin = true)) ∧
      (c.fieldAlive = true → c.rd (0x2868 + o.val) 0x04 = 1 → c.field.lastRefresh + 150000 ≤ t → ∃ c', Gives s (.aoRefreshTimeout t o) c' ∧
        (c'.aoch o.val).applied = 0 ∧ (c'.aoch o.val).alarm = false ∧ c'.field.deliver.testBit (24 + o.val) = true ∧ ∀ k ≠ o.val, c'.aoch k = c.aoch k)

/-! ### Networks and time -/

/-- R283-R293, R311, R313, R314, Tables 10-1 to 10-3: link changes, frames received with their counters and duplicates, supervision and LLDP
frames, GOOSE repetition, acceptance and expiry, cable tests. Answers of the dictionary service that wait leave first (log 148). -/
def Obligations.EthernetPortsAndGoose : Prop :=
  (∀ (s : State) (t : Instant) (p : Fin 4),
    let c := s.chip
    let c1 := (c.at_ t).sendMessages
    let u := portStamp t
    let ix := 0x2910 + p.val;
    u % 8 = 0 ∧ u ≤ t ∧ t < u + 8 ∧
    (∀ (speed : Fin 3) (full master : Bool) (ab : Nat), let bad := c.redundant p.val && (speed.val == 0 || !full)
      ∃ c', Gives s (.ethernetLinkChange t p true speed full master ab) c' ∧ c'.bit ix 0x03 0 = !bad ∧ c'.bit ix 0x03 5 = bad ∧
        c'.fld ix 0x03 2 1 = speed.val ∧ c'.bit ix 0x03 3 = full ∧ c'.bit ix 0x03 4 = master ∧ c'.rd ix 0x04 = ab % 2 ^ 32 ∧
        c'.bit ix 0x03 6 = (bad && (c.bit ix 0x03 6 || c.bit ix 0x03 0)) ∧
        (bad = true → c.recd.queue.length < 256 → ∃ q ∈ c'.recd.queue, q.code = 0x0A01 ∧ q.unit = p.val) ∧ (bad = false → c'.recd = c.recd)) ∧
    (∀ (speed : Fin 3) (full master : Bool) (ab : Nat), ∃ c', Gives s (.ethernetLinkChange t p false speed full master ab) c' ∧
      c'.bit ix 0x03 0 = false ∧ c'.bit ix 0x03 6 = (c.bit ix 0x03 6 || (c.redundant p.val && c.bit ix 0x03 0))) ∧
    (c.portOn p.val = true → ∀ f : EthFrame,
      let d := (c1.bump ix 0x08).modEth p.val (fun e => { e with rxStamp := u });
      (f.fcsOk = false → Gives s (.ethernetFrameReceived t p f) (c1.bump ix 0x0A)) ∧
      (f.fcsOk = true → f.tag = none ∨ c.redundant p.val = false → Gives s (.ethernetFrameReceived t p f) (d.takeFrame p.val u f)) ∧
      (∀ seq lan, f.fcsOk = true → f.tag = some (seq, lan) → p.val < 2 → c.net.stAlone = false →
        let dup := d.seenOn p.val f.src seq u || d.seenOn (otherPort p.val) f.src seq u
        ∃ c', Gives s (.ethernetFrameReceived t p f) c' ∧ c'.rd ix 0x08 = (c.rd ix 0x08 + 1) % 2 ^ 48 ∧
          c'.rd ix 0x0B = (c.rd ix 0x0B + (if dup then 1 else 0)) % 2 ^ 48 ∧
          c'.rd ix 0x0C = (c.rd ix 0x0C + (if lan = (if p.val = 0 then 0xA else 0xB) then 0 else 1)) % 2 ^ 48 ∧
          c'.seenOn p.val f.src seq u = true ∧ (c'.ethp p.val).rxStamp = u ∧ (dup = true → c'.net.sent = c1.net.sent) ∧
          (∀ tlvs, f.kind = .lldp tlvs → (c'.ethp p.val).neighbour =
            if dup || !d.addressed p.val f.dst then (c.ethp p.val).neighbour else tlvs.take 512)) ∧
      (∀ seq lan, f.fcsOk = true → f.tag = some (seq, lan) → 2 ≤ p.val → c.net.prOff = false →
        let own := f.src = ownMac p.val ∨ f.src = d.pubMac p.val
        let here := d.seenOn p.val f.src seq u
        let dup := here || d.seenOn (otherPort p.val) f.src seq u;
        (own → Gives s (.ethernetFrameReceived t p f) d) ∧
        (¬ own → ∃ c', Gives s (.ethernetFrameReceived t p f) c' ∧ c'.rd ix 0x0B = (c.rd ix 0x0B + (if dup then 1 else 0)) % 2 ^ 48 ∧
          c'.seenOn p.val f.src seq u = true ∧
          (here = false → isLocal f.kind = false → f.dst ≠ ownMac p.val → c.portOn (otherPort p.val) = true →
            ∃ x, .forward (otherPort p.val) x f ∈ c'.net.sent ∧ (x.isSome = true ↔ f.kind = .ptpEvent)) ∧
          (here = true ∨ isLocal f.kind = true ∨ f.dst = ownMac p.val → dup = true ∨ d.addressed p.val f.dst = false → c'.net.sent = c1.net.sent)))) ∧
    (∀ (d : Chip) (f : EthFrame), let e := d.takeFrame p.val t f;
      (d.addressed p.val f.dst = true ↔ f.dst.testBit 40 = true ∨ f.dst = ownMac p.val ∨ f.dst = d.pubMac p.val) ∧
      (d.addressed p.val f.dst = false → e = d) ∧
      (d.addressed p.val f.dst = true →
      (∀ tlvs, f.kind = .lldp tlvs → (e.ethp p.val).neighbour = tlvs.take 512) ∧
      (∀ n, f.kind = .supervision n → e.bit ix 0x03 6 = false ∧ (e.ethp p.val).lastSup = t ∧ n ∈ (e.ethp p.val).nodes) ∧
      (f.kind = .notInDevice → e = d.bump ix 0x0A) ∧ (f.kind = .dictionary → 2 ≤ p.val → e = d.bump ix 0x0A) ∧
      (∀ ip src, f.kind = .arp ip ∨ f.kind = .icmpEcho ip src → 2 ≤ p.val → e = d.bump ix 0x0A) ∧
      (∀ ip src, f.kind = .arp ip ∨ f.kind = .icmpEcho ip src → p.val < 2 → ip = 0 ∨ ip ≠ d.net.ip.1 → e = d) ∧
      (∀ ip, f.kind = .arp ip → p.val < 2 → ip ≠ 0 → ip = d.net.ip.1 → (busPorts false).filter (fun q => d.portOn q) ≠ [] →
        e.net.sent = d.net.sent ++ [.arpReply f.src (d.nextOwnSeq false).1]) ∧
      (∀ ip src, f.kind = .icmpEcho ip src → p.val < 2 → ip ≠ 0 → ip = d.net.ip.1 → (busPorts false).filter (fun q => d.portOn q) ≠ [] →
        e.net.sent = d.net.sent ++ [.echoReply f.src (if src &&& d.net.ip.2.1 = d.net.ip.1 &&& d.net.ip.2.1 then src else d.net.ip.2.2)
          (d.nextOwnSeq false).1]) ∧
      (f.kind = .pdelayReq → d.portOn p.val = true →
        e.net.sent = d.net.sent ++ [.pdelayResp p.val f.src (d.nextOwnSeq (decide (2 ≤ p.val))).1]))) ∧
    (c.portOn p.val = true → c.redundant p.val = true → c.nodeKnown p.val = true → (c.ethp p.val).lastSup + 6000000000 ≤ t → ∃ c', Gives s (.prpPathLoss t p) c' ∧
      c'.bit ix 0x03 6 = true ∧ (c.bit ix 0x03 6 = true → c'.recd = c.recd) ∧ (c.bit ix 0x03 6 = false → c'.net.tb.slave ≠ some p.val) ∧
      (c.bit ix 0x03 6 = false → c.recd.queue.length < 256 → ∃ q ∈ c'.recd.queue, q.code = 0x0A03 ∧ q.unit = p.val)) ∧
    (c.portOn p.val = true → (∀ u, (c.ethp p.val).lldpAt = some u → u + 30000000000 ≤ t) → ∃ c', Gives s (.lldpTransmit t p) c' ∧
      c'.net.sent = c1.net.sent ++ [.lldp p.val (c1.nextOwnSeq (decide (2 ≤ p.val))).1] ∧ (c'.ethp p.val).lldpAt = some t ∧
      ∀ q ≠ p.val, c'.ethp q = c1.ethp q) ∧
    ((c.ethp p.val).testing = true → ∀ (kind : Fin 5) (dist len : Nat), ∃ c', Gives s (.cableTestComplete t p kind dist len) c' ∧
      (c'.ethp p.val).testing = false ∧
      (c.net.replaced.testBit p.val = true → c'.rd ix 0x05 = 0xFFFF ∧ c'.rd ix 0x07 = 4) ∧
      (c.net.replaced.testBit p.val = false → c'.rd ix 0x05 = (if kind.val = 0 ∧ len ≤ 150 then len else 0xFFFF) ∧
        c'.rd ix 0x07 = kind.val + (if 1 ≤ kind.val ∧ kind.val ≤ 3 then dist % 256 else 0) * 256))) ∧
  (∀ (s : State) (a : Acc) (p : Fin 4) (v : Nat),
    Writes s a v (beBytes v a.len) (.cableTestRequest a p v, 0x2910 + p.val, 0x06, fun c => c.bit (0x2910 + p.val) 0x03 0 = false,
      fun c _ => c.modField (fun f => { f with pendSet := f.pendSet ++ [(0x2910 + p.val, 0x06, v, settingTick a.t)] })) ∧
    ∀ c w, s.chip.admits a (0x2910 + p.val) 0x06 v (beBytes v a.len) = some (c, w) → c.bit (0x2910 + p.val) 0x03 0 = true →
      Gives s (.cableTestRequest a p v) (c.refuse w 0x0B000003)) ∧
  (∀ (s : State) (t : Instant), let c := s.chip
    let c1 := (c.at_ t).sendMessages
    (∀ u, c.net.supAt = some u → u + 2000000000 ≤ t) → c.net.stAlone = false → (busPorts false).filter (fun q => c.portOn q) ≠ [] →
    ∃ c', Gives s (.prpSupervisionTransmit t) c' ∧ c'.net.supAt = some t ∧ c'.net.seqOwnS = (c1.net.seqOwnS + 1) % 2 ^ 16 ∧
      c'.net.sent = c1.net.sent ++ [.supervision false (some c1.net.seqOwnS)]) ∧
  (∀ (s : State) (t : Instant) (ds : Fin 64) (i : Nat) (x : GooseTx) (g : GooseCfg) (u : Instant), let c := s.chip
    c.net.tx.findIdx? (fun y => match y.cfg with
      | some h => h.num == ds.val
      | none => false) = some i → c.net.tx[i]? = some x → x.cfg = some g → x.nextAt = some u → u ≤ t → (c.acts = true ∨ c.pairState = psStandbyReady) →
    c.dispatchAhead g.cls u = false →
    let iv := min (2 * x.interval) c.tMax
    ∃ c', Gives s (.gooseRepetition t ds) c' ∧ c'.net.tx[i]? = some { x with sqNum := nextSq x.sqNum, interval := iv, nextAt := some (u + iv) } ∧
      (∀ j, j ≠ i → c'.net.tx[j]? = c.net.tx[j]?) ∧
      (g.station = true → g.process = false → (busPorts false).filter (fun q => c.portOn q) ≠ [] →
        c'.net.sent = c.net.sent ++ [.goose c.net.pubS (c.rd 0x2900 0x0B) g.num x.stNum (nextSq x.sqNum) (2 * iv)
          (gooseTime (c.rdw 0x2A00 0x0D).toInt x.tPair) x.test false x.vals false (if c.net.stAlone then none else if c.pair.inForce then some c.net.seqPairS else some c.net.seqOwnS)])) ∧
  (∀ (s : State) (t : Instant) (p : Fin 4) (f : GooseRx), let c := s.chip
    let u := portStamp t
    c.portOn p.val = true →
    (c.subOf f = none → Gives s (.gooseFrame t p f) c) ∧
    ∀ k g, c.subOf f = some k → (c.goosub k).cfg = some g →
      let x := c.goosub k
      let refused := f.sim && !g.sim
      let old := x.any && !gooseAfter x.stNum x.sqNum f.stNum f.sqNum
      let fresh := !x.any || f.stNum != x.stNum
      let jump := (f.stNum + 2 ^ 32 - x.stNum) % 2 ^ 32;
      (refused = true → Gives s (.gooseFrame t p f) (c.at_ t)) ∧
      (refused = false → old = true → Gives s (.gooseFrame t p f) ((c.at_ t).bump 0x2900 0x13)) ∧
      (refused = false → old = false → ∃ c', Gives s (.gooseFrame t p f) c' ∧ (c'.goosub k).stNum = f.stNum ∧
        (c'.goosub k).sqNum = f.sqNum ∧ (c'.goosub k).any = true ∧ (c'.goosub k).expiry = some (u + f.tal * 1000000) ∧
        c'.rd 0x2900 0x17 = (c.rd 0x2900 0x17 + (if x.any = true ∧ 1 < jump ∧ ¬ (f.stNum = 1 ∧ f.sqNum = 0) then 1 else 0)) % 2 ^ 48 ∧
        (c.placed (.gooseNums k) = true → ∃ i ∈ c'.crossing, i.2.src = .gooseNums k ∧ i.2.stamp = u ∧
          i.2.vals = [toWord f.stNum, toWord f.sqNum]) ∧
        ((f.ndsCom = true ∨ f.confRev ≠ g.confRev) → (c'.goosub k).state = 4 ∧ c'.rd 0x2900 0x12 = (c.rd 0x2900 0x12 + 1) % 2 ^ 48) ∧
        (f.ndsCom = false → f.confRev = g.confRev → fresh = true →
          (c'.goosub k).state = 2 ∧ (c'.goosub k).vals = f.vals ∧ (c'.goosub k).quals = f.quals ∧
          c'.rd 0x2600 0x0A = (c.rd 0x2600 0x0A + (f.quals.filter (fun q => decide (6 < q))).length) % 2 ^ 48 ∧
          ∀ j v, f.vals[j]? = some v → c.placed (.goose k j) = true → ∃ i ∈ c'.crossing, i.2.src = .goose k j ∧ i.2.stamp = u ∧ i.2.vals = [v] ∧
            i.2.qc = qMin (if f.test then 3 else 0) (qIn (nth 0 f.quals j))) ∧
        ∀ j, j ≠ k → c'.goosub j = c.goosub j)) ∧
  ∀ (s : State) (t : Instant) (k : Fin 256),
    let c := s.chip
    let x := c.goosub k.val;
    ∀ e, x.expiry = some e → e ≤ t → ∃ c', Gives s (.gooseTalExpiry t k) c' ∧ (c'.goosub k.val).state = 3 ∧ (c'.goosub k.val).expiry = none ∧
      (c'.goosub k.val).vals = x.vals ∧
      ∀ j v, x.vals[j]? = some v → c.placed (.goose k.val j) = true → ∃ i ∈ c'.crossing, i.2.src = .goose k.val j ∧ i.2.stamp = e ∧ i.2.vals = [v] ∧
        i.2.qc = qMin 5 (qIn (nth 0 x.quals j))

/-- R72, R285, R289, R291, R325: a frame leaves every port of its list that carries traffic, counted there and with a stamp of 8 ns resolution; of the
frames queued on a port at one instant the higher priority queue leaves first, and in one queue the lower dataset number; answers of the
dictionary service leave on the station bus in their order. -/
def Obligations.FramesLeaveByQueueAndDataset : Prop :=
  (∀ (c : Chip) (ports : List Nat) (o : NetOut), ports.Nodup →
    let c' := c.emit ports o
    let on := ports.filter (fun p => c.portOn p);
    (on = [] → c' = c) ∧
    (on ≠ [] → c'.net.sent = c.net.sent ++ [o] ∧
      (∀ p ∈ on, c'.rd (0x2910 + p) 0x09 = (c.rd (0x2910 + p) 0x09 + 1) % 2 ^ 48 ∧
        ∃ x, (c'.ethp p).out = placeTx x (c.ethp p).out ∧ x.frame = o ∧ x.at_ = c.now ∧ x.queue = txQueue o ∧ c.now ≤ x.stamp ∧ x.stamp % 8 = 0) ∧
      ∀ p, p ∉ on → c'.ethp p = c.ethp p)) ∧
  (∀ (x : TxFrame) (l : List TxFrame), (placeTx x l).Perm (x :: l) ∧
    (l.Pairwise (fun a b => leavesBefore b a = false) → (placeTx x l).Pairwise (fun a b => leavesBefore b a = false))) ∧
  (∀ x y : TxFrame, x.at_ = y.at_ →
    (y.queue < x.queue → leavesBefore x y = true) ∧
    (x.queue = y.queue → ∀ a b, txDataset x.frame = some a → txDataset y.frame = some b → (leavesBefore x y = true ↔ a < b))) ∧
  ∀ c : Chip, (busPorts false).filter (fun q => c.portOn q) ≠ [] →
    c.sendMessages.dict.outbox = [] ∧ c.sendMessages.net.sent.length = c.net.sent.length + c.dict.outbox.length ∧
    ∀ (i : Nat) (bs : List Byte), c.dict.outbox[i]? = some bs →
      ∃ q, c.sendMessages.net.sent[c.net.sent.length + i]? = some (.dictionary bs q) ∧ (q.isSome = true ↔ c.net.stAlone = false)

/-- R296-R298, R301, R302, R304-R309, R312, R369: the timebase acquires after 16 good offsets, loses lock after 16 bad ones, holds over and runs
free; steps, offsets and leap seconds; CAN frames, the reference message, bus-off and its recovery. -/
def Obligations.TheTimebaseAndCan : Prop :=
  (∀ (s : State) (t : Instant),
    let c := s.chip
    let st := c.rd 0x2A00 0x01;
    (∀ (g : Announce) (off : Int) (delay : Nat) (master : Instant), c.net.tb.gm = some g → st ≠ 4 →
      let good := decide (off.natAbs ≤ 1000)
      let locks := decide (st = 1) && good && decide (15 ≤ c.net.tb.goodSync)
      let loses := decide (st = 2) && !good && decide (15 ≤ c.net.tb.badSync)
      let steps := (c.net.tb.stepReq && !c.anyBusy) || (locks && !c.net.tb.firstLock && !c.anyStarted)
      ∃ c', Gives s (.ptpSync t off delay master) c' ∧ c'.rdw 0x2A00 0x03 = ofIntWord off ∧ c'.rd 0x2A00 0x11 = delay % 2 ^ 48 ∧
        c'.rd 0x2A00 0x01 = (if locks then 2 else if loses then 1 else st) ∧ c'.now = (if steps then master else t) ∧
        (steps = true → c'.net.tb.stepReq = false) ∧ c'.net.tb.acc = accuracyOf (Config.servoError c.free) ∧
        c'.net.tb.slew.natAbs ≤ c.rd 0x2A00 0x10 * 1000 ∧
        ((Config.servoRate c.free).natAbs ≤ c.rd 0x2A00 0x10 * 1000 → c'.net.tb.slew = Config.servoRate c.free)) ∧
    (∀ (g : Announce) (off : Int) (delay : Nat) (master : Instant), c.net.tb.gm = some g → st = 4 →
      Gives s (.ptpSync t off delay master) (((c.at_ t).wr 0x2A00 0x03 (ofIntWord off).toNat).wr 0x2A00 0x11 delay)) ∧
    (∀ (bus : Bool) (a : Announce),
      let source := bus == (c.rd 0x2A00 0x0E == 1)
      let l := c.net.tb.ann.filter (fun x => x.identity != a.identity) ++ [a];
      (a.domain ≠ c.rd 0x2A00 0x0A → Gives s (.ptpAnnounce t bus a) c) ∧
      (a.domain = c.rd 0x2A00 0x0A → source = false → Gives s (.ptpAnnounce t bus a)
        ((c.at_ t).modTb (fun b => { b with other := b.other.filter (fun x => x.1.identity != a.identity) ++ [(a, t)] }))) ∧
      (a.domain = c.rd 0x2A00 0x0A → source = true → ∃ c', Gives s (.ptpAnnounce t bus a) c' ∧ c'.net.tb.ann = l ∧
        (c.bestMaster l = none → c'.net.tb.gm = none ∧
          (c.net.tb.gm.isSome = true → c'.rd 0x2A00 0x01 = (if st = 2 then 3 else if st = 1 then 0 else st))) ∧
        ∀ g, c.bestMaster l = some g →
          (g.identity = a.identity ∨ ∀ o, c.net.tb.gm = some o → g.identity ≠ o.identity) → c'.net.tb.gm = some g ∧ c'.net.tb.lastAnn = some t ∧
          c'.rd 0x2A00 0x05 = (g.steps + 1) % 2 ^ 48 ∧ (st = 0 ∨ st = 3 → c'.rd 0x2A00 0x01 = 1) ∧ (st = 4 → c'.rd 0x2A00 0x01 = 4) ∧
          (st = 2 → c'.rd 0x2A00 0x01 = if c.net.tb.gm.map (·.identity) = some g.identity then 2 else 1))) ∧
    (∀ g u, c.net.tb.gm = some g → c.net.tb.lastAnn = some u → u + 3000000000 ≤ t → ∃ c', Gives s (.announceTimeout t) c' ∧
      (c.bestMaster (c.net.tb.ann.filter (fun x => x.identity != g.identity)) = none → c'.net.tb.gm = none ∧
        (st = 2 → c'.rd 0x2A00 0x01 = 3 ∧ c'.net.tb.holdAt = t ∧ c'.rd 0x2A00 0x12 = (c.rd 0x2A00 0x12 + 1) % 2 ^ 48) ∧
        (st = 1 → c'.rd 0x2A00 0x01 = 0) ∧ (st ≠ 1 → st ≠ 2 → c'.rd 0x2A00 0x01 = st)) ∧
      ∀ a, c.bestMaster (c.net.tb.ann.filter (fun x => x.identity != g.identity)) = some a → c'.net.tb.gm = some a ∧ c'.net.tb.lastAnn = some t) ∧
    (st = 3 → c.net.tb.holdAt + c.rd 0x2A00 0x0C * 1000000000 ≤ t → ∃ c', Gives s (.holdoverExpiry t) c' ∧ c'.rd 0x2A00 0x01 = 0 ∧
      SameRegs c c' [(0x2A00, 0x01)] ∧ c' = { c with now := t, regs := c'.regs }) ∧
    (∀ u off, c.net.tb.pendUtc = some (u, off) → u ≤ t → ∃ c', Gives s (.utcOffsetChange t) c' ∧ c'.rdw 0x2A00 0x0D = ofIntWord off ∧
      c'.net.tb.pendUtc = none ∧ c'.cal = { c.cal with leapDue := true } ∧
      (c.store.queue.length < 64 → c'.store.queue = c.store.queue ++ [(6, 0, 0, leBytes (ofIntWord off).toNat 6, t)]) ∧
      (64 ≤ c.store.queue.length → c'.store.held = c.store.held ++ [(6, 0, 0, leBytes (ofIntWord off).toNat 6, t)])) ∧
    (c.cal.leapDue = true → c.dict.mssUp = true → ∃ c', Gives s (.leapSecondCommit t) c' ∧ c' = { c with now := t, cal := c'.cal } ∧
      c'.cal.commit = some (calOf (c.utcCounts t)) ∧ c'.cal.leapDue = false ∧ c'.cal.vld = true ∧ c'.cal.err = false ∧ c'.cal.now = c.cal.now) ∧
    (∀ bus : Bool, (busPorts bus).filter (fun q => c.portOn q) ≠ [] →
      let c1 := (c.at_ t).sendMessages
      let two := c.rd 0x2A00 0x0B == 1
      let num (d : Chip) : Nat := if bus then d.net.seqOwnP else d.net.seqOwnS
      let seq (i : Nat) : Option Nat := if bus = false ∧ c.net.stAlone = true then none else some ((num c1 + i) % 2 ^ 16);
      num c1 < 2 ^ 16 →
      (c1.ptpMaster t bus = false → ∃ c', Gives s (.ptpTransmit t bus) c' ∧ c'.net.sent = c1.net.sent ++ [.pdelayReq bus (seq 0)]) ∧
      (c1.ptpMaster t bus = true → ∃ c' cls, Gives s (.ptpTransmit t bus) c' ∧
        c'.net.sent = c1.net.sent ++ ([.pdelayReq bus (seq 0), .sync bus two (seq 1)] ++ (if two then [.followUp bus (seq 2)] else []) ++
          [.announce bus cls (c.rd 0x2A00 0x06) (seq (if two then 3 else 2))]) ∧
        (st = 3 → cls = 187) ∧ (st ≠ 3 → c.net.tb.gm = none → cls = 248) ∧ (∀ g, st ≠ 3 → c.net.tb.gm = some g → cls = g.clockClass))) ∧
    ∀ (d : Chip) (bus : Bool), let source := bus == (d.rd 0x2A00 0x0E == 1);
      (d.acts = false → d.ptpMaster t bus = false) ∧
      (d.acts = true → d.rd 0x2A00 0x07 = 2 → d.ptpMaster t bus = !source) ∧
      (d.acts = true → d.rd 0x2A00 0x07 = 1 → source = true → d.ptpMaster t bus = d.net.tb.gm.isNone) ∧
      (d.acts = true → d.rd 0x2A00 0x07 = 1 → source = false → (∀ x ∈ d.net.tb.other, x.2 + 3000000000 < t) → d.ptpMaster t bus = true)) ∧
  (∀ (s : State) (a : Acc) (v : Nat) (k : Fin 4),
    ∀ p ∈ ([(Instr.stepRequest a v, 0x2A00, 0x0F, fun c => c.anyBusy = false, fun c _ => c.modTb (fun b => { b with stepReq := true })),
        (.canRecoveryCommand a k v, 0x2920 + k.val, 0x06, fun _ => True,
          fun c _ => c.modField (fun f => { f with pendSet := f.pendSet ++ [(0x2920 + k.val, 0x06, v, settingTick a.t)] }))] :
        List (Instr × Nat × Nat × (Chip → Prop) × (Chip → Who → Chip))),
      Writes s a v (beBytes v a.len) p) ∧
  (∀ (s : State) (a : Acc) (v : Nat) (c : Chip) (w : Who), s.chip.admits a 0x2A00 0x0F v (beBytes v a.len) = some (c, w) → c.anyBusy = true →
    Gives s (.stepRequest a v) (c.refuse w 0x0B000003)) ∧
  (∀ (s : State) (t : Instant) (counter : Nat), t % 1000000000 = 0 → Gives s (.canCounterLatch t counter)
    ((s.chip.at_ t).modNet (fun n => { n with canCount := counter % 2 ^ 48, canLatch := ((s.chip.at_ t).pairAt t, counter % 2 ^ 48) }))) ∧
  ∀ (s : State) (t : Instant) (k : Fin 4),
    let c := s.chip
    let ix := 0x2920 + k.val;
    (∀ (f : CanFrame) (n : Nat) (sof : Instant), c.canTakes k.val sof = true → (f.fd = true → c.bit ix 0x01 2 = true) →
      let hits := (c.canp k.val).rx.filter (fun r => canMatch f r.obj)
      let d := ((((c.at_ t).bump ix 0x0A).canClock n).countErrors k.val false).wireBack k.val;
      ∃ c', Gives s (.canFrameReceived ⟨t, sof⟩ k f n) c' ∧ c'.rd ix 0x0A = (c.rd ix 0x0A + 1) % 2 ^ 48 ∧ c'.net.canCount = n % 2 ^ 48 ∧
        c'.rd ix 0x0B = (d.rd ix 0x0B + (hits.filter (fun r => r.frame.isSome && !r.taken)).length) % 2 ^ 48 ∧
        (c'.canp k.val).rx = (c.canp k.val).rx.map (fun r => if canMatch f r.obj then
          { r with frame := some f, stamp := sof, counter := n % 2 ^ 48, taken := false, held := !c.canReceives k.val } else r) ∧
        (c'.canp k.val).wire = none ∧
        (∀ r ∈ hits, c.placed (.can k r.obj.num) = true → c.bit 0x2100 0x03 (10 + k.val) = false → ∃ i ∈ c'.crossing, i.2.src = .can k r.obj.num ∧
          i.2.stamp = t ∧ i.2.vals = canWords f ((c.at_ t).pairAt sof) n) ∧
        (hits = [] → f.record = none → c' = d)) ∧
    (∀ (f : CanFrame) (n : Nat) (sof : Instant), f.fd = true → c.bit ix 0x01 2 = false → Gives s (.canFrameReceived ⟨t, sof⟩ k f n) c) ∧
    (∀ (d : Chip) (sent : Bool),
      let e := d.countErrors k.val sent
      let tec := d.fld ix 0x07 15 8
      let recv := d.fld ix 0x07 23 16;
      e.fld ix 0x07 1 0 = (if 127 < e.fld ix 0x07 15 8 ∨ 127 < e.fld ix 0x07 23 16 then 1 else 0) ∧ SameRegs d e [(ix, 0x07)] ∧
      ∃ n m, (sent = true → e.fld ix 0x07 15 8 = min 255 (tec + 8 * n) - 1 ∧ e.fld ix 0x07 23 16 = min 255 (recv + m)) ∧
        (sent = false → e.fld ix 0x07 15 8 = min 255 (tec + 8 * n) ∧ (min 255 (recv + m) ≤ 127 → e.fld ix 0x07 23 16 = min 255 (recv + m) - 1) ∧
          (127 < min 255 (recv + m) → 119 ≤ e.fld ix 0x07 23 16 ∧ e.fld ix 0x07 23 16 ≤ 127))) ∧
    (∀ d : Chip, ((d.canp k.val).wire = none → d.wireBack k.val = d) ∧
      ∀ w, (d.canp k.val).wire = some w → let e := d.wireBack k.val;
        (e.canp k.val).wire = none ∧
        (w.obj = none → d.canSends k.val = true → (d.canp k.val).refDue = false → (e.canp k.val).refDue = true ∧ e.regs = d.regs) ∧
        (w.obj = none → d.canSends k.val = false ∨ (d.canp k.val).refDue = true → e.rd ix 0x0C = (d.rd ix 0x0C + 1) % 2 ^ 48 ∧
          (e.canp k.val).tx = (d.canp k.val).tx) ∧
        ∀ i y, w.obj = some i → (d.canp k.val).tx[i]? = some y →
          (y.queued = true → e.rd ix 0x0B = (d.rd ix 0x0B + 1) % 2 ^ 48 ∧ (e.canp k.val).tx = (d.canp k.val).tx) ∧
          (y.queued = false → d.canSends k.val = true → (e.canp k.val).tx[i]? = some { y with queued := true } ∧ e.regs = d.regs) ∧
          (y.queued = false → d.canSends k.val = false → e.rd ix 0x0C = (d.rd ix 0x0C + 1) % 2 ^ 48 ∧ (e.canp k.val).tx = (d.canp k.val).tx)) ∧
    (∀ (obj n edge : Nat) (sof : Instant),
      let acked (b c' : Chip) : Prop := (c'.canp k.val).wire = none ∧ c'.net.canCount = n % 2 ^ 48 ∧
        (c'.canp k.val).dists = (b.canDistance k.val edge :: (b.canp k.val).dists).take 16 ∧
        c'.rd ix 0x0E = (c'.canp k.val).dists.foldl max 0 % 2 ^ 48;
      (∀ w i y, c.onWire k.val obj sof = some w → w.obj = some i → (c.canp k.val).tx[i]? = some y →
        ∃ c', Gives s (.canFrameTransmitted ⟨t, sof⟩ k obj n edge) c' ∧ acked c c' ∧
          (c'.canp k.val).tx[i]? = some { y with doneAt := sof, counter := n % 2 ^ 48 } ∧ c'.net.sent = c.net.sent ++ [.can k.val y.obj.num w.vals]) ∧
      (∀ w, c.onWire k.val obj sof = some w → w.obj = none →
        ∃ c', Gives s (.canFrameTransmitted ⟨t, sof⟩ k obj n edge) c' ∧ acked c c' ∧ c'.net.sent = c.net.sent ∧ (c'.canp k.val).tx = (c.canp k.val).tx) ∧
      ∀ i y, let d := c.wireBack k.val
        c.onWire k.val obj sof = none → d.canSends k.val = true →
        (d.canp k.val).tx.findIdx? (fun x => x.obj.num == obj && d.canStarts k.val x sof) = some i → (d.canp k.val).tx[i]? = some y →
        ∃ c', Gives s (.canFrameTransmitted ⟨t, sof⟩ k obj n edge) c' ∧ acked d c' ∧
          (c'.canp k.val).tx[i]? = some { y with queued := false, doneAt := sof, counter := n % 2 ^ 48 } ∧
          c'.net.sent = d.net.sent ++ [.can k.val obj y.vals]) ∧
    (∀ (d : Chip) (edge : Nat), d.canDistance k.val edge ≤ 2000) ∧
    (c.canMode k.val = 1 → c.bit ix 0x08 30 = true → c.bit ix 0x01 2 = true → 0 < c.basicNs k.val →
      let msg (n : Nat) : NetOut := .canRef k.val (c.fld ix 0x08 29 0) (c.rd ix 0x03 != 0)
        (refPayload ((c.at_ t).pairAt t) ((t / c.basicNs k.val) % 2 ^ 32)) n
      let starts (b c' : Chip) : Prop := (c'.canp k.val).refDue = false ∧ (c'.canp k.val).wire = some ⟨none, [], t⟩ ∧
        ∃ n, n < 2 ^ 48 ∧ c'.net.canCount = n ∧ c'.net.sent = b.net.sent ++ [msg n]
      let retry := (c.canp k.val).wire.any (fun w => w.obj.isNone)
      let late := if (c.canp k.val).refDue then 1 else 0
      let b := ((if (c.canp k.val).refDue then (c.at_ t).bump ix 0x0C else c.at_ t).modCan k.val (fun x => { x with refDue := true })).settleWire k.val t;
      (t % c.basicNs k.val = 0 → ∃ c', Gives s (.canReferenceMessage t k) c' ∧ c'.rd ix 0x0C = (c.rd ix 0x0C + late) % 2 ^ 48 ∧
        (b.refStarts k.val t = true → b.canSends k.val = true ∧ (b.canp k.val).wire = none ∧ starts c c') ∧
        (b.refStarts k.val t = false → (c'.canp k.val).refDue = true ∧ (c'.canp k.val).wire = (b.canp k.val).wire ∧ c'.net.sent = c.net.sent)) ∧
      (t % c.basicNs k.val ≠ 0 → (c.canp k.val).refDue = true ∨ retry = true → c.canSends k.val = true → ∃ c',
        Gives s (.canReferenceMessage t k) c' ∧ starts c c') ∧
      (t % c.basicNs k.val ≠ 0 → ((c.canp k.val).refDue = false ∧ retry = false) ∨ c.canSends k.val = false → Gives s (.canReferenceMessage t k) c)) ∧
    ((c.canp k.val).busOff = false → c.canMode k.val = 1 →
      let b := (c.at_ t).wireBack k.val
      ∃ c', Gives s (.canBusOff t k) c' ∧ (c'.canp k.val).busOff = true ∧ (c'.canp k.val).wire = none ∧ (c'.canp k.val).refDue = false ∧
      (c'.canp k.val).waiting = (c.rd ix 0x05 == 1) ∧ c'.fld ix 0x07 1 0 = 2 ∧ c'.rd ix 0x0D = (c.rd ix 0x0D + 1) % 2 ^ 48 ∧
      (∀ x ∈ (c'.canp k.val).tx, x.queued = false) ∧ c'.rd ix 0x0C = (b.rd ix 0x0C + b.canQueued k.val) % 2 ^ 48 ∧
      (c.recd.queue.length < 256 → ∃ q ∈ c'.recd.queue, q.code = 0x0A10 ∧ q.unit = k.val)) ∧
    ((c.canp k.val).busOff = true → (c.canp k.val).waiting = false → ∃ c', Gives s (.canBusOffRecovery t k) c' ∧ (c'.canp k.val).busOff = false ∧
      c'.rd ix 0x07 = c.rd ix 0x07 &&& 2 ^ 24) ∧
    ∀ d : Chip, let e := d.syncCan k.val
      let off := d.canMode k.val = 0 ∨ d.portFenced (10 + k.val) = true;
      (d.canMode k.val ≠ 1 ∨ d.portFenced (10 + k.val) = true → (∀ x ∈ (e.canp k.val).tx, x.queued = false) ∧ (e.canp k.val).refDue = false ∧
        e.rd ix 0x0C = (d.rd ix 0x0C + d.canQueued k.val) % 2 ^ 48) ∧
      (e.canp k.val).wire = (d.canp k.val).wire ∧
      (off → (∀ r ∈ (e.canp k.val).rx, r.held = true) ∧ (e.canp k.val).cut.isSome = true) ∧ (¬ off → (e.canp k.val).cut = none) ∧
      e.bit ix 0x07 24 = (d.power.domains.getLsbD 10 && !d.acts)

/-! ### The object dictionary, flash and the recorder -/

/-- R326-R329, R332, R334, R341: HELLO draws a challenge, or is refused while 8 sessions are open or the identity is locked out; OPEN opens with
a MAC that verifies, and five failures lock an identity out; messages advance the counter of their session; sessions end; a key record ends
the sessions of its identity; a restart ends in READY again. -/
def Obligations.SessionsOpenAnswerAndEnd : Prop :=
  (∀ (s : State) (t : Instant) (kid nc : Nat), s.chip.answering = true →
    let c := s.chip
    let barred := c.dict.lockouts.any (fun p => p.1 == kid && decide (t < p.2));
    (8 ≤ c.dict.sessions.length → Gives s (.hello t kid nc) ((c.at_ t).answer (some 0) 0 0 (.abort 0x0B000008))) ∧
    (c.dict.sessions.length < 8 → barred = true → Gives s (.hello t kid nc) ((c.at_ t).answer (some 0) 0 0 (.abort 0x0B000009))) ∧
    (c.dict.sessions.length < 8 → barred = false → ∃ c' sid key nd, Gives s (.hello t kid nc) c' ∧
      c'.dict.hellos = c.dict.hellos ++ [⟨sid, kid, key, t⟩] ∧ c'.dict.answers = c.dict.answers ++ [⟨some sid, 0, 0, .challenge nd⟩] ∧
      c'.dict.used = c.dict.used ++ [sid] ∧ (c.dict.used.length + 2 ≤ 2 ^ 32 → sid ≠ 0 ∧ sid ∉ c.dict.used) ∧
      (∀ k, c.secretOf kid = some k → key = sessionKey k.secret nc nd sid) ∧ c'.dict.sessions = c.dict.sessions)) ∧
  (∀ (s : State) (t : Instant) (sid ctr kid mac : Nat), s.chip.answering = true →
    let c := s.chip
    let found := c.dict.hellos.find? (fun h => h.sid == sid && decide (t ≤ h.at_ + 2000000000))
    let fails (c' : Chip) : Prop := c'.rd 0x2000 0x25 = (c.rd 0x2000 0x25 + 1) % 2 ^ 48 ∧ c'.dict.sessions = c.dict.sessions ∧
      c'.dict.answers = c.dict.answers ++ [⟨some sid, 0, ctr % 2 ^ 16, .abort 0x0B000007⟩] ∧
      (4 ≤ (c.dict.fails.filter (fun p => p.1 == kid && decide (t < p.2 + 60000000000))).length →
        (kid, t + 60000000000) ∈ c'.dict.lockouts ∧ c'.rd 0x2000 0x24 = (c.rd 0x2000 0x24 + 1) % 2 ^ 48);
    (∀ h k, found = some h → c.secretOf kid = some k → h.kid = kid → ctr = 1 →
      mac = Config.hmac16 h.key (msgBytes 0x03 sid ctr 0 (beBytes kid 2)) → c.dict.sessions.length < 8 →
      ∃ c', Gives s (.openSession t sid ctr kid mac) c' ∧
        c'.dict.sessions = c.dict.sessions ++ [⟨sid, c.dict.nextNum, kid, k.role, h.key, 1, t, []⟩] ∧
        c'.dict.hellos = c.dict.hellos.filter (fun x => x.sid != sid) ∧
        c'.dict.answers = c.dict.answers ++ [⟨some sid, 0, 0, .opened k.role 60⟩] ∧ c'.regs = c.regs ∧
        (c.session sid = none → (∀ a ∈ c.dict.answers, a.sid = some sid → ∀ r n, a.body ≠ .opened r n) →
          let m := messageBytes 0x04 sid 1 0 0 (beBytes k.role 1 ++ beBytes 60 2);
          c'.dict.outbox = c.dict.outbox ++ [m ++ beBytes (Config.hmac16 h.key m) 16])) ∧
    (∀ h k, found = some h → c.secretOf kid = some k →
      ¬ (h.kid = kid ∧ ctr = 1 ∧ mac = Config.hmac16 h.key (msgBytes 0x03 sid ctr 0 (beBytes kid 2))) →
      ∃ c', Gives s (.openSession t sid ctr kid mac) c' ∧ fails c') ∧
    (found = none ∨ c.secretOf kid = none → ∃ c', Gives s (.openSession t sid ctr kid mac) c' ∧ fails c')) ∧
  (∀ (c : Chip) (sid ctr mac : Nat) (bs : List Byte) (x : Session), c.session sid = some x →
    (c.now < x.last + 60000000000 → x.ctrIn < ctr → ctr < 2 ^ 32 → mac = Config.hmac16 x.key bs → ∃ d, c.accept sid ctr mac bs = (d, some x) ∧
      (∀ y ∈ d.dict.sessions, y.sid = sid → y.ctrIn = ctr ∧ y.last = c.now) ∧ d.regs = c.regs) ∧
    (c.now < x.last + 60000000000 → ¬ (x.ctrIn < ctr ∧ ctr < 2 ^ 32 ∧ mac = Config.hmac16 x.key bs) →
      c.accept sid ctr mac bs = (c.bump 0x2000 0x22, none)) ∧
    (x.last + 60000000000 ≤ c.now → c.accept sid ctr mac bs =
      ((c.endSessions (fun y => y.sid == sid)).answer (some sid) (beNat ((bs.drop 12).take 4)) ctr (.abort 0x0B000007), none))) ∧
  (∀ (s : State) (m : Msg) (sid : Nat) (d : Chip) (x : Session), s.chip.answering = true → m.sid = some sid →
    (udpTaken m.udp = true ↔ m.udp.port = 41720 ∧ m.udp.magic = 0x5358 ∧ m.udp.ver = 1 ∧ m.udp.size ≤ 1436) ∧
    (udpTaken m.udp = false → Gives s (.closeSession m) s.chip ∧ Gives s (.keepalive m) s.chip) ∧
    (udpTaken m.udp = true → (s.chip.at_ m.t).accept sid m.ctr m.mac (msgBytes 0x30 sid m.ctr 0 []) = (d, some x) →
      Gives s (.closeSession m) (d.endSessions (fun y => y.sid == x.sid))) ∧
    (udpTaken m.udp = true → (s.chip.at_ m.t).accept sid m.ctr m.mac (msgBytes 0x31 sid m.ctr 0 []) = (d, some x) →
      Gives s (.keepalive m) (d.answer (some x.sid) 0 m.ctr (.ok 0 [])))) ∧
  (∀ (s : State) (t : Instant) (n : Nat),
    let c := s.chip;
    (c.dict.lockouts.any (fun p => p.1 == n && decide (p.2 ≤ t)) = true → Gives s (.lockoutExpiry t n) ((c.at_ t).modDict (fun d => { d with
      lockouts := d.lockouts.filter (fun p => p.1 != n) }))) ∧
    (c.dict.hellos.any (fun h => h.sid == n && decide (h.at_ + 2000000000 ≤ t)) = true → Gives s (.helloStateExpiry t n) ((c.at_ t).modDict (fun d =>
      { d with hellos := d.hellos.filter (fun h => h.sid != n) }))) ∧
    (∀ x, c.session n = some x → x.last + 60000000000 ≤ t → ∃ c', Gives s (.sessionTimeout t n) c' ∧ c'.session n = none ∧
      n ∈ c'.dict.ended ∧ (∀ k, k ≠ n → c'.session k = c.session k)) ∧
    (∀ x, c.session n = some x → (∃ g ∈ x.segs, g.2.2.2.2 + 5000000000 ≤ t) → ∃ c', Gives s (.segmentTimeout t n) c' ∧
      (∀ y, c'.session n = some y → ∀ g ∈ y.segs, t < g.2.2.2.2 + 5000000000) ∧
      c'.dict.answers = c.dict.answers ++ (x.segs.filter (fun g => decide (g.2.2.2.2 + 5000000000 ≤ t))).map
        (fun g => ⟨some n, g.2.2.1, 0, .abort 0x05040000⟩))) ∧
  (∀ (s : State) (a : Acc) (v : Nat),
    Writes s a v (beBytes v a.len) (.closeAllSessions a v, 0x2000, 0x26, fun _ => True, fun c _ => c.endSessions (fun _ => true))) ∧
  (∀ (s : State) (a : Acc) (slot role kid secret : Nat), a.sid.isSome = true → slot < 16 → role < 4 → kid ≠ 0 → kid < 0xFFFF → secret < 2 ^ 256 →
    let data := beBytes slot 1 ++ beBytes role 1 ++ beBytes kid 2 ++ beBytes secret 32
    Writes s a 0 data (.keySlotWrite a slot role kid secret, 0x2000, 0x20,
      fun c => (keysAfter c.dict.keys slot role kid secret).any (fun k => k.kid != 0 && k.role == 3) = true ∧
        (secret = 0 ∨ (c.dict.keys.zipIdx).any (fun p => p.2 != slot && p.1.kid == kid) = false) ∧ c.storeFree = true,
      fun c w => (((c.persist 0x81 0x2000 slot (leBytes slot 1 ++ leBytes role 1 ++ leBytes kid 2 ++ beBytes secret 32)).modDict (fun d => { d with keys := keysAfter c.dict.keys slot role kid secret })).endSessions (fun x =>
          (nth ⟨0, 0, 0⟩ c.dict.keys slot).kid != 0 && x.kid == (nth ⟨0, 0, 0⟩ c.dict.keys slot).kid)).eventAs
        c.now 0x0B02 sevAudit false 11 slot w.org w.csn (leBytes slot 1 ++ leBytes role 1 ++ leBytes kid 2))) ∧
  ∀ (s : State) (a : Acc) (v : Nat) (f : StartUp), (s.chip.admits a 0x2000 0x10 v (beBytes v a.len)).isSome = true →
    f.flash.cut = none → ∃ c', Gives s (.restart a v f) c' ∧ c'.power.restartDue = false ∧ c'.dict.sessions = [] ∧
      c'.power.phase = (if f.testMode then .factoryTest else if f.monitorTrip then .stopped else if f.fwBank = none then .recovery else .ready) ∧
      (c'.power.phase = .ready → c'.rd 0x2000 0x05 = 1 ∧ c'.rd 0x2000 0x0A = 1 ∧ c'.dict.mssUp = true)

/-- R310, R320, R322, R330, R331, R335, R336, Tables 11-3 and 11-4: a read answers the value or its refusal; a write in one message has its
owner's effect and is answered, one of several is kept until its last; an SDO transfer goes segment by segment and ends on an error. -/
def Obligations.EntriesAreReadAndWritten : Prop :=
  (∀ (s : State) (m : Msg) (ix sub off want : Nat) (d : Chip) (w : Who), ix < 0x3000 → sub ≠ 0 → s.chip.reach ix = true →
    (s.chip.at_ m.t).reader m (msgBytes 0x10 (m.sid.getD 0) m.ctr 0 (readPayload ix sub off want)) = .go d w →
    (∀ code, Chip.readCheck w ix sub = some code → Gives s (.read m ix sub off want) (d.answer w.path w.csn w.ctr (.abort code))) ∧
    (Chip.readCheck w ix sub = none →
      let tells (c : Chip) (v : List Byte) : Chip := c.answer w.path 0 w.ctr (readBody v.length ((v.drop off).take (min want 1396)));
      (¬ (ix = 0x2B00 ∧ sub = 0x10) → ¬ (ix = 0x2600 ∧ sub = 0x0D) →
        Gives s (.read m ix sub off want) (tells (d.readMark ix sub) ((d.value ix sub).getD []))) ∧
      (ix = 0x2600 → sub = 0x0D → Gives s (.read m ix sub off want) (tells (d.bumpBy 0x2D00 0x07 m.ecc.single) d.namedCapture)) ∧
      (ix = 0x2B00 → sub = 0x10 → Gives s (.read m ix sub off want) ((d.readFlash m.ecc).syncRecorder.serveRecords w off)))) ∧
  (∀ (s : State) (a : Acc) (ix sub : Nat) (data : List Byte) (c : Chip) (w : Who), ix < 0x3000 → ¬ (ix = 0x2200 ∧ sub = 0x06) →
    ¬ (ix = 0x2A00 ∧ sub = 0x21) → (a.sid.isSome = true → data.length ≤ 1380) → (a.sid = none → data.length ≤ 8192) →
    let data' := if a.sid.isSome then data else otherOrder ix sub data
    s.chip.admits a ix sub (beNat data') data' = some (c, w) →
    (∀ x ∈ c.dict.sessions, x.segs = []) → c.power.restartDue = false →
    (∀ x, c.entryEffect w a.t ix sub data' = .ok x → (x.power.restartDue = false) →
      Gives s (.write a ix sub 0 true data) (c.conclude w ix sub data' (.ok x))) ∧
    (∀ code, c.entryEffect w a.t ix sub data' = .error (0, code) → Gives s (.write a ix sub 0 true data) (c.answer w.path w.csn w.ctr (.abort code)))) ∧
  (∀ (s : State) (a : Acc) (sid ix sub : Nat) (data : List Byte) (c : Chip) (w : Who), a.sid = some sid → s.chip.reach ix = true → data.length ≤ 1380 →
    (s.chip.at_ a.t).identify a (msgBytes 0x11 sid a.ctr a.csn (writePayload ix sub 0 0 data)) = .go c w → (∀ x ∈ c.dict.sessions, x.segs = []) →
    c.power.restartDue = false → ∃ c', Gives s (.write a ix sub 0 false data) c' ∧
      c'.dict.answers = c.dict.answers ++ [⟨some sid, a.csn, a.ctr % 2 ^ 16, .ok 0 []⟩] ∧
      (∀ x ∈ c'.dict.sessions, x.sid = sid → x.segs = [(ix, sub, a.csn, data, a.t)]) ∧ c'.regs = c.regs) ∧
  ∀ (s : State) (t : Instant),
    let c := s.chip
    let d := (c.sdoExpire t).at_ t
    let tells (c' : Chip) (b : AnsBody) : Prop := c'.dict.answers = d.dict.answers ++ [⟨none, 0, 0, b⟩];
    (∀ x, c.dict.sdo = some x → x.last + 1000000000 ≤ t → ∃ c', Gives s (.sdoTimeout t) c' ∧ c'.dict.sdo = none ∧
      c'.dict.answers = c.dict.answers ++ [⟨none, 0, 0, .abort 0x05040000⟩]) ∧
    ((∀ x, c.dict.sdo = some x → t < x.last + 1000000000) → d = c.at_ t) ∧
    (c.sdoServed = true →
      (∀ f, Gives s (.sdoRequest t f) (d.sdoFrame t f)) ∧
      (∃ c', Gives s (.sdoRequest t .abort) c' ∧ c'.dict.sdo = none ∧ c'.dict.answers = d.dict.answers) ∧
      (∃ c', Gives s (.sdoRequest t .invalid) c' ∧ c'.dict.sdo = none ∧ tells c' (.abort 0x05040001)) ∧
      (∀ ix sub size data, d.dict.sdo = none → (size ≤ 8192 → ∃ c', Gives s (.sdoRequest t (.initDownload ix sub false size data)) c' ∧
          c'.dict.sdo = some ⟨false, ix, sub, false, [], t⟩ ∧ tells c' (.ok 0 [])) ∧
        (8192 < size → ∃ c', Gives s (.sdoRequest t (.initDownload ix sub false size data)) c' ∧ c'.dict.sdo = none ∧ tells c' (.abort 0x05040005))) ∧
      (∀ x tog last data, d.dict.sdo = some x → data.length ≤ 7 → x.upload = false →
        (tog ≠ x.toggle → ∃ c', Gives s (.sdoRequest t (.segDownload tog last data)) c' ∧ c'.dict.sdo = none ∧ tells c' (.abort 0x05030000)) ∧
        (tog = x.toggle → last = false → x.bytes.length + data.length ≤ 8192 → ∃ c', Gives s (.sdoRequest t (.segDownload tog last data)) c' ∧
          c'.dict.sdo = some { x with toggle := !x.toggle, bytes := x.bytes ++ data, last := t } ∧ tells c' (.ok 0 []))) ∧
      (∀ ix sub, d.dict.sdo = none → d.readRefusal (d.sdoWho 0) ix sub = none → ¬ (ix = 0x2B00 ∧ sub = 0x10) →
        let v := (d.value ix sub).getD []
        let l := sdoBytes ix sub v;
        (8192 < v.length → ∃ c', Gives s (.sdoRequest t (.initUpload ix sub)) c' ∧ c'.dict.sdo = none ∧ tells c' (.abort 0x08000000)) ∧
        (v.length ≤ 8192 → l.length ≤ 4 → ∃ c', Gives s (.sdoRequest t (.initUpload ix sub)) c' ∧ c'.dict.sdo = none ∧ tells c' (.ok l.length l)) ∧
        (v.length ≤ 8192 → 4 < l.length → ∃ c', Gives s (.sdoRequest t (.initUpload ix sub)) c' ∧
          c'.dict.sdo = some ⟨true, ix, sub, false, l, t⟩ ∧ tells c' (.ok l.length []))) ∧
      ∀ x tog, d.dict.sdo = some x → x.upload = true →
        (tog ≠ x.toggle → ∃ c', Gives s (.sdoRequest t (.segUpload tog)) c' ∧ c'.dict.sdo = none ∧ tells c' (.abort 0x05030000)) ∧
        (tog = x.toggle → ∃ c', Gives s (.sdoRequest t (.segUpload tog)) c' ∧ tells c' (.ok (min 7 x.bytes.length) (x.bytes.take 7)) ∧
          c'.dict.sdo = if x.bytes.length ≤ 7 then none else some { x with toggle := !x.toggle, bytes := x.bytes.drop 7, last := t }))

/-- R195, R322, R335: the device numbers each SDO write above every number it or a former active has given the node; of two writes of one rw entry
accepted in one microsecond that of the higher session number stands, whichever came first. -/
def Obligations.WritesAreOrdered : Prop :=
  (∀ c : Chip, c.dict.sdoCsn < c.nextSdoCsn ∧ ∀ o, c.orig (0x10000 + c.rd 0x2900 0x22) = some o → o.highest < c.nextSdoCsn) ∧
  (∀ (c : Chip) (a : Acc) (bs : List Byte), c.answering = true → a.sid = none → c.rd 0x2900 0x20 ≠ 0 →
    c.identify a bs = .go (c.modDict (fun d => { d with sdoCsn := c.nextSdoCsn }))
      ⟨none, c.rd 0x2900 0x23, c.rd 0x2900 0x22, c.nextSdoCsn, 0, 0⟩) ∧
  ∀ (c c' : Chip) (w : Who) (ix sub : Nat) (data : List Byte) (e : Entry), entryOf ix sub = some e →
    let d := c.conclude w ix sub data (.ok c')
    let later (v : List Byte) : Prop := ∃ n, w.snum < n ∧ (c.now / 1000, n, ix, sub, v) ∈ c.dict.lately;
    (e.acc = .rw → w.path.isSome = true → (∃ v, later v) →
      d.regs = c.regs ∨ d.regs = (c.bump 0x2400 0x13).regs) ∧
    (e.acc ≠ .rw ∨ w.path = none ∨ (∀ v, ¬ later v) → d.meas = c'.meas ∧ d.net.tb = c'.net.tb ∧ d.field = c'.field ∧
      SameRegs c' d [(0x2400, 0x13)])

/-- R348-R351, R353, R354, R356, R358-R362: the oldest queued record of a store is written in both copies with the next RSN; a write that a loss
of supply interrupts leaves every record that stood standing, and its own copy stands only where its mark group is whole; an
erased sector holds none; event records take the next SEQ, displace or are dropped; they are read from a SEQ on and cleared by a record. -/
def Obligations.RecordsAreWrittenErasedReadAndCleared : Prop :=
  (∀ (s : State) (t : Instant) (knd ix sub : Nat) (pay : List Byte) (t0 : Instant) (rest : List (Nat × Nat × Nat × List Byte × Instant)),
    let c := s.chip
    let id := isIdent knd
    let st := c.storeAt id
    c.store.queue = (knd, ix, sub, pay, t0) :: rest → c.flashOn = true → c.recd.queue = [] → c.die.work = [] →
    ((takeSpace st.halfA (recLen pay)).isSome = true → (takeSpace st.halfB (recLen pay)).isSome = true →
      ∃ c', Gives s (.parameterRecordWrite t) c' ∧ c'.store.queue = rest ++ c.store.held.take 1 ∧ c'.store.held = c.store.held.drop 1 ∧
        (c'.storeAt id).rsn = (st.rsn + 1) % 2 ^ 48 ∧
        (∃ r ∈ (c'.storeAt id).recs, r.knd = knd ∧ r.ix = ix ∧ r.sub = sub ∧ r.pay = pay ∧ r.rsn = (st.rsn + 1) % 2 ^ 48 ∧ r.a = true ∧ r.b = true) ∧
        (c'.storeAt id).recs.length = st.recs.length + 1 ∧ c'.rd 0x2D00 0x03 = (rest ++ c.store.held.take 1).length % 2 ^ 48 ∧
        c'.rd 0x2D00 0x02 = (if id then c.rd 0x2D00 0x02 else (c.rd 0x2D00 0x02 + 1) % 2 ^ 48) ∧
        c'.rd 0x2D00 0x0A = max (c.rd 0x2D00 0x0A) (min 350000 ((t - t0) / 1000)) % 2 ^ 48) ∧
    (takeSpace st.halfA (recLen pay) = none ∨ takeSpace st.halfB (recLen pay) = none →
      Gives s (.parameterRecordWrite t) (c.at_ t).planStores)) ∧
  (∀ (c : Chip) (knd ix sub rsn : Nat) (pay : List Byte) (b : Bool) (cut : FlashCut), let d := c.cutRecord knd ix sub pay cut
    let id := isIdent knd
    let st := c.storeAt id
    let copy := recordCopy knd ix sub rsn b pay
    let aStands := (cut.step.val = 1 ∧ 8 ≤ cut.done) ∨ 2 ≤ cut.step.val;
    copy.length = recLen pay ∧ copyStands copy (List.replicate (copy.length / 8) false) = true ∧
    ((takeSpace st.halfA (recLen pay)).isSome = true → (takeSpace st.halfB (recLen pay)).isSome = true →
      (¬ aStands → d.2 = false ∧ (d.1.storeAt id).recs = st.recs ∧ (d.1.storeAt id).rsn = (st.rsn + 1) % 2 ^ 48 ∧
        (cut.step.val = 0 → let n := min cut.done (recLen pay - 8);
          ∃ p ∈ d.1.die.progs, p.bytes.take n = (recordCopy knd ix sub ((st.rsn + 1) % 2 ^ 48) false pay).take n)) ∧
      (aStands → ¬ (cut.step.val = 3 ∧ 8 ≤ cut.done) → d.2 = true ∧
        ∃ i oa, (d.1.storeAt id).recs = st.recs ++ [⟨knd, ix, sub, (st.rsn + 1) % 2 ^ 48, pay, true, false, i, 0, oa, 0⟩]) ∧
      (cut.step.val = 3 → 8 ≤ cut.done → d.2 = true ∧ c.putRecord knd ix sub pay = some d.1))) ∧
  (∀ (s : State) (t : Instant) (area : FlashArea) (id half : Bool) (i : Fin 128), let c := s.chip
    halfAt area = some (id, half) → c.sectorSt area i.val = 3 → c.flashSupplied = true → c.die.work = [] →
    let st := c.storeAt id
    ∃ c', Gives s (.sectorEraseComplete t area i) c' ∧
      nth ⟨0, 0, 0⟩ (halfOf (c'.storeAt id) half) i.val = ⟨(nth ⟨0, 0, 0⟩ (halfOf st half) i.val).erases + 1, 0, 0⟩ ∧
      halfOf (c'.storeAt id) (!half) = halfOf st (!half) ∧
      (∀ p ∈ c'.die.progs, p.addr / 65536 ≠ sectorAddr area i.val / 65536) ∧ (∀ w ∈ c'.die.wild, w.1 ≠ sectorAddr area i.val / 65536) ∧
      (∀ r ∈ (c'.storeAt id).recs, (r.a = true ∨ r.b = true) ∧ (half = true → r.b = true → r.sb ≠ i.val) ∧ (half = false → r.a = true → r.sa ≠ i.val))) ∧
  (∀ (s : State) (t : Instant) (i : Fin 128), (nth ⟨0, 0, 0⟩ s.chip.recd.sectors i.val).st = 3 → s.chip.flashSupplied = true → s.chip.die.work = [] →
    ∃ c', Gives s (.sectorEraseComplete t .recorder i) c' ∧
      nth ⟨0, 0, 0⟩ c'.recd.sectors i.val = ⟨(nth ⟨0, 0, 0⟩ s.chip.recd.sectors i.val).erases + 1, 0, 0⟩ ∧
      (∀ p ∈ c'.recd.voids, p.1 ≠ i.val) ∧ c'.recd.live = s.chip.recd.live ∧ c'.store = s.chip.store) ∧
  (∀ (s : State) (t : Instant) (r : EvRec) (rest : List EvRec),
    let c := s.chip
    let new : EvRec := { r with seq := nextSeq c.recd.last };
    c.recd.queue = r :: rest → c.flashOn = true → c.die.work = [] → (takeSlot c.recd.sectors).isSome = true → (c.recd.live.map (·.seq)).Nodup →
    (∀ live gone, recRoom c.recd.live r.sev = some (live, gone) → r.code ≠ clearCode → ∃ c', Gives s (.eventRecordWrite t) c' ∧
      c'.recd.queue = rest ∧ c'.recd.last = nextSeq c.recd.last ∧ c'.recd.live = live ++ [new] ∧
      c'.rd 0x2B00 0x02 = (live.length + 1) % 2 ^ 48 ∧ c'.rd 0x2B00 0x04 = nextSeq c.recd.last % 2 ^ 48 ∧
      c'.rd 0x2B00 0x06 = (c.rd 0x2B00 0x06 + (if gone then 1 else 0)) % 2 ^ 48 ∧ ∃ i k, (new.seq, i, k) ∈ c'.recd.place) ∧
    (∀ live gone, recRoom c.recd.live r.sev = some (live, gone) → r.code = clearCode → ∃ c', Gives s (.eventRecordWrite t) c' ∧
      c'.rdPair 0x2B00 0x08 = r.tim ∧
      c'.recd.live = (live ++ [new]).filter (fun y => !(seqUpTo (leNat ((r.dtl.drop 1).take 4)) y.seq && (leNat (r.dtl.take 1)).testBit y.sev))) ∧
    (recRoom c.recd.live r.sev = none → ∃ c', Gives s (.eventRecordWrite t) c' ∧ c'.recd = { c.recd with queue := rest } ∧
      c'.rd 0x2B00 0x05 = (c.rd 0x2B00 0x05 + 1) % 2 ^ 48) ∧
    (c.recd.live.length < recorderCapacity → r.sev ≠ sevAudit → recRoom c.recd.live r.sev = some (c.recd.live, false)) ∧
    (auditCap ≤ (c.recd.live.filter (fun y => y.sev == sevAudit)).length → r.sev = sevAudit →
      recRoom c.recd.live r.sev = some (dropFirst (fun y => y.sev == sevAudit) c.recd.live, true))) ∧
  (∀ n x, x ≤ n → 0 < n → n < 2 ^ 31 → seqUpTo n x = true) ∧ (∀ n x, n < x → x < 2 ^ 31 → seqUpTo n x = false) ∧
  (∀ (s : State) (m : Msg) (off : Nat) (d : Chip) (w : Who), (s.chip.opens m 0x2B00 0x10
      (msgBytes 0x10 (m.sid.getD 0) m.ctr 0 (readPayload 0x2B00 0x10 off 0)) = some (d, w)) →
    let e := (d.readFlash m.ecc).syncRecorder
    let from_ := if m.sid.isSome then off else if d.dict.sdoPos = 0 then 0 else nextSeq d.dict.sdoPos
    let bs := (e.recordsFrom from_).flatMap recordBytes
    ∃ c', Gives s (.recordsRead m off) c' ∧ c'.dict.answers = d.dict.answers ++ [⟨w.path, 0, w.ctr % 2 ^ 16, readBody bs.length bs⟩] ∧
      c'.recd.live = d.recd.live.filter (fun x => !m.ecc.flagged.contains x.seq) ∧
      c'.rd 0x2D00 0x07 = (d.rd 0x2D00 0x07 + m.ecc.single) % 2 ^ 48 ∧
      SameRegs d c' [(0x2D00, 0x07), (0x2B00, 0x02), (0x2B00, 0x03), (0x2B00, 0x04), (0x2B00, 0x07)]) ∧
  ∀ (s : State) (a : Acc) (v : Nat),
    Writes s a v (beBytes v a.len) (.recorderClear a v, 0x2B00, 0x20, fun c => c.recd.queue.length < 256,
      fun c w => c.modRec (fun x => { x with queue := ⟨c.pairAt c.now, clearCode, sevAudit, false, 12, 0, 0, (c.snapshot clearCode).2,
        (c.snapshot clearCode).1, w.org, w.csn, leBytes (v % 32) 1 ++ leBytes c.recd.last 4⟩ :: x.queue }))

/-- R343-R345, R351, R353: the flash map fills the die without a gap; bytes programmed on blank groups read back, a second program operation before an
erase has no effect, the factory copies and the reserved area take none; an interrupted operation leaves every byte outside of it; an erased sector
reads 0xFF, and one whose erase was interrupted what is indeterminate, with every other sector as it was. -/
def Obligations.TheFlashDieIsProgrammedOnceAndErased : Prop :=
  ((flashMap.map (fun x => x.2.2)).sum = 1024 * 65536 ∧
    (flashMap.zip (flashMap.drop 1)).all (fun p => p.1.2.1 + p.1.2.2 == p.2.2.1) = true) ∧
  (∀ (d : FlashDie) (a : Nat) (bs : List Byte),
    (d.blank a bs.length = true → (∀ i, i < bs.length → isFactory (a + i) = false) → bs ≠ [] → a + bs.length ≤ 0x03D00000 →
      ∀ i, i < bs.length → (d.program a bs).byteAt (a + i) = nth 0xFF bs i) ∧
    (d.blank a bs.length = false → d.program a bs = d) ∧
    (∀ x, x < a ∨ a + bs.length ≤ x ∨ isFactory x = true ∨ 0x03D00000 ≤ x → (d.program a bs).byteAt x = d.byteAt x) ∧
    ∀ draw n stop, n ≤ stop → stop ≤ bs.length →
      (∀ i, i < n → isFactory (a + i) = false → (d.tear a draw n stop bs).byteAt (a + i) = nth 0xFF bs i) ∧
      (∀ x, x < a ∨ a + stop ≤ x → (d.tear a draw n stop bs).byteAt x = d.byteAt x)) ∧
  ∀ (d : FlashDie) (a draw : Nat), (∀ p ∈ d.progs, p.bytes ≠ [] ∧ p.addr / 65536 = (p.addr + p.bytes.length - 1) / 65536) →
    (∀ x, x / 65536 = a / 65536 → isFactory x = false → (d.erase a).byteAt x = 0xFF ∧
      (d.spoil a draw).byteAt x = BitVec.ofNat 8 (Config.freeWord (draw + x % 65536)).toNat) ∧
    (∀ x, x / 65536 ≠ a / 65536 → (d.erase a).byteAt x = d.byteAt x ∧ (d.spoil a draw).byteAt x = d.byteAt x) ∧
    (d.erase a).sectorBlank a = true ∧ (d.spoil a draw).sectorBlank a = false

/-! ### Calendar and roll call (PD0) -/

/-- R366-R376, R378-R386, R406, R417: the calendar freezes its reading, keeps a write shadow, commits, shifts and counts with carries; a second
mark latches its offset. Members of the roll call check in inside their windows, or fail with evidence; two check-ins of a class before the
acknowledge reach PD0 as one, marked. -/
def Obligations.TheCalendarCountsAndTheRollCallWatches : Prop :=
  (∀ (s : State) (r : Fin 12),
    let k := s.chip.cal
    let f := k.frozen.getD (calRegs k.now ++ [k.wday])
    let gives (x : Calendar) : Prop := Gives s (.calRead r) (s.chip.modCal (fun _ => x));
    (r.val < 8 → r.val ≠ 6 → gives { k with frozen := some f, frozenAge := (if k.frozen.isSome then k.frozenAge else 0), rdata := nth 0 f r.val }) ∧
    (r.val = 6 → gives { k with frozen := none, frozenAge := 0, rdata := nth 0 f 6 }) ∧ (r.val = 8 → gives { k with rdata := calStat k }) ∧
    (r.val = 10 → gives { k with rdata := k.shiftReg }) ∧ (r.val = 11 → gives { k with rdata := (k.mark % 65536).toNat })) ∧
  (∀ (s : State),
    let k := s.chip.cal
    let gives (i : Instr) (x : Calendar) : Prop := Gives s i (s.chip.modCal (fun _ => x))
    let rejects (i : Instr) (x : Calendar) : Prop := Gives s i ((s.chip.modCal (fun _ => x)).event 0x0D10 sevMinor 0 0 []);
    (k.frozen.isSome = true → 32768 ≤ k.frozenAge → gives .readShadowTimeout { k with frozen := none, frozenAge := 0, exp := true }) ∧
    (∀ (r : Fin 7) (v : BitVec 16), gives (.calWrite r v) { k with shadow := some (upd (fun _ => v.toNat &&& calMask r.val) (k.shadow.getD (calRegs k.now)) r.val) }) ∧
    (k.shadow = none → Gives s .calCommit s.chip) ∧
    (∀ l v, k.shadow = some l → calShadowVal l = some v → gives .calCommit { k with
      commit := some v, ovf := false, err := false, vld := true, shadow := none, frozen := none, frozenAge := 0, shift := none }) ∧
    (∀ l, k.shadow = some l → calShadowVal l = none → rejects .calCommit { k with err := true, shadow := none }) ∧
    gives .calDiscard { k with shadow := none } ∧
    (∀ v : BitVec 16, (v.toNat % 8 ≠ 0 → gives (.calWdayWrite v) { k with pendWday := some (v.toNat % 8) }) ∧
      (v.toNat % 8 = 0 → rejects (.calWdayWrite v) { k with err := true }) ∧
      (k.shift.isSome = true ∨ v.toNat % 32768 = 0 → Gives s (.calShift v) s.chip) ∧
      (k.shift = none → v.toNat % 32768 ≠ 0 → gives (.calShift v) { k with
        shift := some (v.getLsbD 15, v.toNat % 32768, 1), shiftReg := v.toNat }) ∧
      gives (.calStatClear v) { k with exp := k.exp && !v.getLsbD 7, err := k.err && !v.getLsbD 2, ovf := k.ovf && !v.getLsbD 1 }) ∧
    (∀ r, k.shift = some (r, 0, 1) → gives .calShiftComplete { k with shift := none }) ∧
    (∀ t, s.chip.pd0On = true → ∃ c', Gives s (.lfclkCount t) c' ∧
      c'.wd.count = (if s.chip.power.phase = .pd0Alone then s.chip.wd.count else s.chip.wd.count + 1) ∧
      (∀ v, k.commit = some v → c'.cal.now = v ∧ c'.cal.commit = none) ∧
      (k.commit = none → k.shift = none → c'.cal.now = (calAdvance k.now 1).1 ∧ c'.cal.shift = none) ∧
      (∀ b n, k.commit = none → k.shift = some (b, n + 1, 1) → c'.cal.now = (calAdvance k.now (if b then 0 else 2)).1 ∧
        c'.cal.shift = some (b, n, 256)) ∧
      (∀ b n w, k.commit = none → k.shift = some (b, n + 1, w + 2) → c'.cal.now = (calAdvance k.now 1).1 ∧ c'.cal.shift = some (b, n + 1, w + 1))) ∧
    (s.chip.pd0On = true → k.commit = none → k.shift = none → k.now = ⟨32767, 59, 59, 23, 31, 12, 999⟩ → ∃ c', Gives s .calendarWrap c' ∧
      c'.cal.now = ⟨0, 0, 0, 0, 1, 1, 0⟩ ∧ c'.cal.ovf = true)) ∧
  (∀ v : CalVal, v.sub < 32768 → v.sec < 60 → v.min < 60 → v.hour < 24 → 1 ≤ v.mon → v.mon ≤ 12 → 1 ≤ v.day →
    v.day ≤ monthDays (2000 + v.year) v.mon → v.year < 1000 → v ≠ ⟨32767, 59, 59, 23, 31, 12, 999⟩ →
    calCounts (calAdvance v 1).1 = calCounts v + 1) ∧
  (∀ (s : State) (t : Instant), t % 1000000000 = 0 → s.chip.pd0On = true → s.chip.power.phase = .ready → ∃ c', Gives s (.secondMark t) c' ∧
    let k := s.chip.cal
    let utc := (s.chip.at_ t).utcCounts t
    let off : Int := (calCounts k.now : Int) - utc
    c'.cal.mark = satMark off ∧ c'.cal.relation = some (t, calCounts k.now) ∧
    (s.chip.rd 0x2A00 0x25 = 1 → s.chip.dict.mssUp = true →
      (k.offAtMark < -32767 ∨ 32767 < k.offAtMark → c'.cal.commit = some (calOf utc) ∧ c'.cal.offAtMark = 0) ∧
      (-32767 ≤ k.offAtMark → k.offAtMark ≤ 32767 → k.shift = none → 2 ≤ off.natAbs → off.natAbs ≤ 32767 →
        c'.cal.shift = some (decide (0 < off), off.natAbs, 1)))) ∧
  (∀ (s : State) (t : Instant) (m : Fin 32) (merged : Bool),
    let c := s.chip
    let x := c.member m.val
    let n := c.wd.count
    let counts (c' : Chip) (k : Nat) : Prop := (c'.member m.val).k = k ∧ (c'.member m.val).got = true ∧
      c'.rd (0x2C10 + m.val) 0x05 = (c.rd (0x2C10 + m.val) 0x05 + 1) % 2 ^ 48
    let flag : Bool := if m.val < 16 then x.mergeFlag else merged
    let acked : Chip := if m.val < 16 then (c.at_ t).modMember m.val ackIn
      else ((c.at_ t).modMember m.val (fun x => { x with lastIn := c.pairAt t })).wrPair (0x2C10 + m.val) 0x04 (c.pairAt t)
    let fails (kind : Nat) : Prop := Gives s (.checkIn t m merged) (acked.failMember m.val kind);
    (m.val < 16 → x.signal = false → Gives s (.checkIn t m merged) c) ∧
    ((if m.val < 16 then x.signal = true else c.dict.mssUp = true) → watched x = false → Gives s (.checkIn t m merged) acked) ∧
    ((if m.val < 16 then x.signal = true else c.dict.mssUp = true) → watched x = true →
      (x.armed = none → n < armBy x → flag = false → ∃ c', Gives s (.checkIn t m merged) c' ∧ (c'.member m.val).armed = some n ∧ counts c' 0 ∧
        c'.rd (0x2C10 + m.val) 0x07 = 2 ∧ c'.bit 0x2C00 0x02 m.val = true) ∧
      (x.armed = none → armBy x ≤ n → fails kMissing) ∧ (x.armed = none → n < armBy x → flag = true → fails kDouble) ∧
      ∀ a, x.armed = some a →
        ((n : Int) < closeTick x a x.k → flag = true → fails kDouble) ∧
        ((n : Int) < closeTick x a x.k → flag = false → (n : Int) < openTick x a x.k → fails kOutside) ∧
        ((n : Int) < closeTick x a x.k → flag = false → openTick x a x.k ≤ n → x.got = true → fails kDouble) ∧
        ((n : Int) < closeTick x a x.k → flag = false → openTick x a x.k ≤ n → x.got = false →
          ∃ c', Gives s (.checkIn t m merged) c' ∧ counts c' x.k) ∧
        (closeTick x a x.k ≤ n → x.got = false → fails kMissing) ∧
        (closeTick x a x.k ≤ n → x.got = true → closeTick x a (x.k + 1) ≤ n → fails kMissing) ∧
        (closeTick x a x.k ≤ n → x.got = true → (n : Int) < closeTick x a (x.k + 1) → (flag = true → fails kDouble) ∧
          (flag = false → (n : Int) < openTick x a (x.k + 1) → fails kOutside) ∧
          (flag = false → openTick x a (x.k + 1) ≤ n → ∃ c', Gives s (.checkIn t m merged) c' ∧ counts c' (x.k + 1))))) ∧
  (∀ x : Member, (x.signal = false → flipIn x = { x with signal := true, mergeFlag := false } ∧ ackIn (flipIn x) = { x with mergeFlag := x.pend, signal := x.pend, pend := false }) ∧
    (x.signal = true → ackIn (flipIn x) = { x with signal := true, mergeFlag := true, pend := false } ∧ flipIn (flipIn x) = flipIn x)) ∧
  (∀ (s : State) (t : Instant) (m : Fin 32),
    let c := s.chip
    let x := c.member m.val;
    (watched x = true → x.armed = none → armBy x ≤ c.wd.count → Gives s (.armingDeadline t m) ((c.at_ t).failMember m.val kMissing)) ∧
    (∀ a, watched x = true → x.armed = some a → closeTick x a x.k ≤ c.wd.count →
      (x.got = false → Gives s (.windowClose t m) ((c.at_ t).failMember m.val kMissing)) ∧
      (x.got = true → Gives s (.windowClose t m) ((c.at_ t).modMember m.val (fun x => { x with k := x.k + 1, got := false })))) ∧
    (∀ p o cl, c.rd 0x2C00 0x03 = 0 → c.wd.count < c.wd.lockAt → 16 ≤ m.val → c.dict.mssUp = true →
      (1000 ≤ p → p ≤ 10000000 → o < cl → cl ≤ p → 1000 ≤ cl - o → ∃ c', Gives s (.watchdogConfigure m true p o cl) c' ∧
        (x.on_ = false → c'.member m.val = { x with
          on_ := true, p := p, o := o, c := cl, e := c.wd.count, armed := none, k := 0, got := false, failAt := none, signal := false, mergeFlag := false, pend := false } ∧
          c'.bit 0x2C00 0x01 m.val = true) ∧
        (x.on_ = true → c'.member m.val = { x with p := p, o := o, c := cl } ∧ c'.rd 0x2C00 0x01 = c.rd 0x2C00 0x01) ∧
        c'.rd (0x2C10 + m.val) 0x01 = p ∧ c'.rd (0x2C10 + m.val) 0x02 = o ∧ c'.rd (0x2C10 + m.val) 0x03 = cl) ∧
      (m.val = 16 → Gives s (.watchdogConfigure m false p o cl) c) ∧
      (m.val ≠ 16 → ∃ c', Gives s (.watchdogConfigure m false p o cl) c' ∧ (c'.member m.val).on_ = false ∧ c'.bit 0x2C00 0x01 m.val = false)) ∧
    (∀ e p o cl, c.rd 0x2C00 0x03 ≠ 0 ∨ c.wd.lockAt ≤ c.wd.count → Gives s (.watchdogConfigure m e p o cl) c) ∧
    (c.rd 0x2C00 0x03 = 0 → c.wd.lockAt ≤ c.wd.count → Gives s .configurationLock (c.wr 0x2C00 0x03 1)) ∧
    ∀ (a : Acc) (v : Nat), Writes s a v (beBytes v a.len) (.evidenceRelease a v, 0x2C00, 0x08, fun _ => True,
      fun c _ => c.modWd (fun w => { w with ev0 := none, ev1 := none }))) ∧
  ∀ (c : Chip) (m kind : Nat), m < 32 →
    let n := c.wd.count
    let d := c.failMember m kind
    let mates : List Nat := ((List.range 16).map (· + 16)).filter (fun x => x != m && missingBy (c.member x) n)
    let again : Prop := (∃ f, c.wd.lastFw = some f ∧ n < f + 327680) ∨ mates ≠ [];
    ((∀ x, c.wd.ev1 = some x → x.cnt ≠ n) → (∀ x, c.wd.ev0 = some x → x.cnt ≠ n) → ∃ e : Evidence, d.wd.ev1 = some e ∧
      d.wd.ev0 = some (c.wd.ev0.getD e) ∧ e.cnt = n ∧ e.mbr = m ∧ e.knd = kind ∧ e.lci = c.wd.members.map (·.lastIn) ∧ (16 ≤ m → e.epc = []) ∧
      (m < 16 ∨ mates = [] → e.fmk = 2 ^ m) ∧ (16 ≤ m → ∀ k, e.fmk.testBit k = true ↔ k = m ∨ k ∈ mates)) ∧
    (m < 16 ∨ ¬ again → d.rd 0x2C00 0x04 = (c.rd 0x2C00 0x04 + 1) % 2 ^ 48 ∧ d.rd (0x2C10 + m) 0x06 = (c.rd (0x2C10 + m) 0x06 + 1) % 2 ^ 48) ∧
    (m < 16 → d.rd 0x2100 0x06 = (c.rd 0x2100 0x06 + 1) % 2 ^ 48) ∧
    (m < 16 → c.recd.queue.length < 256 → ∃ r ∈ d.recd.queue, r.code = 0x0D01 ∧ r.unit = m ∧
      ∀ e, d.wd.ev1 = some e → r.dtl = leBytes e.cnt 6 ++ leBytes e.fmk 4 ++ leBytes e.mbr 1 ++ leBytes e.knd 1 ++ leBytes e.mpc 4) ∧
    (16 ≤ m → ¬ again → d.dict.mssUp = false ∧ d.rd 0x2C00 0x05 = (c.rd 0x2C00 0x05 + 1) % 2 ^ 48) ∧
    (16 ≤ m → again → c.partnerReady = true → d.pairState = psFenced ∧ d.rd 0x2400 0x12 = 11) ∧
    (16 ≤ m → again → c.partnerReady = false → d.power.phase = .stopped ∧ d.power.restartCause = 3 ∧
      (c.recd.queue.length < 200 → (∃ r ∈ d.recd.queue, r.code = 0x0D02 ∧ r.unit = m) ∧ ∃ r ∈ d.recd.queue, r.code = 0x0D03 ∧ r.unit = m))

/-! ### The front panel -/

/-- R388-R398: rows and waveform tables are taken, commands wait or are refused, sequences start, drive and end, balancing returns every
counter to zero, the rails follow, keys are accepted. -/
def Obligations.ThePanelTakesImagesDrivesAndBalances : Prop :=
  (∀ (s : State) (a : Acc) (first : Nat) (rows : List Byte),
    Writes s a 0 (beBytes first 2 ++ rows) (.frameRows a first rows, 0x2E00, 0x10, fun _ => first + rows.length / 80 ≤ 240,
      fun c _ => c.modPanel (fun p => { p with copy := (rows.zipIdx).foldl (fun m x => NMem.set m (80 * first + x.2) x.1.toNat) p.copy }))) ∧
  (∀ (s : State) (a : Acc) (band : Fin 8) (f : Nat) (codes : List Byte), 1 ≤ f → f ≤ 64 → codes.length = 5 * f →
    tableOk (BitVec.ofNat 8 f :: codes) = true →
    Writes s a 0 (BitVec.ofNat 8 f :: codes) (.waveformTableWrite a band (BitVec.ofNat 8 f :: codes), 0x2E00, 0x20 + band.val,
      fun c => c.storeFree = true, fun c _ => (c.persist 1 0x2E00 (0x20 + band.val) (BitVec.ofNat 8 f :: codes)).modPanel (fun p =>
        { p with tables := modNth [] (fun _ => BitVec.ofNat 8 f :: codes) p.tables band.val }))) ∧
  (∀ (s : State) (a : Acc), ∀ p ∈ [(1, Instr.partialUpdate a 1, PanelKind.partialUpd), (2, Instr.fullUpdate a 2, PanelKind.fullUpd),
      (4, Instr.repaint a 4, PanelKind.repaintUpd)],
    Writes s a p.1 (beBytes p.1 a.len) (p.2.1, 0x2E00, 0x11, fun c => c.panelState ≠ pnDisabled ∧ c.bandTable ≠ [],
      fun c _ =>
        let c' := c.modPanel (fun x => { x with pending := some p.2.2 });
        if c.panelState = pnOff then (c'.setPanel pnPowering).loadTarget else if c.panel.run.isSome then c' else c'.loadTarget) ∧
    ∀ c w, s.chip.admits a 0x2E00 0x11 p.1 (beBytes p.1 a.len) = some (c, w) → c.panelState = pnDisabled ∨ c.bandTable = [] →
      Gives s p.2.1 (c.refuse w abState)) ∧
  (∀ (s : State) (a : Acc),
    Writes s a 3 (beBytes 3 a.len) (.panelAbort a 3, 0x2E00, 0x11, fun c => c.panel.run.isSome = true,
      fun c _ => c.abandonRun.powerOffAt (abandonEnd c) pnDischarging) ∧
    Writes s a 3 (beBytes 3 a.len) (.panelAbort a 3, 0x2E00, 0x11, fun c => c.panel.run = none,
      fun c _ => c.modPanel (fun p => { p with pending := none })) ∧
    Writes s a 5 (beBytes 5 a.len) (.reEnable a 5, 0x2E00, 0x11, fun _ => True,
      fun c _ => if c.panelState = pnDisabled then
        if c.now < c.panel.idleAt + 26000000 then c.powerOffAt c.panel.idleAt pnDischarging
        else if c.panel.pending.isSome then (c.setPanel pnPowering).loadTarget else c.setPanel pnOff
      else c)) ∧
  (∀ (c : Chip) (r : PanelRun), c.panel.run = some r →
    let d := c.abandonRun;
    d.panel.run = none ∧ d.panel.pending = none ∧ d.panel.unknown = true ∧ d.panel.balDue = decide (96 ≤ counterMax d.panel.counters) ∧
      d.rd 0x2E00 0x0A = (c.rd 0x2E00 0x0A + 1) % 2 ^ 48) ∧
  (∀ (s : State) (t : Instant),
    let c := s.chip
    let d := c.at_ t
    let x := c.panel;
    (c.panelState = pnPowering → x.idleAt + 5000000 ≤ t → Gives s (.railsInRange t) (d.setPanel pnIdle)) ∧
    (c.panelState = pnIdle → x.pending = none → x.idleAt + c.rd 0x2E00 0x05 * 1000000 ≤ t → Gives s (.idlePowerOff t) (d.setPanel pnDischarging)) ∧
    (c.panelState = pnDischarging → x.idleAt + 26000000 ≤ t →
      Gives s (.railsDischarged t) (if x.pending.isSome then (d.setPanel pnPowering).loadTarget else d.setPanel pnOff)) ∧
    (pnPowering ≤ c.panelState → c.panelState ≤ pnDischarging →
      Gives s (.railFault t) ((d.abandonRun.powerOffAt (if c.panelState = pnDischarging then x.idleAt else abandonEnd d) pnDisabled).event
        0x0E05 sevMajor 0 0 [])) ∧
    (∀ (l : List (Nat × Nat)) k, x.pending = some k → c.panelState = pnIdle → x.balDue = false → c.bandTable ≠ [] →
      let u := d.modPanel (fun p => { p with tgt := upsetBy l p.tgt });
      (bufferCrc u.panel.tgt = x.tgtCrc →
        let k' := if x.unknown then PanelKind.repaintUpd else k;
        Gives s (.updateStart ⟨t, l⟩) ((u.modPanel (fun p => { p with
          run := some ⟨k', (tableParts c.bandTable).1, (tableParts c.bandTable).2, 0⟩, pending := none })).setPanel
          (if k' = .repaintUpd then pnRepainting else pnUpdating))) ∧
      (bufferCrc u.panel.tgt ≠ x.tgtCrc →
        Gives s (.updateStart ⟨t, l⟩) ((u.bump 0x2E00 0x09).event 0x0E02 sevMinor 0 0 []).loadTarget)) ∧
    (∀ l k, x.pending = some k → c.panelState = pnIdle → x.balDue = true → ∃ c', Gives s (.updateStart ⟨t, l⟩) c' ∧ c'.panelState = pnBalancing ∧
      c'.panel.run = some ⟨.balance, 0, [], 0⟩ ∧ c'.panel.balDue = false ∧ c'.panel.pending = some k) ∧
    (∀ r, x.run = some r → framesLeft x = true → frameEnd x ≤ t → ∃ c', Gives s (.driveFrame t) c' ∧ c'.panel.run = some { r with k := r.k + 1 } ∧
      ∀ p, p < panelPixels → counterOf c'.panel.counters p = addDrive (counterOf x.counters p) (panelDrive x r (r.k + 1) p)) ∧
    (∀ r, x.run = some r → r.kind ≠ .balance → r.frames ≤ r.k → ∃ c', Gives s (.updateEnd t) c' ∧ c'.panel.cur = x.tgt ∧
      c'.panel.curCrc = x.tgtCrc ∧ c'.panel.unknown = false ∧ c'.rd 0x2E00 0x07 = (c.rd 0x2E00 0x07 + 1) % 2 ^ 48 ∧
      (96 ≤ counterMax x.counters → c'.panelState = pnBalancing ∧ c'.panel.run = some ⟨.balance, 0, [], 0⟩) ∧
      (counterMax x.counters < 96 → c'.panelState = pnIdle ∧ c'.panel.run = none)) ∧
    (∀ r, x.run = some r → r.kind = .balance → x.counters = [] → ∃ c', Gives s (.balancingEnd t) c' ∧ c'.panelState = pnIdle ∧
      c'.panel.run = none ∧ c'.panel.unknown = true) ∧
    (∀ l : List (Nat × Nat), c.running = true → x.run = none → x.unknown = false →
      (bufferCrc (upsetBy l x.cur) = x.curCrc → Gives s (.currentBufferCheck ⟨t, l⟩) (c.modPanel (fun p => { p with cur := upsetBy l p.cur }))) ∧
      (bufferCrc (upsetBy l x.cur) ≠ x.curCrc → ∃ c', Gives s (.currentBufferCheck ⟨t, l⟩) c' ∧
        c'.panel.unknown = true ∧ c'.panel.pending = some .repaintUpd ∧ c'.rd 0x2E00 0x09 = (c.rd 0x2E00 0x09 + 1) % 2 ^ 48 ∧
        c'.panel.tgt = x.copy ∧ c'.panelState = (if c.panelState = pnOff then pnPowering else c.panelState))) ∧
    (∀ temp, c.running = true →
      let v := if c.rd 0x2E00 0x04 = 1 then temp else BitVec.ofNat 32 (c.rd 0x2F00 0x08);
      Gives s (.panelTemperatureRead t temp)
        ((d.wr 0x2E00 0x02 v.toNat).wr 0x2E00 0x03 (bandAt (real32Rat v) (c.rd 0x2E00 0x03))).showTrim) ∧
    (∀ (key : Fin 8) (pressed : Bool), c.running = true → ∃ c', Gives s (.keyAccept t key pressed) c' ∧ c'.bit 0x2E00 0x0B key.val = pressed ∧
      (key.val = 6 → c'.bit 0x2500 0x04 1 = pressed) ∧
      (pressed = true → c.trimMode = true →
        (key.val = 0 → c'.panel.trimCh = (x.trimCh + 1) % 8 ∧ c'.panel.trimView = some c'.trimShown) ∧
        (key.val = 1 → c'.panel.trimCh = (x.trimCh + 7) % 8 ∧ c'.panel.trimView = some c'.trimShown) ∧
        (key.val = 2 ∨ key.val = 3 ∨ key.val = 4 → c'.panel.trimAct = some (key.val - 1, t)) ∧
        (key.val = 5 → c'.panel.trimAct = none))) ∧
    ∀ n t0, x.trimAct = some (n, t0) → t0 + 5000000000 ≤ t →
      Gives s (.trimActionTimeout t) (d.modPanel (fun p => { p with trimAct := none }))) ∧
  (∀ c : Chip, c.trimMode = true → ∀ d, d = c.showTrim → d.panel.trimView = some (c.panel.trimCh, c.rdw (0x2860 + c.panel.trimCh) 0x05,
      c.rdw (0x2860 + c.panel.trimCh) 0x02, c.rdw (0x2860 + c.panel.trimCh) 0x03) ∧
    (c.panel.trimView = some c.trimShown → d = c) ∧
    (c.panel.trimView ≠ some c.trimShown → c.panelState ≠ pnDisabled → c.bandTable ≠ [] → d.panel.pending = some .partialUpd)) ∧
  (∀ t0 d : Nat,
    (railsAt pnPowering t0 (t0 + d) = (true, decide (1000000 ≤ d), decide (2000000 ≤ d), decide (3000000 ≤ d))) ∧
    ∀ st, st = pnDischarging ∨ st = pnDisabled →
      railsAt st t0 (t0 + d) = (decide (d < 26000000), decide (d < 21000000), decide (d < 21000000), decide (d < 20000000)) ∧
      (rowsSelected st t0 (t0 + d) = true ↔ d < 20000000)) ∧
  ∀ (temp : Rat) (b : Nat), b < 8 →
    (bandAt temp b = b ↔ (b < 7 → temp < ((nth 0 bandEdges b + 1 : Nat) : Rat)) ∧ (0 < b → ((nth 0 bandEdges (b - 1) : Nat) : Rat) - 1 ≤ temp))

/-! ### The machine as a whole -/

/-- A step takes the command at the front of the queue and is its meaning on the state with the queue's rest; on an empty queue the block
idles (log 2); every command answers a next state and leaves the waiting commands (log 3). -/
def Obligations.AStepRunsTheFrontCommand : Prop :=
  (∀ (s : State) (i : Instr) (q : List Instr), s.pending = i :: q → step s = exec i { s with pending := q }) ∧
  (∀ s : State, s.pending = [] → step s = .next s) ∧
  ∀ (s : State) (i : Instr), ∃ c', Gives s i c'

/-- R338, R366 and log 1: at reset every tabulated entry holds its default, no command waits, the chip is off, the calendar is at its first
instant with every status bit 0, and every memory word reads zero; its
engines and memories have their form. -/
def Obligations.ResetHoldsTheDefaults : Prop :=
  let c := State.reset.chip
  (∀ ix sub e, ix < 65536 → sub < 256 → entryOf ix sub = some e → c.rd ix sub = e.dflt) ∧
  State.reset.pending = [] ∧ c.power.phase = .off ∧ c.cal.now = ⟨0, 0, 0, 0, 1, 1, 0⟩ ∧ c.cal.wday = 1 ∧ calStat c.cal = 0 ∧
  (∀ e a, c.dWord e a = 0) ∧ (∀ r a, c.gWord r a = 0) ∧ (∀ e, gRead (c.work e) 0 = 0 ∧ (c.work e).run = .idle) ∧
  EnginesFormed c

/-- R83, R84, R103 (R75, R91, R93): an operation that an engine executes keeps the form of engines and memories from every state that has
it: the rung stack at most 16 deep, the return stack at most 8, two loop levels, two delay bundles, every memory canonical (log 13, log 15). -/
def Obligations.EngineOperationsKeepTheFormOfEngines : Prop :=
  ∀ (s s' : State) (i : Instr) (q : List Instr), s.pending = i :: q → i.ofEngine = true → EnginesFormed s.chip → step s = .next s' →
    EnginesFormed s'.chip

/-- R85-R99, Tables 03-6, 03-7 and 04-1 to 04-18: every engine operation with legal operands has a word in its slot, and the decoder of its
engine's profile gives the operation back, guard, operands and all; an `imm` is decoded in slot C in either profile. -/
def Obligations.DecodeOfEncodeIsTheOperation : Prop :=
  (∀ (i : Instr) (o : Op) (d : Bool), i.op = some o → operandsLegal i = true → formOk i = true → (∀ p, profileOnly i = some p → p = d) →
    ∃ sl w, encodeOp i = some (sl, w) ∧ decodeOp o.eng o.last d (carried i) sl w = some i) ∧
  (∀ (e : Fin 32) (last sx d : Bool) (x : BitVec 28) (t : Instant), ∃ w, encodeOp (.imm e last sx x) = some (.c, w) ∧
    decodeOp e last d t .c w = some (.imm e last sx x)) ∧
  ∀ (i j : Instr) (o p : Op) (d : Bool), i.op = some o → j.op = some p → o.eng = p.eng → o.last = p.last → carried i = carried j →
    operandsLegal i = true → operandsLegal j = true → formOk i = true → formOk j = true →
    (∀ q, profileOnly i = some q → q = d) → (∀ q, profileOnly j = some q → q = d) → encodeOp i = encodeOp j → i = j
end

