-- ==== Sys2Proof/Laws/Sparse.lean ====
section
/-! SUPPORT. The laws of the sparse maps and of the unit lists: read after write, everything else kept, canonical form kept. -/

namespace Sys2Proof

section
variable {α : Type} [DecidableEq α] (d : Nat → α)

theorem Sparse.get_insert_same (m : List (Nat × α)) (k : Nat) (v : α) : Sparse.get d (Sparse.insert m k v) k = v := by
  induction m with
  | nil => simp [Sparse.insert, Sparse.get]
  | cons p m ih =>
    simp only [Sparse.insert]
    split
    · simp [Sparse.get]
    · split
      · simp [Sparse.get]
      · simp_all [Sparse.get]

theorem Sparse.get_insert_other (m : List (Nat × α)) (k k2 : Nat) (v : α) (h : k2 ≠ k) :
    Sparse.get d (Sparse.insert m k v) k2 = Sparse.get d m k2 := by
  induction m with
  | nil => simp [Sparse.insert, Sparse.get, h]
  | cons p m ih =>
    simp only [Sparse.insert]
    split
    · simp [Sparse.get, h]
    · split
      · simp_all [Sparse.get]
      · simp only [Sparse.get, ih]

theorem Sparse.get_drop_same (m : List (Nat × α)) (k : Nat) : Sparse.get d (m.filter (fun p => p.1 != k)) k = d k := by
  induction m with
  | nil => rfl
  | cons p m ih =>
    by_cases h : p.1 = k
    · simpa [h] using ih
    · have h' : ¬ k = p.1 := fun e => h e.symm
      simpa [h, Sparse.get, h'] using ih

theorem Sparse.get_drop_other (m : List (Nat × α)) (k k2 : Nat) (h : k2 ≠ k) :
    Sparse.get d (m.filter (fun p => p.1 != k)) k2 = Sparse.get d m k2 := by
  induction m with
  | nil => rfl
  | cons p m ih =>
    by_cases hp : p.1 = k
    · simp [hp, Sparse.get, h] at ih ⊢; exact ih
    · simp only [Sparse.get, List.filter_cons, bne_iff_ne, ne_eq, hp, not_false_eq_true, if_true, ih]

/-- Reading the key just written gives the value written. -/
theorem Sparse.get_set_same (m : List (Nat × α)) (k : Nat) (v : α) : Sparse.get d (Sparse.set d m k v) k = v := by
  unfold Sparse.set; split
  · rw [Sparse.get_drop_same]; simp_all
  · exact Sparse.get_insert_same d m k v

/-- A write leaves every other key as it was. -/
theorem Sparse.get_set_other (m : List (Nat × α)) (k k2 : Nat) (v : α) (h : k2 ≠ k) :
    Sparse.get d (Sparse.set d m k v) k2 = Sparse.get d m k2 := by
  unfold Sparse.set; split
  · exact Sparse.get_drop_other d m k k2 h
  · exact Sparse.get_insert_other d m k k2 v h

/-- A lower bound of the keys may be lowered. -/
theorem Sparse.wfAbove_mono (m : List (Nat × α)) (a b : Nat) (hab : a ≤ b) (h : Sparse.wfAbove d b m = true) :
    Sparse.wfAbove d a m = true := by
  cases m with
  | nil => rfl
  | cons p m =>
    simp only [Sparse.wfAbove, Bool.and_eq_true, decide_eq_true_eq] at h ⊢
    exact ⟨⟨by omega, h.1.2⟩, h.2⟩

theorem Sparse.wfAbove_filter (q : Nat × α → Bool) (m : List (Nat × α)) (b : Nat) (h : Sparse.wfAbove d b m = true) :
    Sparse.wfAbove d b (m.filter q) = true := by
  induction m generalizing b with
  | nil => rfl
  | cons p m ih =>
    simp only [Sparse.wfAbove, Bool.and_eq_true, decide_eq_true_eq] at h
    simp only [List.filter_cons]
    split
    · simp only [Sparse.wfAbove, Bool.and_eq_true, decide_eq_true_eq]; exact ⟨h.1, ih _ h.2⟩
    · exact ih b (Sparse.wfAbove_mono d m b p.1 (by omega) h.2)

/-- Dropping entries keeps the canonical form. -/
theorem Sparse.wf_filter (q : Nat × α → Bool) (m : List (Nat × α)) (h : Sparse.wf d m = true) :
    Sparse.wf d (m.filter q) = true := by
  induction m with
  | nil => rfl
  | cons p m ih =>
    simp only [Sparse.wf, Bool.and_eq_true, decide_eq_true_eq] at h
    simp only [List.filter_cons]
    split
    · simp only [Sparse.wf, Bool.and_eq_true, decide_eq_true_eq]; exact ⟨h.1, Sparse.wfAbove_filter d q m p.1 h.2⟩
    · apply ih
      cases m with
      | nil => rfl
      | cons r m =>
        have h2 := h.2
        simp only [Sparse.wfAbove, Bool.and_eq_true, decide_eq_true_eq] at h2
        simp [Sparse.wf, h2.1.2, h2.2]

theorem Sparse.wfAbove_insert (m : List (Nat × α)) (b k : Nat) (v : α) (hv : v ≠ d k) (hb : b < k)
    (h : Sparse.wfAbove d b m = true) : Sparse.wfAbove d b (Sparse.insert m k v) = true := by
  induction m generalizing b with
  | nil => simp [Sparse.insert, Sparse.wfAbove, hv, hb]
  | cons p m ih =>
    simp only [Sparse.wfAbove, Bool.and_eq_true, decide_eq_true_eq] at h
    simp only [Sparse.insert]
    split
    · simp [Sparse.wfAbove, *]
    · split
      · subst_vars; simp [Sparse.wfAbove, *]
      · simp only [Sparse.wfAbove, Bool.and_eq_true, decide_eq_true_eq]; exact ⟨h.1, ih p.1 (by omega) h.2⟩

/-- Every write keeps the canonical form. -/
theorem Sparse.wf_set (m : List (Nat × α)) (k : Nat) (v : α) (h : Sparse.wf d m = true) :
    Sparse.wf d (Sparse.set d m k v) = true := by
  unfold Sparse.set; split
  · exact Sparse.wf_filter d _ m h
  · rename_i hv
    cases m with
    | nil => simp [Sparse.insert, Sparse.wf, Sparse.wfAbove, hv]
    | cons p m =>
      simp only [Sparse.wf, Bool.and_eq_true, decide_eq_true_eq] at h
      simp only [Sparse.insert]
      split
      · simp [Sparse.wf, Sparse.wfAbove, *]
      · split
        · subst_vars; simp [Sparse.wf, *]
        · simp only [Sparse.wf, Bool.and_eq_true, decide_eq_true_eq]
          exact ⟨h.1, Sparse.wfAbove_insert d m p.1 k v hv (by omega) h.2⟩

end

@[simp] theorem WMem.get_set_same (m : WMem) (a : Nat) (v : Word) : (m.set a v).get a = v := Sparse.get_set_same zeroWord m a v
theorem WMem.get_set_other (m : WMem) (a b : Nat) (v : Word) (h : b ≠ a) : (m.set a v).get b = m.get b :=
  Sparse.get_set_other zeroWord m a b v h
theorem WMem.wf_set (m : WMem) (a : Nat) (v : Word) (h : m.wf = true) : (m.set a v).wf = true := Sparse.wf_set zeroWord m a v h
@[simp] theorem NMem.get_set_same (m : NMem) (a v : Nat) : (m.set a v).get a = v := Sparse.get_set_same zeroNat m a v
theorem NMem.get_set_other (m : NMem) (a b v : Nat) (h : b ≠ a) : (m.set a v).get b = m.get b :=
  Sparse.get_set_other zeroNat m a b v h
theorem NMem.wf_set (m : NMem) (a v : Nat) (h : m.wf = true) : (m.set a v).wf = true := Sparse.wf_set zeroNat m a v h

section
variable {α : Type} (d : α) (f : α → α)

/-- The unit changed reads as changed. -/
@[simp] theorem nth_modNth_same (l : List α) (i : Nat) : nth d (modNth d f l i) i = f (nth d l i) := by
  induction i generalizing l with
  | zero => cases l <;> simp [modNth, nth]
  | succ i ih => cases l <;> simp_all [modNth, nth]

/-- Every other unit reads as before. -/
theorem nth_modNth_other (l : List α) (i j : Nat) (h : j ≠ i) : nth d (modNth d f l i) j = nth d l j := by
  induction i generalizing l j with
  | zero =>
    cases j with
    | zero => exact absurd rfl h
    | succ j => cases l <;> simp [modNth, nth]
  | succ i ih =>
    cases j with
    | zero => cases l <;> simp [modNth, nth]
    | succ j =>
      have h' : j ≠ i := fun e => h (by omega)
      cases l with
      | nil => have := ih [] j h'; simp_all [modNth, nth]
      | cons x l => have := ih l j h'; simp_all [modNth, nth]

end

end Sys2Proof
end

