-- ==== Sys2Proof/Laws/State.lean ====
section
/-! SUPPORT. What each update of the chip changes: one lemma per field and update, true by unfolding, and what the accessors of
registers and units read after an update. -/

namespace Sys2Proof.Machine

variable (c : Chip)


/-! `at_` -/

@[simp] theorem Chip.at_free (t : Instant) : (c.at_ t).free = c.free := rfl
@[simp] theorem Chip.at_regs (t : Instant) : (c.at_ t).regs = c.regs := rfl
@[simp] theorem Chip.at_works (t : Instant) : (c.at_ t).works = c.works := rfl
@[simp] theorem Chip.at_dbank (t : Instant) : (c.at_ t).dbank = c.dbank := rfl
@[simp] theorem Chip.at_ibank (t : Instant) : (c.at_ t).ibank = c.ibank := rfl
@[simp] theorem Chip.at_cls (t : Instant) : (c.at_ t).cls = c.cls := rfl
@[simp] theorem Chip.at_regions (t : Instant) : (c.at_ t).regions = c.regions := rfl
@[simp] theorem Chip.at_crossing (t : Instant) : (c.at_ t).crossing = c.crossing := rfl
@[simp] theorem Chip.at_evFlight (t : Instant) : (c.at_ t).evFlight = c.evFlight := rfl
@[simp] theorem Chip.at_pair (t : Instant) : (c.at_ t).pair = c.pair := rfl
@[simp] theorem Chip.at_targets (t : Instant) : (c.at_ t).targets = c.targets := rfl
@[simp] theorem Chip.at_meas (t : Instant) : (c.at_ t).meas = c.meas := rfl
@[simp] theorem Chip.at_field (t : Instant) : (c.at_ t).field = c.field := rfl
@[simp] theorem Chip.at_net (t : Instant) : (c.at_ t).net = c.net := rfl
@[simp] theorem Chip.at_dict (t : Instant) : (c.at_ t).dict = c.dict := rfl
@[simp] theorem Chip.at_store (t : Instant) : (c.at_ t).store = c.store := rfl
@[simp] theorem Chip.at_ident (t : Instant) : (c.at_ t).ident = c.ident := rfl
@[simp] theorem Chip.at_recd (t : Instant) : (c.at_ t).recd = c.recd := rfl
@[simp] theorem Chip.at_die (t : Instant) : (c.at_ t).die = c.die := rfl
@[simp] theorem Chip.at_cal (t : Instant) : (c.at_ t).cal = c.cal := rfl
@[simp] theorem Chip.at_campRecs (t : Instant) : (c.at_ t).campRecs = c.campRecs := rfl
@[simp] theorem Chip.at_wd (t : Instant) : (c.at_ t).wd = c.wd := rfl
@[simp] theorem Chip.at_panel (t : Instant) : (c.at_ t).panel = c.panel := rfl
@[simp] theorem Chip.at_power (t : Instant) : (c.at_ t).power = c.power := rfl
@[simp] theorem Chip.at_rd (t : Instant) (ix sub : Nat) : (c.at_ t).rd ix sub = c.rd ix sub := rfl
@[simp] theorem Chip.at_rdw (t : Instant) (ix sub : Nat) : (c.at_ t).rdw ix sub = c.rdw ix sub := rfl
@[simp] theorem Chip.at_now (t : Instant) : (c.at_ t).now = t := rfl

/-! `wr` -/

@[simp] theorem Chip.wr_now (ix sub v : Nat) : (c.wr ix sub v).now = c.now := rfl
@[simp] theorem Chip.wr_free (ix sub v : Nat) : (c.wr ix sub v).free = c.free := rfl
@[simp] theorem Chip.wr_works (ix sub v : Nat) : (c.wr ix sub v).works = c.works := rfl
@[simp] theorem Chip.wr_dbank (ix sub v : Nat) : (c.wr ix sub v).dbank = c.dbank := rfl
@[simp] theorem Chip.wr_ibank (ix sub v : Nat) : (c.wr ix sub v).ibank = c.ibank := rfl
@[simp] theorem Chip.wr_cls (ix sub v : Nat) : (c.wr ix sub v).cls = c.cls := rfl
@[simp] theorem Chip.wr_regions (ix sub v : Nat) : (c.wr ix sub v).regions = c.regions := rfl
@[simp] theorem Chip.wr_crossing (ix sub v : Nat) : (c.wr ix sub v).crossing = c.crossing := rfl
@[simp] theorem Chip.wr_evFlight (ix sub v : Nat) : (c.wr ix sub v).evFlight = c.evFlight := rfl
@[simp] theorem Chip.wr_pair (ix sub v : Nat) : (c.wr ix sub v).pair = c.pair := rfl
@[simp] theorem Chip.wr_targets (ix sub v : Nat) : (c.wr ix sub v).targets = c.targets := rfl
@[simp] theorem Chip.wr_meas (ix sub v : Nat) : (c.wr ix sub v).meas = c.meas := rfl
@[simp] theorem Chip.wr_field (ix sub v : Nat) : (c.wr ix sub v).field = c.field := rfl
@[simp] theorem Chip.wr_net (ix sub v : Nat) : (c.wr ix sub v).net = c.net := rfl
@[simp] theorem Chip.wr_dict (ix sub v : Nat) : (c.wr ix sub v).dict = c.dict := rfl
@[simp] theorem Chip.wr_store (ix sub v : Nat) : (c.wr ix sub v).store = c.store := rfl
@[simp] theorem Chip.wr_ident (ix sub v : Nat) : (c.wr ix sub v).ident = c.ident := rfl
@[simp] theorem Chip.wr_recd (ix sub v : Nat) : (c.wr ix sub v).recd = c.recd := rfl
@[simp] theorem Chip.wr_die (ix sub v : Nat) : (c.wr ix sub v).die = c.die := rfl
@[simp] theorem Chip.wr_cal (ix sub v : Nat) : (c.wr ix sub v).cal = c.cal := rfl
@[simp] theorem Chip.wr_campRecs (ix sub v : Nat) : (c.wr ix sub v).campRecs = c.campRecs := rfl
@[simp] theorem Chip.wr_wd (ix sub v : Nat) : (c.wr ix sub v).wd = c.wd := rfl
@[simp] theorem Chip.wr_panel (ix sub v : Nat) : (c.wr ix sub v).panel = c.panel := rfl
@[simp] theorem Chip.wr_power (ix sub v : Nat) : (c.wr ix sub v).power = c.power := rfl

/-! `wrPair` -/

@[simp] theorem Chip.wrPair_now (ix sub : Nat) (p : TimePair) : (c.wrPair ix sub p).now = c.now := rfl
@[simp] theorem Chip.wrPair_free (ix sub : Nat) (p : TimePair) : (c.wrPair ix sub p).free = c.free := rfl
@[simp] theorem Chip.wrPair_works (ix sub : Nat) (p : TimePair) : (c.wrPair ix sub p).works = c.works := rfl
@[simp] theorem Chip.wrPair_dbank (ix sub : Nat) (p : TimePair) : (c.wrPair ix sub p).dbank = c.dbank := rfl
@[simp] theorem Chip.wrPair_ibank (ix sub : Nat) (p : TimePair) : (c.wrPair ix sub p).ibank = c.ibank := rfl
@[simp] theorem Chip.wrPair_cls (ix sub : Nat) (p : TimePair) : (c.wrPair ix sub p).cls = c.cls := rfl
@[simp] theorem Chip.wrPair_regions (ix sub : Nat) (p : TimePair) : (c.wrPair ix sub p).regions = c.regions := rfl
@[simp] theorem Chip.wrPair_crossing (ix sub : Nat) (p : TimePair) : (c.wrPair ix sub p).crossing = c.crossing := rfl
@[simp] theorem Chip.wrPair_evFlight (ix sub : Nat) (p : TimePair) : (c.wrPair ix sub p).evFlight = c.evFlight := rfl
@[simp] theorem Chip.wrPair_pair (ix sub : Nat) (p : TimePair) : (c.wrPair ix sub p).pair = c.pair := rfl
@[simp] theorem Chip.wrPair_targets (ix sub : Nat) (p : TimePair) : (c.wrPair ix sub p).targets = c.targets := rfl
@[simp] theorem Chip.wrPair_meas (ix sub : Nat) (p : TimePair) : (c.wrPair ix sub p).meas = c.meas := rfl
@[simp] theorem Chip.wrPair_field (ix sub : Nat) (p : TimePair) : (c.wrPair ix sub p).field = c.field := rfl
@[simp] theorem Chip.wrPair_net (ix sub : Nat) (p : TimePair) : (c.wrPair ix sub p).net = c.net := rfl
@[simp] theorem Chip.wrPair_dict (ix sub : Nat) (p : TimePair) : (c.wrPair ix sub p).dict = c.dict := rfl
@[simp] theorem Chip.wrPair_store (ix sub : Nat) (p : TimePair) : (c.wrPair ix sub p).store = c.store := rfl
@[simp] theorem Chip.wrPair_ident (ix sub : Nat) (p : TimePair) : (c.wrPair ix sub p).ident = c.ident := rfl
@[simp] theorem Chip.wrPair_recd (ix sub : Nat) (p : TimePair) : (c.wrPair ix sub p).recd = c.recd := rfl
@[simp] theorem Chip.wrPair_die (ix sub : Nat) (p : TimePair) : (c.wrPair ix sub p).die = c.die := rfl
@[simp] theorem Chip.wrPair_cal (ix sub : Nat) (p : TimePair) : (c.wrPair ix sub p).cal = c.cal := rfl
@[simp] theorem Chip.wrPair_campRecs (ix sub : Nat) (p : TimePair) : (c.wrPair ix sub p).campRecs = c.campRecs := rfl
@[simp] theorem Chip.wrPair_wd (ix sub : Nat) (p : TimePair) : (c.wrPair ix sub p).wd = c.wd := rfl
@[simp] theorem Chip.wrPair_panel (ix sub : Nat) (p : TimePair) : (c.wrPair ix sub p).panel = c.panel := rfl
@[simp] theorem Chip.wrPair_power (ix sub : Nat) (p : TimePair) : (c.wrPair ix sub p).power = c.power := rfl

/-! `modWork` -/

@[simp] theorem Chip.modWork_now (e : Nat) (f : Work → Work) : (c.modWork e f).now = c.now := rfl
@[simp] theorem Chip.modWork_free (e : Nat) (f : Work → Work) : (c.modWork e f).free = c.free := rfl
@[simp] theorem Chip.modWork_regs (e : Nat) (f : Work → Work) : (c.modWork e f).regs = c.regs := rfl
@[simp] theorem Chip.modWork_dbank (e : Nat) (f : Work → Work) : (c.modWork e f).dbank = c.dbank := rfl
@[simp] theorem Chip.modWork_ibank (e : Nat) (f : Work → Work) : (c.modWork e f).ibank = c.ibank := rfl
@[simp] theorem Chip.modWork_cls (e : Nat) (f : Work → Work) : (c.modWork e f).cls = c.cls := rfl
@[simp] theorem Chip.modWork_regions (e : Nat) (f : Work → Work) : (c.modWork e f).regions = c.regions := rfl
@[simp] theorem Chip.modWork_crossing (e : Nat) (f : Work → Work) : (c.modWork e f).crossing = c.crossing := rfl
@[simp] theorem Chip.modWork_evFlight (e : Nat) (f : Work → Work) : (c.modWork e f).evFlight = c.evFlight := rfl
@[simp] theorem Chip.modWork_pair (e : Nat) (f : Work → Work) : (c.modWork e f).pair = c.pair := rfl
@[simp] theorem Chip.modWork_targets (e : Nat) (f : Work → Work) : (c.modWork e f).targets = c.targets := rfl
@[simp] theorem Chip.modWork_meas (e : Nat) (f : Work → Work) : (c.modWork e f).meas = c.meas := rfl
@[simp] theorem Chip.modWork_field (e : Nat) (f : Work → Work) : (c.modWork e f).field = c.field := rfl
@[simp] theorem Chip.modWork_net (e : Nat) (f : Work → Work) : (c.modWork e f).net = c.net := rfl
@[simp] theorem Chip.modWork_dict (e : Nat) (f : Work → Work) : (c.modWork e f).dict = c.dict := rfl
@[simp] theorem Chip.modWork_store (e : Nat) (f : Work → Work) : (c.modWork e f).store = c.store := rfl
@[simp] theorem Chip.modWork_ident (e : Nat) (f : Work → Work) : (c.modWork e f).ident = c.ident := rfl
@[simp] theorem Chip.modWork_recd (e : Nat) (f : Work → Work) : (c.modWork e f).recd = c.recd := rfl
@[simp] theorem Chip.modWork_die (e : Nat) (f : Work → Work) : (c.modWork e f).die = c.die := rfl
@[simp] theorem Chip.modWork_cal (e : Nat) (f : Work → Work) : (c.modWork e f).cal = c.cal := rfl
@[simp] theorem Chip.modWork_campRecs (e : Nat) (f : Work → Work) : (c.modWork e f).campRecs = c.campRecs := rfl
@[simp] theorem Chip.modWork_wd (e : Nat) (f : Work → Work) : (c.modWork e f).wd = c.wd := rfl
@[simp] theorem Chip.modWork_panel (e : Nat) (f : Work → Work) : (c.modWork e f).panel = c.panel := rfl
@[simp] theorem Chip.modWork_power (e : Nat) (f : Work → Work) : (c.modWork e f).power = c.power := rfl
@[simp] theorem Chip.modWork_rd (e : Nat) (f : Work → Work) (ix sub : Nat) : (c.modWork e f).rd ix sub = c.rd ix sub := rfl
@[simp] theorem Chip.modWork_rdw (e : Nat) (f : Work → Work) (ix sub : Nat) : (c.modWork e f).rdw ix sub = c.rdw ix sub := rfl

/-! `modDbank` -/

@[simp] theorem Chip.modDbank_now (e : Nat) (f : WMem → WMem) : (c.modDbank e f).now = c.now := rfl
@[simp] theorem Chip.modDbank_free (e : Nat) (f : WMem → WMem) : (c.modDbank e f).free = c.free := rfl
@[simp] theorem Chip.modDbank_regs (e : Nat) (f : WMem → WMem) : (c.modDbank e f).regs = c.regs := rfl
@[simp] theorem Chip.modDbank_works (e : Nat) (f : WMem → WMem) : (c.modDbank e f).works = c.works := rfl
@[simp] theorem Chip.modDbank_ibank (e : Nat) (f : WMem → WMem) : (c.modDbank e f).ibank = c.ibank := rfl
@[simp] theorem Chip.modDbank_cls (e : Nat) (f : WMem → WMem) : (c.modDbank e f).cls = c.cls := rfl
@[simp] theorem Chip.modDbank_regions (e : Nat) (f : WMem → WMem) : (c.modDbank e f).regions = c.regions := rfl
@[simp] theorem Chip.modDbank_crossing (e : Nat) (f : WMem → WMem) : (c.modDbank e f).crossing = c.crossing := rfl
@[simp] theorem Chip.modDbank_evFlight (e : Nat) (f : WMem → WMem) : (c.modDbank e f).evFlight = c.evFlight := rfl
@[simp] theorem Chip.modDbank_pair (e : Nat) (f : WMem → WMem) : (c.modDbank e f).pair = c.pair := rfl
@[simp] theorem Chip.modDbank_targets (e : Nat) (f : WMem → WMem) : (c.modDbank e f).targets = c.targets := rfl
@[simp] theorem Chip.modDbank_meas (e : Nat) (f : WMem → WMem) : (c.modDbank e f).meas = c.meas := rfl
@[simp] theorem Chip.modDbank_field (e : Nat) (f : WMem → WMem) : (c.modDbank e f).field = c.field := rfl
@[simp] theorem Chip.modDbank_net (e : Nat) (f : WMem → WMem) : (c.modDbank e f).net = c.net := rfl
@[simp] theorem Chip.modDbank_dict (e : Nat) (f : WMem → WMem) : (c.modDbank e f).dict = c.dict := rfl
@[simp] theorem Chip.modDbank_store (e : Nat) (f : WMem → WMem) : (c.modDbank e f).store = c.store := rfl
@[simp] theorem Chip.modDbank_ident (e : Nat) (f : WMem → WMem) : (c.modDbank e f).ident = c.ident := rfl
@[simp] theorem Chip.modDbank_recd (e : Nat) (f : WMem → WMem) : (c.modDbank e f).recd = c.recd := rfl
@[simp] theorem Chip.modDbank_die (e : Nat) (f : WMem → WMem) : (c.modDbank e f).die = c.die := rfl
@[simp] theorem Chip.modDbank_cal (e : Nat) (f : WMem → WMem) : (c.modDbank e f).cal = c.cal := rfl
@[simp] theorem Chip.modDbank_campRecs (e : Nat) (f : WMem → WMem) : (c.modDbank e f).campRecs = c.campRecs := rfl
@[simp] theorem Chip.modDbank_wd (e : Nat) (f : WMem → WMem) : (c.modDbank e f).wd = c.wd := rfl
@[simp] theorem Chip.modDbank_panel (e : Nat) (f : WMem → WMem) : (c.modDbank e f).panel = c.panel := rfl
@[simp] theorem Chip.modDbank_power (e : Nat) (f : WMem → WMem) : (c.modDbank e f).power = c.power := rfl
@[simp] theorem Chip.modDbank_rd (e : Nat) (f : WMem → WMem) (ix sub : Nat) : (c.modDbank e f).rd ix sub = c.rd ix sub := rfl
@[simp] theorem Chip.modDbank_rdw (e : Nat) (f : WMem → WMem) (ix sub : Nat) : (c.modDbank e f).rdw ix sub = c.rdw ix sub := rfl

/-! `modIbank` -/

@[simp] theorem Chip.modIbank_now (e : Nat) (f : NMem → NMem) : (c.modIbank e f).now = c.now := rfl
@[simp] theorem Chip.modIbank_free (e : Nat) (f : NMem → NMem) : (c.modIbank e f).free = c.free := rfl
@[simp] theorem Chip.modIbank_regs (e : Nat) (f : NMem → NMem) : (c.modIbank e f).regs = c.regs := rfl
@[simp] theorem Chip.modIbank_works (e : Nat) (f : NMem → NMem) : (c.modIbank e f).works = c.works := rfl
@[simp] theorem Chip.modIbank_dbank (e : Nat) (f : NMem → NMem) : (c.modIbank e f).dbank = c.dbank := rfl
@[simp] theorem Chip.modIbank_cls (e : Nat) (f : NMem → NMem) : (c.modIbank e f).cls = c.cls := rfl
@[simp] theorem Chip.modIbank_regions (e : Nat) (f : NMem → NMem) : (c.modIbank e f).regions = c.regions := rfl
@[simp] theorem Chip.modIbank_crossing (e : Nat) (f : NMem → NMem) : (c.modIbank e f).crossing = c.crossing := rfl
@[simp] theorem Chip.modIbank_evFlight (e : Nat) (f : NMem → NMem) : (c.modIbank e f).evFlight = c.evFlight := rfl
@[simp] theorem Chip.modIbank_pair (e : Nat) (f : NMem → NMem) : (c.modIbank e f).pair = c.pair := rfl
@[simp] theorem Chip.modIbank_targets (e : Nat) (f : NMem → NMem) : (c.modIbank e f).targets = c.targets := rfl
@[simp] theorem Chip.modIbank_meas (e : Nat) (f : NMem → NMem) : (c.modIbank e f).meas = c.meas := rfl
@[simp] theorem Chip.modIbank_field (e : Nat) (f : NMem → NMem) : (c.modIbank e f).field = c.field := rfl
@[simp] theorem Chip.modIbank_net (e : Nat) (f : NMem → NMem) : (c.modIbank e f).net = c.net := rfl
@[simp] theorem Chip.modIbank_dict (e : Nat) (f : NMem → NMem) : (c.modIbank e f).dict = c.dict := rfl
@[simp] theorem Chip.modIbank_store (e : Nat) (f : NMem → NMem) : (c.modIbank e f).store = c.store := rfl
@[simp] theorem Chip.modIbank_ident (e : Nat) (f : NMem → NMem) : (c.modIbank e f).ident = c.ident := rfl
@[simp] theorem Chip.modIbank_recd (e : Nat) (f : NMem → NMem) : (c.modIbank e f).recd = c.recd := rfl
@[simp] theorem Chip.modIbank_die (e : Nat) (f : NMem → NMem) : (c.modIbank e f).die = c.die := rfl
@[simp] theorem Chip.modIbank_cal (e : Nat) (f : NMem → NMem) : (c.modIbank e f).cal = c.cal := rfl
@[simp] theorem Chip.modIbank_campRecs (e : Nat) (f : NMem → NMem) : (c.modIbank e f).campRecs = c.campRecs := rfl
@[simp] theorem Chip.modIbank_wd (e : Nat) (f : NMem → NMem) : (c.modIbank e f).wd = c.wd := rfl
@[simp] theorem Chip.modIbank_panel (e : Nat) (f : NMem → NMem) : (c.modIbank e f).panel = c.panel := rfl
@[simp] theorem Chip.modIbank_power (e : Nat) (f : NMem → NMem) : (c.modIbank e f).power = c.power := rfl
@[simp] theorem Chip.modIbank_rd (e : Nat) (f : NMem → NMem) (ix sub : Nat) : (c.modIbank e f).rd ix sub = c.rd ix sub := rfl
@[simp] theorem Chip.modIbank_rdw (e : Nat) (f : NMem → NMem) (ix sub : Nat) : (c.modIbank e f).rdw ix sub = c.rdw ix sub := rfl

/-! `modCl` -/

@[simp] theorem Chip.modCl_now (n : Nat) (f : Cls → Cls) : (c.modCl n f).now = c.now := rfl
@[simp] theorem Chip.modCl_free (n : Nat) (f : Cls → Cls) : (c.modCl n f).free = c.free := rfl
@[simp] theorem Chip.modCl_regs (n : Nat) (f : Cls → Cls) : (c.modCl n f).regs = c.regs := rfl
@[simp] theorem Chip.modCl_works (n : Nat) (f : Cls → Cls) : (c.modCl n f).works = c.works := rfl
@[simp] theorem Chip.modCl_dbank (n : Nat) (f : Cls → Cls) : (c.modCl n f).dbank = c.dbank := rfl
@[simp] theorem Chip.modCl_ibank (n : Nat) (f : Cls → Cls) : (c.modCl n f).ibank = c.ibank := rfl
@[simp] theorem Chip.modCl_regions (n : Nat) (f : Cls → Cls) : (c.modCl n f).regions = c.regions := rfl
@[simp] theorem Chip.modCl_crossing (n : Nat) (f : Cls → Cls) : (c.modCl n f).crossing = c.crossing := rfl
@[simp] theorem Chip.modCl_evFlight (n : Nat) (f : Cls → Cls) : (c.modCl n f).evFlight = c.evFlight := rfl
@[simp] theorem Chip.modCl_pair (n : Nat) (f : Cls → Cls) : (c.modCl n f).pair = c.pair := rfl
@[simp] theorem Chip.modCl_targets (n : Nat) (f : Cls → Cls) : (c.modCl n f).targets = c.targets := rfl
@[simp] theorem Chip.modCl_meas (n : Nat) (f : Cls → Cls) : (c.modCl n f).meas = c.meas := rfl
@[simp] theorem Chip.modCl_field (n : Nat) (f : Cls → Cls) : (c.modCl n f).field = c.field := rfl
@[simp] theorem Chip.modCl_net (n : Nat) (f : Cls → Cls) : (c.modCl n f).net = c.net := rfl
@[simp] theorem Chip.modCl_dict (n : Nat) (f : Cls → Cls) : (c.modCl n f).dict = c.dict := rfl
@[simp] theorem Chip.modCl_store (n : Nat) (f : Cls → Cls) : (c.modCl n f).store = c.store := rfl
@[simp] theorem Chip.modCl_ident (n : Nat) (f : Cls → Cls) : (c.modCl n f).ident = c.ident := rfl
@[simp] theorem Chip.modCl_recd (n : Nat) (f : Cls → Cls) : (c.modCl n f).recd = c.recd := rfl
@[simp] theorem Chip.modCl_die (n : Nat) (f : Cls → Cls) : (c.modCl n f).die = c.die := rfl
@[simp] theorem Chip.modCl_cal (n : Nat) (f : Cls → Cls) : (c.modCl n f).cal = c.cal := rfl
@[simp] theorem Chip.modCl_campRecs (n : Nat) (f : Cls → Cls) : (c.modCl n f).campRecs = c.campRecs := rfl
@[simp] theorem Chip.modCl_wd (n : Nat) (f : Cls → Cls) : (c.modCl n f).wd = c.wd := rfl
@[simp] theorem Chip.modCl_panel (n : Nat) (f : Cls → Cls) : (c.modCl n f).panel = c.panel := rfl
@[simp] theorem Chip.modCl_power (n : Nat) (f : Cls → Cls) : (c.modCl n f).power = c.power := rfl
@[simp] theorem Chip.modCl_rd (n : Nat) (f : Cls → Cls) (ix sub : Nat) : (c.modCl n f).rd ix sub = c.rd ix sub := rfl
@[simp] theorem Chip.modCl_rdw (n : Nat) (f : Cls → Cls) (ix sub : Nat) : (c.modCl n f).rdw ix sub = c.rdw ix sub := rfl

/-! `modRegion` -/

@[simp] theorem Chip.modRegion_now (r : Nat) (f : Region → Region) : (c.modRegion r f).now = c.now := rfl
@[simp] theorem Chip.modRegion_free (r : Nat) (f : Region → Region) : (c.modRegion r f).free = c.free := rfl
@[simp] theorem Chip.modRegion_regs (r : Nat) (f : Region → Region) : (c.modRegion r f).regs = c.regs := rfl
@[simp] theorem Chip.modRegion_works (r : Nat) (f : Region → Region) : (c.modRegion r f).works = c.works := rfl
@[simp] theorem Chip.modRegion_dbank (r : Nat) (f : Region → Region) : (c.modRegion r f).dbank = c.dbank := rfl
@[simp] theorem Chip.modRegion_ibank (r : Nat) (f : Region → Region) : (c.modRegion r f).ibank = c.ibank := rfl
@[simp] theorem Chip.modRegion_cls (r : Nat) (f : Region → Region) : (c.modRegion r f).cls = c.cls := rfl
@[simp] theorem Chip.modRegion_crossing (r : Nat) (f : Region → Region) : (c.modRegion r f).crossing = c.crossing := rfl
@[simp] theorem Chip.modRegion_evFlight (r : Nat) (f : Region → Region) : (c.modRegion r f).evFlight = c.evFlight := rfl
@[simp] theorem Chip.modRegion_pair (r : Nat) (f : Region → Region) : (c.modRegion r f).pair = c.pair := rfl
@[simp] theorem Chip.modRegion_targets (r : Nat) (f : Region → Region) : (c.modRegion r f).targets = c.targets := rfl
@[simp] theorem Chip.modRegion_meas (r : Nat) (f : Region → Region) : (c.modRegion r f).meas = c.meas := rfl
@[simp] theorem Chip.modRegion_field (r : Nat) (f : Region → Region) : (c.modRegion r f).field = c.field := rfl
@[simp] theorem Chip.modRegion_net (r : Nat) (f : Region → Region) : (c.modRegion r f).net = c.net := rfl
@[simp] theorem Chip.modRegion_dict (r : Nat) (f : Region → Region) : (c.modRegion r f).dict = c.dict := rfl
@[simp] theorem Chip.modRegion_store (r : Nat) (f : Region → Region) : (c.modRegion r f).store = c.store := rfl
@[simp] theorem Chip.modRegion_ident (r : Nat) (f : Region → Region) : (c.modRegion r f).ident = c.ident := rfl
@[simp] theorem Chip.modRegion_recd (r : Nat) (f : Region → Region) : (c.modRegion r f).recd = c.recd := rfl
@[simp] theorem Chip.modRegion_die (r : Nat) (f : Region → Region) : (c.modRegion r f).die = c.die := rfl
@[simp] theorem Chip.modRegion_cal (r : Nat) (f : Region → Region) : (c.modRegion r f).cal = c.cal := rfl
@[simp] theorem Chip.modRegion_campRecs (r : Nat) (f : Region → Region) : (c.modRegion r f).campRecs = c.campRecs := rfl
@[simp] theorem Chip.modRegion_wd (r : Nat) (f : Region → Region) : (c.modRegion r f).wd = c.wd := rfl
@[simp] theorem Chip.modRegion_panel (r : Nat) (f : Region → Region) : (c.modRegion r f).panel = c.panel := rfl
@[simp] theorem Chip.modRegion_power (r : Nat) (f : Region → Region) : (c.modRegion r f).power = c.power := rfl
@[simp] theorem Chip.modRegion_rd (r : Nat) (f : Region → Region) (ix sub : Nat) : (c.modRegion r f).rd ix sub = c.rd ix sub := rfl
@[simp] theorem Chip.modRegion_rdw (r : Nat) (f : Region → Region) (ix sub : Nat) : (c.modRegion r f).rdw ix sub = c.rdw ix sub := rfl

/-! `modTarget` -/

@[simp] theorem Chip.modTarget_now (k : Nat) (f : Target' → Target') : (c.modTarget k f).now = c.now := rfl
@[simp] theorem Chip.modTarget_free (k : Nat) (f : Target' → Target') : (c.modTarget k f).free = c.free := rfl
@[simp] theorem Chip.modTarget_regs (k : Nat) (f : Target' → Target') : (c.modTarget k f).regs = c.regs := rfl
@[simp] theorem Chip.modTarget_works (k : Nat) (f : Target' → Target') : (c.modTarget k f).works = c.works := rfl
@[simp] theorem Chip.modTarget_dbank (k : Nat) (f : Target' → Target') : (c.modTarget k f).dbank = c.dbank := rfl
@[simp] theorem Chip.modTarget_ibank (k : Nat) (f : Target' → Target') : (c.modTarget k f).ibank = c.ibank := rfl
@[simp] theorem Chip.modTarget_cls (k : Nat) (f : Target' → Target') : (c.modTarget k f).cls = c.cls := rfl
@[simp] theorem Chip.modTarget_regions (k : Nat) (f : Target' → Target') : (c.modTarget k f).regions = c.regions := rfl
@[simp] theorem Chip.modTarget_crossing (k : Nat) (f : Target' → Target') : (c.modTarget k f).crossing = c.crossing := rfl
@[simp] theorem Chip.modTarget_evFlight (k : Nat) (f : Target' → Target') : (c.modTarget k f).evFlight = c.evFlight := rfl
@[simp] theorem Chip.modTarget_pair (k : Nat) (f : Target' → Target') : (c.modTarget k f).pair = c.pair := rfl
@[simp] theorem Chip.modTarget_meas (k : Nat) (f : Target' → Target') : (c.modTarget k f).meas = c.meas := rfl
@[simp] theorem Chip.modTarget_field (k : Nat) (f : Target' → Target') : (c.modTarget k f).field = c.field := rfl
@[simp] theorem Chip.modTarget_net (k : Nat) (f : Target' → Target') : (c.modTarget k f).net = c.net := rfl
@[simp] theorem Chip.modTarget_dict (k : Nat) (f : Target' → Target') : (c.modTarget k f).dict = c.dict := rfl
@[simp] theorem Chip.modTarget_store (k : Nat) (f : Target' → Target') : (c.modTarget k f).store = c.store := rfl
@[simp] theorem Chip.modTarget_ident (k : Nat) (f : Target' → Target') : (c.modTarget k f).ident = c.ident := rfl
@[simp] theorem Chip.modTarget_recd (k : Nat) (f : Target' → Target') : (c.modTarget k f).recd = c.recd := rfl
@[simp] theorem Chip.modTarget_die (k : Nat) (f : Target' → Target') : (c.modTarget k f).die = c.die := rfl
@[simp] theorem Chip.modTarget_cal (k : Nat) (f : Target' → Target') : (c.modTarget k f).cal = c.cal := rfl
@[simp] theorem Chip.modTarget_campRecs (k : Nat) (f : Target' → Target') : (c.modTarget k f).campRecs = c.campRecs := rfl
@[simp] theorem Chip.modTarget_wd (k : Nat) (f : Target' → Target') : (c.modTarget k f).wd = c.wd := rfl
@[simp] theorem Chip.modTarget_panel (k : Nat) (f : Target' → Target') : (c.modTarget k f).panel = c.panel := rfl
@[simp] theorem Chip.modTarget_power (k : Nat) (f : Target' → Target') : (c.modTarget k f).power = c.power := rfl
@[simp] theorem Chip.modTarget_rd (k : Nat) (f : Target' → Target') (ix sub : Nat) : (c.modTarget k f).rd ix sub = c.rd ix sub := rfl
@[simp] theorem Chip.modTarget_rdw (k : Nat) (f : Target' → Target') (ix sub : Nat) : (c.modTarget k f).rdw ix sub = c.rdw ix sub := rfl

/-! `modField` -/

@[simp] theorem Chip.modField_now (f : Field → Field) : (c.modField f).now = c.now := rfl
@[simp] theorem Chip.modField_free (f : Field → Field) : (c.modField f).free = c.free := rfl
@[simp] theorem Chip.modField_regs (f : Field → Field) : (c.modField f).regs = c.regs := rfl
@[simp] theorem Chip.modField_works (f : Field → Field) : (c.modField f).works = c.works := rfl
@[simp] theorem Chip.modField_dbank (f : Field → Field) : (c.modField f).dbank = c.dbank := rfl
@[simp] theorem Chip.modField_ibank (f : Field → Field) : (c.modField f).ibank = c.ibank := rfl
@[simp] theorem Chip.modField_cls (f : Field → Field) : (c.modField f).cls = c.cls := rfl
@[simp] theorem Chip.modField_regions (f : Field → Field) : (c.modField f).regions = c.regions := rfl
@[simp] theorem Chip.modField_crossing (f : Field → Field) : (c.modField f).crossing = c.crossing := rfl
@[simp] theorem Chip.modField_evFlight (f : Field → Field) : (c.modField f).evFlight = c.evFlight := rfl
@[simp] theorem Chip.modField_pair (f : Field → Field) : (c.modField f).pair = c.pair := rfl
@[simp] theorem Chip.modField_targets (f : Field → Field) : (c.modField f).targets = c.targets := rfl
@[simp] theorem Chip.modField_meas (f : Field → Field) : (c.modField f).meas = c.meas := rfl
@[simp] theorem Chip.modField_net (f : Field → Field) : (c.modField f).net = c.net := rfl
@[simp] theorem Chip.modField_dict (f : Field → Field) : (c.modField f).dict = c.dict := rfl
@[simp] theorem Chip.modField_store (f : Field → Field) : (c.modField f).store = c.store := rfl
@[simp] theorem Chip.modField_ident (f : Field → Field) : (c.modField f).ident = c.ident := rfl
@[simp] theorem Chip.modField_recd (f : Field → Field) : (c.modField f).recd = c.recd := rfl
@[simp] theorem Chip.modField_die (f : Field → Field) : (c.modField f).die = c.die := rfl
@[simp] theorem Chip.modField_cal (f : Field → Field) : (c.modField f).cal = c.cal := rfl
@[simp] theorem Chip.modField_campRecs (f : Field → Field) : (c.modField f).campRecs = c.campRecs := rfl
@[simp] theorem Chip.modField_wd (f : Field → Field) : (c.modField f).wd = c.wd := rfl
@[simp] theorem Chip.modField_panel (f : Field → Field) : (c.modField f).panel = c.panel := rfl
@[simp] theorem Chip.modField_power (f : Field → Field) : (c.modField f).power = c.power := rfl
@[simp] theorem Chip.modField_field (f : Field → Field) : (c.modField f).field = f c.field := rfl
@[simp] theorem Chip.modField_rd (f : Field → Field) (ix sub : Nat) : (c.modField f).rd ix sub = c.rd ix sub := rfl
@[simp] theorem Chip.modField_rdw (f : Field → Field) (ix sub : Nat) : (c.modField f).rdw ix sub = c.rdw ix sub := rfl

/-! `modPair` -/

@[simp] theorem Chip.modPair_now (f : Pair → Pair) : (c.modPair f).now = c.now := rfl
@[simp] theorem Chip.modPair_free (f : Pair → Pair) : (c.modPair f).free = c.free := rfl
@[simp] theorem Chip.modPair_regs (f : Pair → Pair) : (c.modPair f).regs = c.regs := rfl
@[simp] theorem Chip.modPair_works (f : Pair → Pair) : (c.modPair f).works = c.works := rfl
@[simp] theorem Chip.modPair_dbank (f : Pair → Pair) : (c.modPair f).dbank = c.dbank := rfl
@[simp] theorem Chip.modPair_ibank (f : Pair → Pair) : (c.modPair f).ibank = c.ibank := rfl
@[simp] theorem Chip.modPair_cls (f : Pair → Pair) : (c.modPair f).cls = c.cls := rfl
@[simp] theorem Chip.modPair_regions (f : Pair → Pair) : (c.modPair f).regions = c.regions := rfl
@[simp] theorem Chip.modPair_crossing (f : Pair → Pair) : (c.modPair f).crossing = c.crossing := rfl
@[simp] theorem Chip.modPair_evFlight (f : Pair → Pair) : (c.modPair f).evFlight = c.evFlight := rfl
@[simp] theorem Chip.modPair_targets (f : Pair → Pair) : (c.modPair f).targets = c.targets := rfl
@[simp] theorem Chip.modPair_meas (f : Pair → Pair) : (c.modPair f).meas = c.meas := rfl
@[simp] theorem Chip.modPair_field (f : Pair → Pair) : (c.modPair f).field = c.field := rfl
@[simp] theorem Chip.modPair_net (f : Pair → Pair) : (c.modPair f).net = c.net := rfl
@[simp] theorem Chip.modPair_dict (f : Pair → Pair) : (c.modPair f).dict = c.dict := rfl
@[simp] theorem Chip.modPair_store (f : Pair → Pair) : (c.modPair f).store = c.store := rfl
@[simp] theorem Chip.modPair_ident (f : Pair → Pair) : (c.modPair f).ident = c.ident := rfl
@[simp] theorem Chip.modPair_recd (f : Pair → Pair) : (c.modPair f).recd = c.recd := rfl
@[simp] theorem Chip.modPair_die (f : Pair → Pair) : (c.modPair f).die = c.die := rfl
@[simp] theorem Chip.modPair_cal (f : Pair → Pair) : (c.modPair f).cal = c.cal := rfl
@[simp] theorem Chip.modPair_campRecs (f : Pair → Pair) : (c.modPair f).campRecs = c.campRecs := rfl
@[simp] theorem Chip.modPair_wd (f : Pair → Pair) : (c.modPair f).wd = c.wd := rfl
@[simp] theorem Chip.modPair_panel (f : Pair → Pair) : (c.modPair f).panel = c.panel := rfl
@[simp] theorem Chip.modPair_power (f : Pair → Pair) : (c.modPair f).power = c.power := rfl
@[simp] theorem Chip.modPair_pair (f : Pair → Pair) : (c.modPair f).pair = f c.pair := rfl
@[simp] theorem Chip.modPair_rd (f : Pair → Pair) (ix sub : Nat) : (c.modPair f).rd ix sub = c.rd ix sub := rfl
@[simp] theorem Chip.modPair_rdw (f : Pair → Pair) (ix sub : Nat) : (c.modPair f).rdw ix sub = c.rdw ix sub := rfl

/-! `modMeas` -/

@[simp] theorem Chip.modMeas_now (f : Meas → Meas) : (c.modMeas f).now = c.now := rfl
@[simp] theorem Chip.modMeas_free (f : Meas → Meas) : (c.modMeas f).free = c.free := rfl
@[simp] theorem Chip.modMeas_regs (f : Meas → Meas) : (c.modMeas f).regs = c.regs := rfl
@[simp] theorem Chip.modMeas_works (f : Meas → Meas) : (c.modMeas f).works = c.works := rfl
@[simp] theorem Chip.modMeas_dbank (f : Meas → Meas) : (c.modMeas f).dbank = c.dbank := rfl
@[simp] theorem Chip.modMeas_ibank (f : Meas → Meas) : (c.modMeas f).ibank = c.ibank := rfl
@[simp] theorem Chip.modMeas_cls (f : Meas → Meas) : (c.modMeas f).cls = c.cls := rfl
@[simp] theorem Chip.modMeas_regions (f : Meas → Meas) : (c.modMeas f).regions = c.regions := rfl
@[simp] theorem Chip.modMeas_crossing (f : Meas → Meas) : (c.modMeas f).crossing = c.crossing := rfl
@[simp] theorem Chip.modMeas_evFlight (f : Meas → Meas) : (c.modMeas f).evFlight = c.evFlight := rfl
@[simp] theorem Chip.modMeas_pair (f : Meas → Meas) : (c.modMeas f).pair = c.pair := rfl
@[simp] theorem Chip.modMeas_targets (f : Meas → Meas) : (c.modMeas f).targets = c.targets := rfl
@[simp] theorem Chip.modMeas_field (f : Meas → Meas) : (c.modMeas f).field = c.field := rfl
@[simp] theorem Chip.modMeas_net (f : Meas → Meas) : (c.modMeas f).net = c.net := rfl
@[simp] theorem Chip.modMeas_dict (f : Meas → Meas) : (c.modMeas f).dict = c.dict := rfl
@[simp] theorem Chip.modMeas_store (f : Meas → Meas) : (c.modMeas f).store = c.store := rfl
@[simp] theorem Chip.modMeas_ident (f : Meas → Meas) : (c.modMeas f).ident = c.ident := rfl
@[simp] theorem Chip.modMeas_recd (f : Meas → Meas) : (c.modMeas f).recd = c.recd := rfl
@[simp] theorem Chip.modMeas_die (f : Meas → Meas) : (c.modMeas f).die = c.die := rfl
@[simp] theorem Chip.modMeas_cal (f : Meas → Meas) : (c.modMeas f).cal = c.cal := rfl
@[simp] theorem Chip.modMeas_campRecs (f : Meas → Meas) : (c.modMeas f).campRecs = c.campRecs := rfl
@[simp] theorem Chip.modMeas_wd (f : Meas → Meas) : (c.modMeas f).wd = c.wd := rfl
@[simp] theorem Chip.modMeas_panel (f : Meas → Meas) : (c.modMeas f).panel = c.panel := rfl
@[simp] theorem Chip.modMeas_power (f : Meas → Meas) : (c.modMeas f).power = c.power := rfl
@[simp] theorem Chip.modMeas_meas (f : Meas → Meas) : (c.modMeas f).meas = f c.meas := rfl
@[simp] theorem Chip.modMeas_rd (f : Meas → Meas) (ix sub : Nat) : (c.modMeas f).rd ix sub = c.rd ix sub := rfl
@[simp] theorem Chip.modMeas_rdw (f : Meas → Meas) (ix sub : Nat) : (c.modMeas f).rdw ix sub = c.rdw ix sub := rfl

/-! `modNet` -/

@[simp] theorem Chip.modNet_now (f : Net → Net) : (c.modNet f).now = c.now := rfl
@[simp] theorem Chip.modNet_free (f : Net → Net) : (c.modNet f).free = c.free := rfl
@[simp] theorem Chip.modNet_regs (f : Net → Net) : (c.modNet f).regs = c.regs := rfl
@[simp] theorem Chip.modNet_works (f : Net → Net) : (c.modNet f).works = c.works := rfl
@[simp] theorem Chip.modNet_dbank (f : Net → Net) : (c.modNet f).dbank = c.dbank := rfl
@[simp] theorem Chip.modNet_ibank (f : Net → Net) : (c.modNet f).ibank = c.ibank := rfl
@[simp] theorem Chip.modNet_cls (f : Net → Net) : (c.modNet f).cls = c.cls := rfl
@[simp] theorem Chip.modNet_regions (f : Net → Net) : (c.modNet f).regions = c.regions := rfl
@[simp] theorem Chip.modNet_crossing (f : Net → Net) : (c.modNet f).crossing = c.crossing := rfl
@[simp] theorem Chip.modNet_evFlight (f : Net → Net) : (c.modNet f).evFlight = c.evFlight := rfl
@[simp] theorem Chip.modNet_pair (f : Net → Net) : (c.modNet f).pair = c.pair := rfl
@[simp] theorem Chip.modNet_targets (f : Net → Net) : (c.modNet f).targets = c.targets := rfl
@[simp] theorem Chip.modNet_meas (f : Net → Net) : (c.modNet f).meas = c.meas := rfl
@[simp] theorem Chip.modNet_field (f : Net → Net) : (c.modNet f).field = c.field := rfl
@[simp] theorem Chip.modNet_dict (f : Net → Net) : (c.modNet f).dict = c.dict := rfl
@[simp] theorem Chip.modNet_store (f : Net → Net) : (c.modNet f).store = c.store := rfl
@[simp] theorem Chip.modNet_ident (f : Net → Net) : (c.modNet f).ident = c.ident := rfl
@[simp] theorem Chip.modNet_recd (f : Net → Net) : (c.modNet f).recd = c.recd := rfl
@[simp] theorem Chip.modNet_die (f : Net → Net) : (c.modNet f).die = c.die := rfl
@[simp] theorem Chip.modNet_cal (f : Net → Net) : (c.modNet f).cal = c.cal := rfl
@[simp] theorem Chip.modNet_campRecs (f : Net → Net) : (c.modNet f).campRecs = c.campRecs := rfl
@[simp] theorem Chip.modNet_wd (f : Net → Net) : (c.modNet f).wd = c.wd := rfl
@[simp] theorem Chip.modNet_panel (f : Net → Net) : (c.modNet f).panel = c.panel := rfl
@[simp] theorem Chip.modNet_power (f : Net → Net) : (c.modNet f).power = c.power := rfl
@[simp] theorem Chip.modNet_net (f : Net → Net) : (c.modNet f).net = f c.net := rfl
@[simp] theorem Chip.modNet_rd (f : Net → Net) (ix sub : Nat) : (c.modNet f).rd ix sub = c.rd ix sub := rfl
@[simp] theorem Chip.modNet_rdw (f : Net → Net) (ix sub : Nat) : (c.modNet f).rdw ix sub = c.rdw ix sub := rfl

/-! `modDict` -/

@[simp] theorem Chip.modDict_now (f : Dict → Dict) : (c.modDict f).now = c.now := rfl
@[simp] theorem Chip.modDict_free (f : Dict → Dict) : (c.modDict f).free = c.free := rfl
@[simp] theorem Chip.modDict_regs (f : Dict → Dict) : (c.modDict f).regs = c.regs := rfl
@[simp] theorem Chip.modDict_works (f : Dict → Dict) : (c.modDict f).works = c.works := rfl
@[simp] theorem Chip.modDict_dbank (f : Dict → Dict) : (c.modDict f).dbank = c.dbank := rfl
@[simp] theorem Chip.modDict_ibank (f : Dict → Dict) : (c.modDict f).ibank = c.ibank := rfl
@[simp] theorem Chip.modDict_cls (f : Dict → Dict) : (c.modDict f).cls = c.cls := rfl
@[simp] theorem Chip.modDict_regions (f : Dict → Dict) : (c.modDict f).regions = c.regions := rfl
@[simp] theorem Chip.modDict_crossing (f : Dict → Dict) : (c.modDict f).crossing = c.crossing := rfl
@[simp] theorem Chip.modDict_evFlight (f : Dict → Dict) : (c.modDict f).evFlight = c.evFlight := rfl
@[simp] theorem Chip.modDict_pair (f : Dict → Dict) : (c.modDict f).pair = c.pair := rfl
@[simp] theorem Chip.modDict_targets (f : Dict → Dict) : (c.modDict f).targets = c.targets := rfl
@[simp] theorem Chip.modDict_meas (f : Dict → Dict) : (c.modDict f).meas = c.meas := rfl
@[simp] theorem Chip.modDict_field (f : Dict → Dict) : (c.modDict f).field = c.field := rfl
@[simp] theorem Chip.modDict_net (f : Dict → Dict) : (c.modDict f).net = c.net := rfl
@[simp] theorem Chip.modDict_store (f : Dict → Dict) : (c.modDict f).store = c.store := rfl
@[simp] theorem Chip.modDict_ident (f : Dict → Dict) : (c.modDict f).ident = c.ident := rfl
@[simp] theorem Chip.modDict_recd (f : Dict → Dict) : (c.modDict f).recd = c.recd := rfl
@[simp] theorem Chip.modDict_die (f : Dict → Dict) : (c.modDict f).die = c.die := rfl
@[simp] theorem Chip.modDict_cal (f : Dict → Dict) : (c.modDict f).cal = c.cal := rfl
@[simp] theorem Chip.modDict_campRecs (f : Dict → Dict) : (c.modDict f).campRecs = c.campRecs := rfl
@[simp] theorem Chip.modDict_wd (f : Dict → Dict) : (c.modDict f).wd = c.wd := rfl
@[simp] theorem Chip.modDict_panel (f : Dict → Dict) : (c.modDict f).panel = c.panel := rfl
@[simp] theorem Chip.modDict_power (f : Dict → Dict) : (c.modDict f).power = c.power := rfl
@[simp] theorem Chip.modDict_dict (f : Dict → Dict) : (c.modDict f).dict = f c.dict := rfl
@[simp] theorem Chip.modDict_rd (f : Dict → Dict) (ix sub : Nat) : (c.modDict f).rd ix sub = c.rd ix sub := rfl
@[simp] theorem Chip.modDict_rdw (f : Dict → Dict) (ix sub : Nat) : (c.modDict f).rdw ix sub = c.rdw ix sub := rfl

/-! `modStore` -/

@[simp] theorem Chip.modStore_now (f : Store → Store) : (c.modStore f).now = c.now := rfl
@[simp] theorem Chip.modStore_free (f : Store → Store) : (c.modStore f).free = c.free := rfl
@[simp] theorem Chip.modStore_regs (f : Store → Store) : (c.modStore f).regs = c.regs := rfl
@[simp] theorem Chip.modStore_works (f : Store → Store) : (c.modStore f).works = c.works := rfl
@[simp] theorem Chip.modStore_dbank (f : Store → Store) : (c.modStore f).dbank = c.dbank := rfl
@[simp] theorem Chip.modStore_ibank (f : Store → Store) : (c.modStore f).ibank = c.ibank := rfl
@[simp] theorem Chip.modStore_cls (f : Store → Store) : (c.modStore f).cls = c.cls := rfl
@[simp] theorem Chip.modStore_regions (f : Store → Store) : (c.modStore f).regions = c.regions := rfl
@[simp] theorem Chip.modStore_crossing (f : Store → Store) : (c.modStore f).crossing = c.crossing := rfl
@[simp] theorem Chip.modStore_evFlight (f : Store → Store) : (c.modStore f).evFlight = c.evFlight := rfl
@[simp] theorem Chip.modStore_pair (f : Store → Store) : (c.modStore f).pair = c.pair := rfl
@[simp] theorem Chip.modStore_targets (f : Store → Store) : (c.modStore f).targets = c.targets := rfl
@[simp] theorem Chip.modStore_meas (f : Store → Store) : (c.modStore f).meas = c.meas := rfl
@[simp] theorem Chip.modStore_field (f : Store → Store) : (c.modStore f).field = c.field := rfl
@[simp] theorem Chip.modStore_net (f : Store → Store) : (c.modStore f).net = c.net := rfl
@[simp] theorem Chip.modStore_dict (f : Store → Store) : (c.modStore f).dict = c.dict := rfl
@[simp] theorem Chip.modStore_ident (f : Store → Store) : (c.modStore f).ident = c.ident := rfl
@[simp] theorem Chip.modStore_recd (f : Store → Store) : (c.modStore f).recd = c.recd := rfl
@[simp] theorem Chip.modStore_die (f : Store → Store) : (c.modStore f).die = c.die := rfl
@[simp] theorem Chip.modStore_cal (f : Store → Store) : (c.modStore f).cal = c.cal := rfl
@[simp] theorem Chip.modStore_campRecs (f : Store → Store) : (c.modStore f).campRecs = c.campRecs := rfl
@[simp] theorem Chip.modStore_wd (f : Store → Store) : (c.modStore f).wd = c.wd := rfl
@[simp] theorem Chip.modStore_panel (f : Store → Store) : (c.modStore f).panel = c.panel := rfl
@[simp] theorem Chip.modStore_power (f : Store → Store) : (c.modStore f).power = c.power := rfl
@[simp] theorem Chip.modStore_store (f : Store → Store) : (c.modStore f).store = f c.store := rfl
@[simp] theorem Chip.modStore_rd (f : Store → Store) (ix sub : Nat) : (c.modStore f).rd ix sub = c.rd ix sub := rfl
@[simp] theorem Chip.modStore_rdw (f : Store → Store) (ix sub : Nat) : (c.modStore f).rdw ix sub = c.rdw ix sub := rfl

/-! `modIdent` -/

@[simp] theorem Chip.modIdent_now (f : Store → Store) : (c.modIdent f).now = c.now := rfl
@[simp] theorem Chip.modIdent_free (f : Store → Store) : (c.modIdent f).free = c.free := rfl
@[simp] theorem Chip.modIdent_regs (f : Store → Store) : (c.modIdent f).regs = c.regs := rfl
@[simp] theorem Chip.modIdent_works (f : Store → Store) : (c.modIdent f).works = c.works := rfl
@[simp] theorem Chip.modIdent_dbank (f : Store → Store) : (c.modIdent f).dbank = c.dbank := rfl
@[simp] theorem Chip.modIdent_ibank (f : Store → Store) : (c.modIdent f).ibank = c.ibank := rfl
@[simp] theorem Chip.modIdent_cls (f : Store → Store) : (c.modIdent f).cls = c.cls := rfl
@[simp] theorem Chip.modIdent_regions (f : Store → Store) : (c.modIdent f).regions = c.regions := rfl
@[simp] theorem Chip.modIdent_crossing (f : Store → Store) : (c.modIdent f).crossing = c.crossing := rfl
@[simp] theorem Chip.modIdent_evFlight (f : Store → Store) : (c.modIdent f).evFlight = c.evFlight := rfl
@[simp] theorem Chip.modIdent_pair (f : Store → Store) : (c.modIdent f).pair = c.pair := rfl
@[simp] theorem Chip.modIdent_targets (f : Store → Store) : (c.modIdent f).targets = c.targets := rfl
@[simp] theorem Chip.modIdent_meas (f : Store → Store) : (c.modIdent f).meas = c.meas := rfl
@[simp] theorem Chip.modIdent_field (f : Store → Store) : (c.modIdent f).field = c.field := rfl
@[simp] theorem Chip.modIdent_net (f : Store → Store) : (c.modIdent f).net = c.net := rfl
@[simp] theorem Chip.modIdent_dict (f : Store → Store) : (c.modIdent f).dict = c.dict := rfl
@[simp] theorem Chip.modIdent_store (f : Store → Store) : (c.modIdent f).store = c.store := rfl
@[simp] theorem Chip.modIdent_recd (f : Store → Store) : (c.modIdent f).recd = c.recd := rfl
@[simp] theorem Chip.modIdent_die (f : Store → Store) : (c.modIdent f).die = c.die := rfl
@[simp] theorem Chip.modIdent_cal (f : Store → Store) : (c.modIdent f).cal = c.cal := rfl
@[simp] theorem Chip.modIdent_campRecs (f : Store → Store) : (c.modIdent f).campRecs = c.campRecs := rfl
@[simp] theorem Chip.modIdent_wd (f : Store → Store) : (c.modIdent f).wd = c.wd := rfl
@[simp] theorem Chip.modIdent_panel (f : Store → Store) : (c.modIdent f).panel = c.panel := rfl
@[simp] theorem Chip.modIdent_power (f : Store → Store) : (c.modIdent f).power = c.power := rfl
@[simp] theorem Chip.modIdent_ident (f : Store → Store) : (c.modIdent f).ident = f c.ident := rfl
@[simp] theorem Chip.modIdent_rd (f : Store → Store) (ix sub : Nat) : (c.modIdent f).rd ix sub = c.rd ix sub := rfl
@[simp] theorem Chip.modIdent_rdw (f : Store → Store) (ix sub : Nat) : (c.modIdent f).rdw ix sub = c.rdw ix sub := rfl

/-! `modDie` -/

@[simp] theorem Chip.modDie_now (f : FlashDie → FlashDie) : (c.modDie f).now = c.now := rfl
@[simp] theorem Chip.modDie_free (f : FlashDie → FlashDie) : (c.modDie f).free = c.free := rfl
@[simp] theorem Chip.modDie_regs (f : FlashDie → FlashDie) : (c.modDie f).regs = c.regs := rfl
@[simp] theorem Chip.modDie_works (f : FlashDie → FlashDie) : (c.modDie f).works = c.works := rfl
@[simp] theorem Chip.modDie_dbank (f : FlashDie → FlashDie) : (c.modDie f).dbank = c.dbank := rfl
@[simp] theorem Chip.modDie_ibank (f : FlashDie → FlashDie) : (c.modDie f).ibank = c.ibank := rfl
@[simp] theorem Chip.modDie_cls (f : FlashDie → FlashDie) : (c.modDie f).cls = c.cls := rfl
@[simp] theorem Chip.modDie_regions (f : FlashDie → FlashDie) : (c.modDie f).regions = c.regions := rfl
@[simp] theorem Chip.modDie_crossing (f : FlashDie → FlashDie) : (c.modDie f).crossing = c.crossing := rfl
@[simp] theorem Chip.modDie_evFlight (f : FlashDie → FlashDie) : (c.modDie f).evFlight = c.evFlight := rfl
@[simp] theorem Chip.modDie_pair (f : FlashDie → FlashDie) : (c.modDie f).pair = c.pair := rfl
@[simp] theorem Chip.modDie_targets (f : FlashDie → FlashDie) : (c.modDie f).targets = c.targets := rfl
@[simp] theorem Chip.modDie_meas (f : FlashDie → FlashDie) : (c.modDie f).meas = c.meas := rfl
@[simp] theorem Chip.modDie_field (f : FlashDie → FlashDie) : (c.modDie f).field = c.field := rfl
@[simp] theorem Chip.modDie_net (f : FlashDie → FlashDie) : (c.modDie f).net = c.net := rfl
@[simp] theorem Chip.modDie_dict (f : FlashDie → FlashDie) : (c.modDie f).dict = c.dict := rfl
@[simp] theorem Chip.modDie_store (f : FlashDie → FlashDie) : (c.modDie f).store = c.store := rfl
@[simp] theorem Chip.modDie_ident (f : FlashDie → FlashDie) : (c.modDie f).ident = c.ident := rfl
@[simp] theorem Chip.modDie_recd (f : FlashDie → FlashDie) : (c.modDie f).recd = c.recd := rfl
@[simp] theorem Chip.modDie_cal (f : FlashDie → FlashDie) : (c.modDie f).cal = c.cal := rfl
@[simp] theorem Chip.modDie_campRecs (f : FlashDie → FlashDie) : (c.modDie f).campRecs = c.campRecs := rfl
@[simp] theorem Chip.modDie_wd (f : FlashDie → FlashDie) : (c.modDie f).wd = c.wd := rfl
@[simp] theorem Chip.modDie_panel (f : FlashDie → FlashDie) : (c.modDie f).panel = c.panel := rfl
@[simp] theorem Chip.modDie_power (f : FlashDie → FlashDie) : (c.modDie f).power = c.power := rfl
@[simp] theorem Chip.modDie_die (f : FlashDie → FlashDie) : (c.modDie f).die = f c.die := rfl
@[simp] theorem Chip.modDie_rd (f : FlashDie → FlashDie) (ix sub : Nat) : (c.modDie f).rd ix sub = c.rd ix sub := rfl
@[simp] theorem Chip.modDie_rdw (f : FlashDie → FlashDie) (ix sub : Nat) : (c.modDie f).rdw ix sub = c.rdw ix sub := rfl

/-! `modRec` -/

@[simp] theorem Chip.modRec_now (f : Recorder → Recorder) : (c.modRec f).now = c.now := rfl
@[simp] theorem Chip.modRec_free (f : Recorder → Recorder) : (c.modRec f).free = c.free := rfl
@[simp] theorem Chip.modRec_regs (f : Recorder → Recorder) : (c.modRec f).regs = c.regs := rfl
@[simp] theorem Chip.modRec_works (f : Recorder → Recorder) : (c.modRec f).works = c.works := rfl
@[simp] theorem Chip.modRec_dbank (f : Recorder → Recorder) : (c.modRec f).dbank = c.dbank := rfl
@[simp] theorem Chip.modRec_ibank (f : Recorder → Recorder) : (c.modRec f).ibank = c.ibank := rfl
@[simp] theorem Chip.modRec_cls (f : Recorder → Recorder) : (c.modRec f).cls = c.cls := rfl
@[simp] theorem Chip.modRec_regions (f : Recorder → Recorder) : (c.modRec f).regions = c.regions := rfl
@[simp] theorem Chip.modRec_crossing (f : Recorder → Recorder) : (c.modRec f).crossing = c.crossing := rfl
@[simp] theorem Chip.modRec_evFlight (f : Recorder → Recorder) : (c.modRec f).evFlight = c.evFlight := rfl
@[simp] theorem Chip.modRec_pair (f : Recorder → Recorder) : (c.modRec f).pair = c.pair := rfl
@[simp] theorem Chip.modRec_targets (f : Recorder → Recorder) : (c.modRec f).targets = c.targets := rfl
@[simp] theorem Chip.modRec_meas (f : Recorder → Recorder) : (c.modRec f).meas = c.meas := rfl
@[simp] theorem Chip.modRec_field (f : Recorder → Recorder) : (c.modRec f).field = c.field := rfl
@[simp] theorem Chip.modRec_net (f : Recorder → Recorder) : (c.modRec f).net = c.net := rfl
@[simp] theorem Chip.modRec_dict (f : Recorder → Recorder) : (c.modRec f).dict = c.dict := rfl
@[simp] theorem Chip.modRec_store (f : Recorder → Recorder) : (c.modRec f).store = c.store := rfl
@[simp] theorem Chip.modRec_ident (f : Recorder → Recorder) : (c.modRec f).ident = c.ident := rfl
@[simp] theorem Chip.modRec_die (f : Recorder → Recorder) : (c.modRec f).die = c.die := rfl
@[simp] theorem Chip.modRec_cal (f : Recorder → Recorder) : (c.modRec f).cal = c.cal := rfl
@[simp] theorem Chip.modRec_campRecs (f : Recorder → Recorder) : (c.modRec f).campRecs = c.campRecs := rfl
@[simp] theorem Chip.modRec_wd (f : Recorder → Recorder) : (c.modRec f).wd = c.wd := rfl
@[simp] theorem Chip.modRec_panel (f : Recorder → Recorder) : (c.modRec f).panel = c.panel := rfl
@[simp] theorem Chip.modRec_power (f : Recorder → Recorder) : (c.modRec f).power = c.power := rfl
@[simp] theorem Chip.modRec_recd (f : Recorder → Recorder) : (c.modRec f).recd = f c.recd := rfl
@[simp] theorem Chip.modRec_rd (f : Recorder → Recorder) (ix sub : Nat) : (c.modRec f).rd ix sub = c.rd ix sub := rfl
@[simp] theorem Chip.modRec_rdw (f : Recorder → Recorder) (ix sub : Nat) : (c.modRec f).rdw ix sub = c.rdw ix sub := rfl

/-! `modCal` -/

@[simp] theorem Chip.modCal_now (f : Calendar → Calendar) : (c.modCal f).now = c.now := rfl
@[simp] theorem Chip.modCal_free (f : Calendar → Calendar) : (c.modCal f).free = c.free := rfl
@[simp] theorem Chip.modCal_regs (f : Calendar → Calendar) : (c.modCal f).regs = c.regs := rfl
@[simp] theorem Chip.modCal_works (f : Calendar → Calendar) : (c.modCal f).works = c.works := rfl
@[simp] theorem Chip.modCal_dbank (f : Calendar → Calendar) : (c.modCal f).dbank = c.dbank := rfl
@[simp] theorem Chip.modCal_ibank (f : Calendar → Calendar) : (c.modCal f).ibank = c.ibank := rfl
@[simp] theorem Chip.modCal_cls (f : Calendar → Calendar) : (c.modCal f).cls = c.cls := rfl
@[simp] theorem Chip.modCal_regions (f : Calendar → Calendar) : (c.modCal f).regions = c.regions := rfl
@[simp] theorem Chip.modCal_crossing (f : Calendar → Calendar) : (c.modCal f).crossing = c.crossing := rfl
@[simp] theorem Chip.modCal_evFlight (f : Calendar → Calendar) : (c.modCal f).evFlight = c.evFlight := rfl
@[simp] theorem Chip.modCal_pair (f : Calendar → Calendar) : (c.modCal f).pair = c.pair := rfl
@[simp] theorem Chip.modCal_targets (f : Calendar → Calendar) : (c.modCal f).targets = c.targets := rfl
@[simp] theorem Chip.modCal_meas (f : Calendar → Calendar) : (c.modCal f).meas = c.meas := rfl
@[simp] theorem Chip.modCal_field (f : Calendar → Calendar) : (c.modCal f).field = c.field := rfl
@[simp] theorem Chip.modCal_net (f : Calendar → Calendar) : (c.modCal f).net = c.net := rfl
@[simp] theorem Chip.modCal_dict (f : Calendar → Calendar) : (c.modCal f).dict = c.dict := rfl
@[simp] theorem Chip.modCal_store (f : Calendar → Calendar) : (c.modCal f).store = c.store := rfl
@[simp] theorem Chip.modCal_ident (f : Calendar → Calendar) : (c.modCal f).ident = c.ident := rfl
@[simp] theorem Chip.modCal_recd (f : Calendar → Calendar) : (c.modCal f).recd = c.recd := rfl
@[simp] theorem Chip.modCal_die (f : Calendar → Calendar) : (c.modCal f).die = c.die := rfl
@[simp] theorem Chip.modCal_campRecs (f : Calendar → Calendar) : (c.modCal f).campRecs = c.campRecs := rfl
@[simp] theorem Chip.modCal_wd (f : Calendar → Calendar) : (c.modCal f).wd = c.wd := rfl
@[simp] theorem Chip.modCal_panel (f : Calendar → Calendar) : (c.modCal f).panel = c.panel := rfl
@[simp] theorem Chip.modCal_power (f : Calendar → Calendar) : (c.modCal f).power = c.power := rfl
@[simp] theorem Chip.modCal_cal (f : Calendar → Calendar) : (c.modCal f).cal = f c.cal := rfl
@[simp] theorem Chip.modCal_rd (f : Calendar → Calendar) (ix sub : Nat) : (c.modCal f).rd ix sub = c.rd ix sub := rfl
@[simp] theorem Chip.modCal_rdw (f : Calendar → Calendar) (ix sub : Nat) : (c.modCal f).rdw ix sub = c.rdw ix sub := rfl

/-! `modWd` -/

@[simp] theorem Chip.modWd_now (f : Watchdog → Watchdog) : (c.modWd f).now = c.now := rfl
@[simp] theorem Chip.modWd_free (f : Watchdog → Watchdog) : (c.modWd f).free = c.free := rfl
@[simp] theorem Chip.modWd_regs (f : Watchdog → Watchdog) : (c.modWd f).regs = c.regs := rfl
@[simp] theorem Chip.modWd_works (f : Watchdog → Watchdog) : (c.modWd f).works = c.works := rfl
@[simp] theorem Chip.modWd_dbank (f : Watchdog → Watchdog) : (c.modWd f).dbank = c.dbank := rfl
@[simp] theorem Chip.modWd_ibank (f : Watchdog → Watchdog) : (c.modWd f).ibank = c.ibank := rfl
@[simp] theorem Chip.modWd_cls (f : Watchdog → Watchdog) : (c.modWd f).cls = c.cls := rfl
@[simp] theorem Chip.modWd_regions (f : Watchdog → Watchdog) : (c.modWd f).regions = c.regions := rfl
@[simp] theorem Chip.modWd_crossing (f : Watchdog → Watchdog) : (c.modWd f).crossing = c.crossing := rfl
@[simp] theorem Chip.modWd_evFlight (f : Watchdog → Watchdog) : (c.modWd f).evFlight = c.evFlight := rfl
@[simp] theorem Chip.modWd_pair (f : Watchdog → Watchdog) : (c.modWd f).pair = c.pair := rfl
@[simp] theorem Chip.modWd_targets (f : Watchdog → Watchdog) : (c.modWd f).targets = c.targets := rfl
@[simp] theorem Chip.modWd_meas (f : Watchdog → Watchdog) : (c.modWd f).meas = c.meas := rfl
@[simp] theorem Chip.modWd_field (f : Watchdog → Watchdog) : (c.modWd f).field = c.field := rfl
@[simp] theorem Chip.modWd_net (f : Watchdog → Watchdog) : (c.modWd f).net = c.net := rfl
@[simp] theorem Chip.modWd_dict (f : Watchdog → Watchdog) : (c.modWd f).dict = c.dict := rfl
@[simp] theorem Chip.modWd_store (f : Watchdog → Watchdog) : (c.modWd f).store = c.store := rfl
@[simp] theorem Chip.modWd_ident (f : Watchdog → Watchdog) : (c.modWd f).ident = c.ident := rfl
@[simp] theorem Chip.modWd_recd (f : Watchdog → Watchdog) : (c.modWd f).recd = c.recd := rfl
@[simp] theorem Chip.modWd_die (f : Watchdog → Watchdog) : (c.modWd f).die = c.die := rfl
@[simp] theorem Chip.modWd_cal (f : Watchdog → Watchdog) : (c.modWd f).cal = c.cal := rfl
@[simp] theorem Chip.modWd_campRecs (f : Watchdog → Watchdog) : (c.modWd f).campRecs = c.campRecs := rfl
@[simp] theorem Chip.modWd_panel (f : Watchdog → Watchdog) : (c.modWd f).panel = c.panel := rfl
@[simp] theorem Chip.modWd_power (f : Watchdog → Watchdog) : (c.modWd f).power = c.power := rfl
@[simp] theorem Chip.modWd_wd (f : Watchdog → Watchdog) : (c.modWd f).wd = f c.wd := rfl
@[simp] theorem Chip.modWd_rd (f : Watchdog → Watchdog) (ix sub : Nat) : (c.modWd f).rd ix sub = c.rd ix sub := rfl
@[simp] theorem Chip.modWd_rdw (f : Watchdog → Watchdog) (ix sub : Nat) : (c.modWd f).rdw ix sub = c.rdw ix sub := rfl

/-! `modPanel` -/

@[simp] theorem Chip.modPanel_now (f : Panel → Panel) : (c.modPanel f).now = c.now := rfl
@[simp] theorem Chip.modPanel_free (f : Panel → Panel) : (c.modPanel f).free = c.free := rfl
@[simp] theorem Chip.modPanel_regs (f : Panel → Panel) : (c.modPanel f).regs = c.regs := rfl
@[simp] theorem Chip.modPanel_works (f : Panel → Panel) : (c.modPanel f).works = c.works := rfl
@[simp] theorem Chip.modPanel_dbank (f : Panel → Panel) : (c.modPanel f).dbank = c.dbank := rfl
@[simp] theorem Chip.modPanel_ibank (f : Panel → Panel) : (c.modPanel f).ibank = c.ibank := rfl
@[simp] theorem Chip.modPanel_cls (f : Panel → Panel) : (c.modPanel f).cls = c.cls := rfl
@[simp] theorem Chip.modPanel_regions (f : Panel → Panel) : (c.modPanel f).regions = c.regions := rfl
@[simp] theorem Chip.modPanel_crossing (f : Panel → Panel) : (c.modPanel f).crossing = c.crossing := rfl
@[simp] theorem Chip.modPanel_evFlight (f : Panel → Panel) : (c.modPanel f).evFlight = c.evFlight := rfl
@[simp] theorem Chip.modPanel_pair (f : Panel → Panel) : (c.modPanel f).pair = c.pair := rfl
@[simp] theorem Chip.modPanel_targets (f : Panel → Panel) : (c.modPanel f).targets = c.targets := rfl
@[simp] theorem Chip.modPanel_meas (f : Panel → Panel) : (c.modPanel f).meas = c.meas := rfl
@[simp] theorem Chip.modPanel_field (f : Panel → Panel) : (c.modPanel f).field = c.field := rfl
@[simp] theorem Chip.modPanel_net (f : Panel → Panel) : (c.modPanel f).net = c.net := rfl
@[simp] theorem Chip.modPanel_dict (f : Panel → Panel) : (c.modPanel f).dict = c.dict := rfl
@[simp] theorem Chip.modPanel_store (f : Panel → Panel) : (c.modPanel f).store = c.store := rfl
@[simp] theorem Chip.modPanel_ident (f : Panel → Panel) : (c.modPanel f).ident = c.ident := rfl
@[simp] theorem Chip.modPanel_recd (f : Panel → Panel) : (c.modPanel f).recd = c.recd := rfl
@[simp] theorem Chip.modPanel_die (f : Panel → Panel) : (c.modPanel f).die = c.die := rfl
@[simp] theorem Chip.modPanel_cal (f : Panel → Panel) : (c.modPanel f).cal = c.cal := rfl
@[simp] theorem Chip.modPanel_campRecs (f : Panel → Panel) : (c.modPanel f).campRecs = c.campRecs := rfl
@[simp] theorem Chip.modPanel_wd (f : Panel → Panel) : (c.modPanel f).wd = c.wd := rfl
@[simp] theorem Chip.modPanel_power (f : Panel → Panel) : (c.modPanel f).power = c.power := rfl
@[simp] theorem Chip.modPanel_panel (f : Panel → Panel) : (c.modPanel f).panel = f c.panel := rfl
@[simp] theorem Chip.modPanel_rd (f : Panel → Panel) (ix sub : Nat) : (c.modPanel f).rd ix sub = c.rd ix sub := rfl
@[simp] theorem Chip.modPanel_rdw (f : Panel → Panel) (ix sub : Nat) : (c.modPanel f).rdw ix sub = c.rdw ix sub := rfl

/-! `modPower` -/

@[simp] theorem Chip.modPower_now (f : Power → Power) : (c.modPower f).now = c.now := rfl
@[simp] theorem Chip.modPower_free (f : Power → Power) : (c.modPower f).free = c.free := rfl
@[simp] theorem Chip.modPower_regs (f : Power → Power) : (c.modPower f).regs = c.regs := rfl
@[simp] theorem Chip.modPower_works (f : Power → Power) : (c.modPower f).works = c.works := rfl
@[simp] theorem Chip.modPower_dbank (f : Power → Power) : (c.modPower f).dbank = c.dbank := rfl
@[simp] theorem Chip.modPower_ibank (f : Power → Power) : (c.modPower f).ibank = c.ibank := rfl
@[simp] theorem Chip.modPower_cls (f : Power → Power) : (c.modPower f).cls = c.cls := rfl
@[simp] theorem Chip.modPower_regions (f : Power → Power) : (c.modPower f).regions = c.regions := rfl
@[simp] theorem Chip.modPower_crossing (f : Power → Power) : (c.modPower f).crossing = c.crossing := rfl
@[simp] theorem Chip.modPower_evFlight (f : Power → Power) : (c.modPower f).evFlight = c.evFlight := rfl
@[simp] theorem Chip.modPower_pair (f : Power → Power) : (c.modPower f).pair = c.pair := rfl
@[simp] theorem Chip.modPower_targets (f : Power → Power) : (c.modPower f).targets = c.targets := rfl
@[simp] theorem Chip.modPower_meas (f : Power → Power) : (c.modPower f).meas = c.meas := rfl
@[simp] theorem Chip.modPower_field (f : Power → Power) : (c.modPower f).field = c.field := rfl
@[simp] theorem Chip.modPower_net (f : Power → Power) : (c.modPower f).net = c.net := rfl
@[simp] theorem Chip.modPower_dict (f : Power → Power) : (c.modPower f).dict = c.dict := rfl
@[simp] theorem Chip.modPower_store (f : Power → Power) : (c.modPower f).store = c.store := rfl
@[simp] theorem Chip.modPower_ident (f : Power → Power) : (c.modPower f).ident = c.ident := rfl
@[simp] theorem Chip.modPower_recd (f : Power → Power) : (c.modPower f).recd = c.recd := rfl
@[simp] theorem Chip.modPower_die (f : Power → Power) : (c.modPower f).die = c.die := rfl
@[simp] theorem Chip.modPower_cal (f : Power → Power) : (c.modPower f).cal = c.cal := rfl
@[simp] theorem Chip.modPower_campRecs (f : Power → Power) : (c.modPower f).campRecs = c.campRecs := rfl
@[simp] theorem Chip.modPower_wd (f : Power → Power) : (c.modPower f).wd = c.wd := rfl
@[simp] theorem Chip.modPower_panel (f : Power → Power) : (c.modPower f).panel = c.panel := rfl
@[simp] theorem Chip.modPower_power (f : Power → Power) : (c.modPower f).power = f c.power := rfl
@[simp] theorem Chip.modPower_rd (f : Power → Power) (ix sub : Nat) : (c.modPower f).rd ix sub = c.rd ix sub := rfl
@[simp] theorem Chip.modPower_rdw (f : Power → Power) (ix sub : Nat) : (c.modPower f).rdw ix sub = c.rdw ix sub := rfl

/-! `draw` -/

@[simp] theorem Chip.draw_now : c.draw.now = c.now := rfl
@[simp] theorem Chip.draw_regs : c.draw.regs = c.regs := rfl
@[simp] theorem Chip.draw_works : c.draw.works = c.works := rfl
@[simp] theorem Chip.draw_dbank : c.draw.dbank = c.dbank := rfl
@[simp] theorem Chip.draw_ibank : c.draw.ibank = c.ibank := rfl
@[simp] theorem Chip.draw_cls : c.draw.cls = c.cls := rfl
@[simp] theorem Chip.draw_regions : c.draw.regions = c.regions := rfl
@[simp] theorem Chip.draw_crossing : c.draw.crossing = c.crossing := rfl
@[simp] theorem Chip.draw_evFlight : c.draw.evFlight = c.evFlight := rfl
@[simp] theorem Chip.draw_pair : c.draw.pair = c.pair := rfl
@[simp] theorem Chip.draw_targets : c.draw.targets = c.targets := rfl
@[simp] theorem Chip.draw_meas : c.draw.meas = c.meas := rfl
@[simp] theorem Chip.draw_field : c.draw.field = c.field := rfl
@[simp] theorem Chip.draw_net : c.draw.net = c.net := rfl
@[simp] theorem Chip.draw_dict : c.draw.dict = c.dict := rfl
@[simp] theorem Chip.draw_store : c.draw.store = c.store := rfl
@[simp] theorem Chip.draw_ident : c.draw.ident = c.ident := rfl
@[simp] theorem Chip.draw_recd : c.draw.recd = c.recd := rfl
@[simp] theorem Chip.draw_die : c.draw.die = c.die := rfl
@[simp] theorem Chip.draw_cal : c.draw.cal = c.cal := rfl
@[simp] theorem Chip.draw_campRecs : c.draw.campRecs = c.campRecs := rfl
@[simp] theorem Chip.draw_wd : c.draw.wd = c.wd := rfl
@[simp] theorem Chip.draw_panel : c.draw.panel = c.panel := rfl
@[simp] theorem Chip.draw_power : c.draw.power = c.power := rfl
@[simp] theorem Chip.draw_rd (ix sub : Nat) : c.draw.rd ix sub = c.rd ix sub := rfl
@[simp] theorem Chip.draw_free : c.draw.free = c.free + 1 := rfl

/-! ### Units after their own update -/

@[simp] theorem Chip.work_modWork_same (e : Nat) (f : Work → Work) : (c.modWork e f).work e = f (c.work e) := nth_modNth_same ..
theorem Chip.work_modWork_other (e j : Nat) (f : Work → Work) (h : j ≠ e) : (c.modWork e f).work j = c.work j := nth_modNth_other _ _ _ _ _ h
@[simp] theorem Chip.cl_modCl_same (n : Nat) (f : Cls → Cls) : (c.modCl n f).cl n = f (c.cl n) := nth_modNth_same ..
theorem Chip.cl_modCl_other (n j : Nat) (f : Cls → Cls) (h : j ≠ n) : (c.modCl n f).cl j = c.cl j := nth_modNth_other _ _ _ _ _ h
@[simp] theorem Chip.region_modRegion_same (r : Nat) (f : Region → Region) : (c.modRegion r f).region r = f (c.region r) := nth_modNth_same ..
theorem Chip.region_modRegion_other (r j : Nat) (f : Region → Region) (h : j ≠ r) : (c.modRegion r f).region j = c.region j := nth_modNth_other _ _ _ _ _ h
@[simp] theorem Chip.target_modTarget_same (k : Nat) (f : Target' → Target') : (c.modTarget k f).target k = f (c.target k) := nth_modNth_same ..
theorem Chip.target_modTarget_other (k j : Nat) (f : Target' → Target') (h : j ≠ k) : (c.modTarget k f).target j = c.target j := nth_modNth_other _ _ _ _ _ h
@[simp] theorem Chip.di_modDi_same (d : Nat) (f : Di → Di) : (c.modDi d f).di d = f (c.di d) := nth_modNth_same ..
theorem Chip.di_modDi_other (d j : Nat) (f : Di → Di) (h : j ≠ d) : (c.modDi d f).di j = c.di j := nth_modNth_other _ _ _ _ _ h
@[simp] theorem Chip.doc_modDo_same (d : Nat) (f : DoCh → DoCh) : (c.modDo d f).doc d = f (c.doc d) := nth_modNth_same ..
theorem Chip.doc_modDo_other (d j : Nat) (f : DoCh → DoCh) (h : j ≠ d) : (c.modDo d f).doc j = c.doc j := nth_modNth_other _ _ _ _ _ h
@[simp] theorem Chip.aich_modAi_same (d : Nat) (f : AiCh → AiCh) : (c.modAi d f).aich d = f (c.aich d) := nth_modNth_same ..
theorem Chip.aich_modAi_other (d j : Nat) (f : AiCh → AiCh) (h : j ≠ d) : (c.modAi d f).aich j = c.aich j := nth_modNth_other _ _ _ _ _ h
@[simp] theorem Chip.aoch_modAo_same (d : Nat) (f : AoCh → AoCh) : (c.modAo d f).aoch d = f (c.aoch d) := nth_modNth_same ..
theorem Chip.aoch_modAo_other (d j : Nat) (f : AoCh → AoCh) (h : j ≠ d) : (c.modAo d f).aoch j = c.aoch j := nth_modNth_other _ _ _ _ _ h

/-- A D-space word reads as written, and every other one as before. -/
@[simp] theorem Chip.dbank_modDbank_same (e : Nat) (f : WMem → WMem) : nth [] (c.modDbank e f).dbank e = f (nth [] c.dbank e) := nth_modNth_same ..
theorem Chip.dbank_modDbank_other (e j : Nat) (f : WMem → WMem) (h : j ≠ e) : nth [] (c.modDbank e f).dbank j = nth [] c.dbank j :=
  nth_modNth_other _ _ _ _ _ h
@[simp] theorem Chip.ibank_modIbank_same (e : Nat) (f : NMem → NMem) : nth [] (c.modIbank e f).ibank e = f (nth [] c.ibank e) := nth_modNth_same ..
theorem Chip.ibank_modIbank_other (e j : Nat) (f : NMem → NMem) (h : j ≠ e) : nth [] (c.modIbank e f).ibank j = nth [] c.ibank j :=
  nth_modNth_other _ _ _ _ _ h

/-- Two updates of one unit are one. -/
theorem modNth_modNth {α : Type} (d : α) (f g : α → α) (l : List α) (i : Nat) : modNth d g (modNth d f l i) i = modNth d (fun x => g (f x)) l i := by
  induction i generalizing l with
  | zero => cases l <;> rfl
  | succ i ih => cases l <;> simp [modNth, ih]
@[simp] theorem Chip.modWork_modWork (e : Nat) (f g : Work → Work) : (c.modWork e f).modWork e g = c.modWork e (fun w => g (f w)) := by
  simp [Chip.modWork, modNth_modNth]

/-- An update of a unit depends on what it makes of that unit alone. -/
theorem modNth_congr {α : Type} (d : α) (f g : α → α) (l : List α) (i : Nat) (h : f (nth d l i) = g (nth d l i)) :
    modNth d f l i = modNth d g l i := by
  induction i generalizing l with
  | zero => cases l <;> simp_all [modNth, nth]
  | succ i ih => cases l <;> simp_all [modNth, nth]
theorem Chip.modWork_congr (e : Nat) (f g : Work → Work) (h : f (c.work e) = g (c.work e)) : c.modWork e f = c.modWork e g := by
  simp only [Chip.modWork, modNth_congr _ _ _ _ _ h]
theorem Chip.modCl_congr (n : Nat) (f g : Cls → Cls) (h : f (c.cl n) = g (c.cl n)) : c.modCl n f = c.modCl n g := by
  simp only [Chip.modCl, modNth_congr _ _ _ _ _ h]

/-! ### Registers -/

theorem toWord_toNat (v : Nat) (h : v < 2 ^ 48) : (toWord v).toNat = v := by simp [toWord]; omega

/-- A register reads as written, reduced to 48 bits. -/
@[simp] theorem Chip.rdw_wr_same (ix sub v : Nat) : (c.wr ix sub v).rdw ix sub = toWord v := Sparse.get_set_same ..
@[simp] theorem Chip.rd_wr_same (ix sub v : Nat) : (c.wr ix sub v).rd ix sub = v % 2 ^ 48 := by simp [Chip.rd, toWord]
/-- Every other register reads as before. -/
theorem Chip.rdw_wr_other (ix sub v ix' sub' : Nat) (h : regKey ix' sub' ≠ regKey ix sub) : (c.wr ix sub v).rdw ix' sub' = c.rdw ix' sub' :=
  Sparse.get_set_other _ _ _ _ _ h
theorem Chip.rd_wr_other (ix sub v ix' sub' : Nat) (h : regKey ix' sub' ≠ regKey ix sub) : (c.wr ix sub v).rd ix' sub' = c.rd ix' sub' := by
  simp [Chip.rd, Chip.rdw_wr_other c ix sub v ix' sub' h]
/-- Reading a register depends on the register file alone. -/
theorem Chip.rdw_congr {c d : Chip} (h : c.regs = d.regs) (ix sub : Nat) : c.rdw ix sub = d.rdw ix sub := by simp [Chip.rdw, h]
theorem Chip.rd_congr {c d : Chip} (h : c.regs = d.regs) (ix sub : Nat) : c.rd ix sub = d.rd ix sub := by simp [Chip.rd, Chip.rdw, h]
/-- A time-pair register reads as written. -/
@[simp] theorem Chip.rdPair_wrPair_same (ix sub : Nat) (p : TimePair) : (c.wrPair ix sub p).rdPair ix sub = p := by
  have hne : regKey ix sub ≠ regKey1 ix sub := by simp only [regKey, regKey1, ne_eq]; omega
  simp [Chip.rdPair, Chip.wrPair, Chip.rdw, Sparse.get_set_same, Sparse.get_set_other _ _ _ _ _ hne]

end Sys2Proof.Machine
end

