-- ==== Sys2Proof/Laws/Die.lean ====
section
/-! SUPPORT. What a read of the flash die finds after each of its operations, and what the recorder's queue holds after an event. -/

namespace Sys2Proof

variable (d : FlashDie)

/-- Appending an operation changes what is read only where it lies. -/
theorem FlashDie.progAt_push (p : Prog) (a : Nat) : ({ d with progs := d.progs ++ [p] } : FlashDie).progAt a =
    if p.addr ≤ a ∧ a < p.addr + p.bytes.length then some p else d.progAt a := by
  simp only [FlashDie.progAt, List.reverse_append, List.reverse_cons, List.reverse_nil, List.nil_append, List.singleton_append, List.find?_cons]
  split <;> simp_all

theorem FlashDie.byteAt_push_other (p : Prog) (a : Nat) (h : a < p.addr ∨ p.addr + p.bytes.length ≤ a) :
    ({ d with progs := d.progs ++ [p] } : FlashDie).byteAt a = d.byteAt a := by
  have hn : ¬ (p.addr ≤ a ∧ a < p.addr + p.bytes.length) := by omega
  simp [FlashDie.byteAt, FlashDie.progAt_push, hn]

theorem FlashDie.byteAt_push_same (p : Prog) (a : Nat) (hf : isFactory a = false) (h : p.addr ≤ a ∧ a < p.addr + p.bytes.length) :
    ({ d with progs := d.progs ++ [p] } : FlashDie).byteAt a = nth 0xFF p.bytes (a - p.addr) := by
  simp [FlashDie.byteAt, FlashDie.progAt_push, h, hf]

/-- A program operation leaves every byte outside of it. -/
theorem FlashDie.byteAt_program_other (a : Nat) (bs : List Byte) (x : Nat) (h : x < a ∨ a + bs.length ≤ x) :
    (d.program a bs).byteAt x = d.byteAt x := by
  unfold FlashDie.program
  split
  · exact d.byteAt_push_other _ x h
  · rfl

/-- On blank groups outside of the factory copies and the reserved area, what is programmed reads back. -/
theorem FlashDie.byteAt_program_same (a : Nat) (bs : List Byte) (x : Nat) (hb : d.blank a bs.length = true) (hf : isFactory a = false)
    (hr : a + bs.length ≤ 0x03D00000) (hx : a ≤ x ∧ x < a + bs.length) (hfx : isFactory x = false) :
    (d.program a bs).byteAt x = nth 0xFF bs (x - a) := by
  unfold FlashDie.program
  simp only [hb, hf, hr, Bool.not_false, Bool.and_self, decide_true, if_true]
  exact d.byteAt_push_same ⟨a, bs, _⟩ x hfx hx

/-- An interrupted operation leaves every byte outside of it (R351). -/
theorem FlashDie.byteAt_tear_other (a draw n stop : Nat) (bs : List Byte) (x : Nat) (h : x < a ∨ a + (tornBytes draw n stop bs).length ≤ x) :
    (d.tear a draw n stop bs).byteAt x = d.byteAt x := by
  unfold FlashDie.tear
  split
  · rfl
  · exact d.byteAt_push_other _ x h

/-- The background work takes no part in what is read. -/
theorem FlashDie.byteAt_work (l : List FlashWork) (x : Nat) : ({ d with work := l } : FlashDie).byteAt x = d.byteAt x := rfl

/-- The factory copies and the reserved area are as the factory left them, whatever is programmed. -/
theorem FlashDie.byteAt_program_reserved (a : Nat) (bs : List Byte) (x : Nat) (h : isFactory x = true ∨ 0x03D00000 ≤ x) :
    (d.program a bs).byteAt x = d.byteAt x := by
  unfold FlashDie.program
  split
  · rename_i hc
    simp only [Bool.and_eq_true, decide_eq_true_eq] at hc
    rcases h with h | h
    · simp [FlashDie.byteAt, h]
    · exact d.byteAt_push_other _ x (Or.inr (by show a + bs.length ≤ x; omega))
  · rfl

end Sys2Proof

namespace Sys2Proof.Machine

/-- The queue holds what it held and the records brought in. -/
theorem mem_queueEvents (q recs : List EvRec) (x : EvRec) : x ∈ queueEvents q recs ↔ x ∈ q ∨ x ∈ recs := by
  unfold queueEvents
  split
  · simp
  · rename_i r _
    have h := List.takeWhile_append_dropWhile (p := fun x : EvRec => x.code == clearCode) (l := q)
    have hd : q.drop (q.takeWhile (fun x => x.code == clearCode)).length = q.dropWhile (fun x => x.code == clearCode) := by
      have := List.drop_left (l₁ := q.takeWhile (fun x : EvRec => x.code == clearCode)) (l₂ := q.dropWhile (fun x => x.code == clearCode))
      rwa [h] at this
    simp only [hd]
    generalize hi : (List.findIdx? _ _).getD _ = i
    have hm : x ∈ q ↔ x ∈ q.takeWhile (fun x => x.code == clearCode) ∨ x ∈ (q.dropWhile (fun x => x.code == clearCode)).take i ∨
        x ∈ (q.dropWhile (fun x => x.code == clearCode)).drop i := by
      rw [← List.mem_append (s := List.take i _), List.take_append_drop, ← List.mem_append, h]
    simp only [List.mem_append, hm]
    tauto

/-- Its length is the sum of theirs. -/
theorem length_queueEvents (q recs : List EvRec) : (queueEvents q recs).length = q.length + recs.length := by
  unfold queueEvents
  split
  · simp
  · have h := List.takeWhile_append_dropWhile (p := fun x : EvRec => x.code == clearCode) (l := q)
    have hl := congrArg List.length h
    simp only [List.length_append] at hl
    simp only [List.length_append, List.length_take, List.length_drop]
    omega

end Sys2Proof.Machine
end

