-- ==== Sys2Proof/Laws/Engine.lean ====
section
/-! SUPPORT. What issuing an operation does: an operation that is the whole bundle of its engine gives the chip `Chip.carries`; an
operation that is not the last of its bundle changes the open bundle alone; a squashed operation does nothing. -/

namespace Sys2Proof.Machine

/-- The open bundle of a work replaced. -/
def setBundle (b : OpenBundle) (w : Work) : Work := { w with bundle := b }

@[simp] theorem setBundle_undo (b : OpenBundle) (w : Work) : (setBundle b w).undo = w.undo := rfl
@[simp] theorem setBundle_sup (b : OpenBundle) (w : Work) : (setBundle b w).sup = w.sup := rfl
@[simp] theorem setBundle_arch (b : OpenBundle) (w : Work) : (setBundle b w).arch = w.arch := rfl
@[simp] theorem setBundle_issued (b : OpenBundle) (w : Work) : (setBundle b w).issued = w.issued := rfl
@[simp] theorem setBundle_flags (b : OpenBundle) (w : Work) : (setBundle b w).flags = w.flags := rfl
@[simp] theorem setBundle_flights (b : OpenBundle) (w : Work) : (setBundle b w).flights = w.flights := rfl

theorem addUndo_setBundle (b : OpenBundle) (w : Work) (u : Undo) :
    addUndo (setBundle b w) u = setBundle b (addUndo w u) := rfl

@[simp] theorem hasUndo_setBundle (b : OpenBundle) (w : Work) (p : Undo → Bool) : hasUndo (setBundle b w) p = hasUndo w p := rfl

@[simp] theorem Chip.cl_modWork (c : Chip) (e n : Nat) (f : Work → Work) : (c.modWork e f).cl n = c.cl n := rfl
@[simp] theorem Chip.classOf_modWork (c : Chip) (e k : Nat) (f : Work → Work) : (c.modWork e f).classOf k = c.classOf k := rfl
@[simp] theorem Chip.dWord_modWork (c : Chip) (e k a : Nat) (f : Work → Work) : (c.modWork e f).dWord k a = c.dWord k a := rfl
@[simp] theorem Chip.region_modWork (c : Chip) (e r : Nat) (f : Work → Work) : (c.modWork e f).region r = c.region r := rfl

theorem modWork_modDbank (c : Chip) (e k : Nat) (f : Work → Work) (g : WMem → WMem) :
   (c.modWork e f).modDbank k g = (c.modDbank k g).modWork e f := rfl
theorem modWork_modRegion (c : Chip) (e k : Nat) (f : Work → Work) (g : Region → Region) :
   (c.modWork e f).modRegion k g = (c.modRegion k g).modWork e f := rfl
theorem modWork_modCl (c : Chip) (e k : Nat) (f : Work → Work) (g : Cls → Cls) :
   (c.modWork e f).modCl k g = (c.modCl k g).modWork e f := rfl
/-- What the effects of a bundle do does not depend on the open bundle. -/
theorem effect_setBundle (c : Chip) (e : Nat) (b : OpenBundle) (f : Eff) :
    (c.modWork e (setBundle b)).effect e f = (c.effect e f).modWork e (setBundle b) := by
  cases f with
  | res d k v => simp [Chip.effect, setBundle]
  | dmem a v =>
    simp only [Chip.effect, Chip.work_modWork_same, hasUndo_setBundle, Chip.dWord_modWork, modWork_modDbank]
    split
    · rfl
    · simp [setBundle, addUndo]
  | gmem a v =>
    simp only [Chip.effect, Chip.work_modWork_same, hasUndo_setBundle, Chip.region_modWork, modWork_modRegion]
    split
    · simp [setBundle]
    · simp [setBundle, addUndo]
  | io a v =>
    simp only [Chip.effect, Chip.work_modWork_same, hasUndo_setBundle, Chip.classOf_modWork, Chip.cl_modWork, modWork_modCl]
    split
    · rfl
    · simp [setBundle, addUndo]
  | mbMark off =>
    simp only [Chip.effect, Chip.classOf_modWork, Chip.cl_modWork, modWork_modCl]
    split
    · split
      · rfl
      · simp [setBundle, addUndo]
    · rfl
  | sched x => rfl
  | push => simp [Chip.effect, setBundle]
  | pop => simp [Chip.effect, setBundle]
  | rcl => rfl
  | cnf => rfl
  | sev t ev mask =>
    have h : (c.modWork e (setBundle b)).modWork e (fun w => addUndo w (.sent ev mask)) =
      (c.modWork e (fun w => addUndo w (.sent ev mask))).modWork e (setBundle b) := by simp [setBundle, addUndo]
    simp only [Chip.effect, Chip.work_modWork_same, setBundle_sup, Chip.classOf_modWork, Chip.cl_modWork]
    rw [h]
    split
    · split
      · simp [setBundle, addUndo]
      · rfl
    · rfl
  | clev ev => simp [Chip.effect, setBundle, addUndo]

theorem effects_setBundle (l : List Eff) (c : Chip) (e : Nat) (b : OpenBundle) :
    l.foldl (fun c f => c.effect e f) (c.modWork e (setBundle b)) = (l.foldl (fun c f => c.effect e f) c).modWork e (setBundle b) := by
  induction l generalizing c with
  | nil => rfl
  | cons f l ih => simp only [List.foldl_cons, effect_setBundle, ih]

theorem nextPc_setBundle (w : Work) (b : OpenBundle) (ctl : Option Ctl) :
    nextPc (setBundle b w) ctl = setBundle b (nextPc w ctl) := by
  by_cases h : 0 < w.delay
  · by_cases h1 : w.delay = 1
    · cases ht : w.target <;> simp [nextPc, setBundle, h1, ht]
    · simp [nextPc, setBundle, h, h1]
  · rcases ctl with _ | ⟨_ | _⟩ | ⟨_ | _⟩ | ⟨_ | _⟩ | ⟨a, n⟩ | _ | _ | _
    case some.loopTo => by_cases hn : n = 0 <;> simp [nextPc, setBundle, h, hn]
    all_goals simp [nextPc, setBundle, h]
/-- A bundle that meets no program fault takes effect whole (R85, R101). -/
theorem commit_ok (c : Chip) (e : Nat) (hs : c.signatureOk e = true) (h : bundleFault (c.work e) = none) :
    c.commit e = c.carries e (c.work e).bundle.effs (c.work e).bundle.ctl := by
  simp only [Chip.commit, hs, h, Chip.carries, Chip.modWork_modWork]
  rfl

/-- A bundle that meets a program fault has no effect but the fault (R108). -/
theorem commit_fault (c : Chip) (e : Nat) (f : ProgFault) (hs : c.signatureOk e = true) (h : bundleFault (c.work e) = some f) :
    c.commit e = c.raise e f := by
  simp only [Chip.commit, hs, h]
  rfl

/-- The signature check does not look at the open bundle. -/
theorem signatureOk_setBundle (c : Chip) (e : Nat) (b : OpenBundle) :
    (c.modWork e (setBundle b)).signatureOk e = c.signatureOk e := by
  simp [Chip.signatureOk, Chip.expectedSig, Chip.bundleBits]

/-- A fresh bundle takes an operation of slots M, A and B; without a long immediate it takes one of every slot. -/
theorem Fresh.slotFree {w : Work} (h : Fresh w) {sl : Slot} (hc : sl ≠ .c ∨ w.bundle.imm = none) : slotFree w.bundle sl = true := by
  unfold Machine.slotFree
  rw [h.2.2.2]
  rcases hc with hc | hc
  · cases w.bundle.imm <;> cases sl <;> simp_all [slotRank]
  · simp [hc]

theorem nextWork_setBundle (w : Work) (b : OpenBundle) (pcw : Nat) (ctl : Option Ctl) :
    nextWork (setBundle b w) pcw ctl = nextWork w pcw ctl := by
  have h := nextPc_setBundle { w with arch := { w.arch with sig := Config.sigStep w.arch.sig pcw }, ended := some w.arch.pc } b ctl
  simp only [setBundle] at h
  simp only [nextWork, setBundle, h]

theorem carries_setBundle (c : Chip) (e : Nat) (b : OpenBundle) (l : List Eff) (ctl : Option Ctl) :
    (c.modWork e (setBundle b)).carries e l ctl = c.carries e l ctl := by
  have h : (c.modWork e (setBundle b)).bundleBits e = c.bundleBits e := by simp [Chip.bundleBits]
  simp only [Chip.carries, effects_setBundle, Chip.modWork_modWork, nextWork_setBundle, h]

/-- The work that an operation in slot `sl` meets: its bundle with that slot taken. -/
def slotTaken (sl : Slot) (w : Work) : Work := { w with bundle := { w.bundle with used := sl :: w.bundle.used } }

/-- An operation that is the whole bundle of a ready engine carries out what it does. -/
theorem issueAs_carries (c : Chip) (e : Nat) (sl : Slot) (b : OpenBundle) (f : Work → Work) (hr : Ready c e)
    (hsl : slotFree (c.work e).bundle sl = true) (hf : f (slotTaken sl (c.work e)) = setBundle b (c.work e)) (hb : b.fault = none)
    (hs : storesCollide b.effs = false) : c.issueAs e sl true f = c.carries e b.effs b.ctl := by
  have hm : c.modWork e (fun w => f (slotTaken sl w)) = c.modWork e (setBundle b) := Chip.modWork_congr _ _ _ _ hf
  have hn : bundleFault ((c.modWork e (setBundle b)).work e) = none := by
    rw [Chip.work_modWork_same]
    simp [bundleFault, setBundle, hr.2.2.1, hs, hb]
  unfold Chip.issueAs
  rw [if_pos ⟨hr.1, hsl⟩, if_pos rfl]
  refine (congrArg (fun c => c.commit e) hm).trans ?_
  show (c.modWork e (setBundle b)).commit e = _
  rw [commit_ok _ _ ((signatureOk_setBundle ..).trans hr.2.2.2) hn, carries_setBundle]
  simp [setBundle]

/-- A fault leaves nothing of the open bundle. -/
theorem raise_setBundle (c : Chip) (e : Nat) (b : OpenBundle) (f : ProgFault) :
    (c.modWork e (setBundle b)).raise e f = c.raise e f := by
  simp only [Chip.raise, Chip.work_modWork_same, Chip.modWork_modWork]
  rfl

/-- An operation that is the whole bundle of a ready engine and meets a program fault raises it. -/
theorem issueAs_raise (c : Chip) (e : Nat) (sl : Slot) (p : ProgFault) (b : OpenBundle) (f : Work → Work) (hr : Ready c e)
    (hsl : slotFree (c.work e).bundle sl = true) (hf : f (slotTaken sl (c.work e)) = setBundle b (c.work e)) (hb : b.fault = some p) :
    c.issueAs e sl true f = c.raise e p := by
  have hm : c.modWork e (fun w => f (slotTaken sl w)) = c.modWork e (setBundle b) := Chip.modWork_congr _ _ _ _ hf
  have hn : bundleFault ((c.modWork e (setBundle b)).work e) = some p := by
    rw [Chip.work_modWork_same]
    simp [bundleFault, setBundle, hb]
  unfold Chip.issueAs
  rw [if_pos ⟨hr.1, hsl⟩, if_pos rfl]
  refine (congrArg (fun c => c.commit e) hm).trans ?_
  show (c.modWork e (setBundle b)).commit e = _
  rw [commit_fault _ _ _ ((signatureOk_setBundle ..).trans hr.2.2.2) hn, raise_setBundle]

/-- What joining makes of a fresh work: the operation's effects, its fault, or the illegal opcode. -/
theorem joinBundle_ok (w : Work) (q : Option Ctl) (d : Did) (he : w.bundle.effs = []) (hc : w.bundle.ctl = none) :
    joinBundle w true true q (.ok d) = setBundle { w.bundle with effs := d.effs, ctl := d.ctl } w := by
  simp [joinBundle, he, hc, setBundle]
theorem joinBundle_error (w : Work) (q : Option Ctl) (p : ProgFault) (hf : w.bundle.fault = none) :
    joinBundle w true true q (.error p) = setBundle { w.bundle with fault := some p } w := by
  simp [joinBundle, hf, setBundle]

/-- A guarded operation alone in its bundle: its effects or its fault; with an illegal operand field the illegal opcode. -/
theorem issueJoin (c : Chip) (o : Op) (sl : Slot) (legal : Bool) (q : Option Ctl) (run : Work → Except ProgFault Did) (h : Alone c o)
    (hsl : slotFree (c.work o.eng.val).bundle sl = true) (hw : run (slotTaken sl (c.work o.eng.val)) = run (c.work o.eng.val))
    (hs : ∀ d, run (c.work o.eng.val) = .ok d → storesCollide d.effs = false) (lg : Work → Bool)
    (hl : lg (slotTaken sl (c.work o.eng.val)) = legal) :
    c.issueAs o.eng.val sl o.last (fun w => joinBundle w (guardOk w o) (lg w) q (run w)) =
      c.issues o.eng.val (if legal then run (c.work o.eng.val) else .error .illegalOpcode) := by
  obtain ⟨hr, hlast, hg⟩ := h
  have hg' : guardOk (slotTaken sl (c.work o.eng.val)) o = true := hg
  rw [hlast]
  cases legal with
  | true =>
    cases hd : run (c.work o.eng.val) with
    | ok d =>
      refine (issueAs_carries c _ sl { (slotTaken sl (c.work o.eng.val)).bundle with effs := d.effs, ctl := d.ctl } _ hr hsl ?_ hr.2.1.2.2.1
        (hs d hd)).trans rfl
      simp only [hl, hg', hw, hd]
      exact joinBundle_ok (slotTaken sl (c.work o.eng.val)) q d hr.2.1.1 hr.2.1.2.1
    | error p =>
      refine (issueAs_raise c _ sl p { (slotTaken sl (c.work o.eng.val)).bundle with fault := some p } _ hr hsl ?_ rfl).trans rfl
      simp only [hl, hg', hw, hd]
      exact joinBundle_error (slotTaken sl (c.work o.eng.val)) q p hr.2.1.2.2.1
  | false =>
    refine (issueAs_raise c _ sl .illegalOpcode { (slotTaken sl (c.work o.eng.val)).bundle with fault := some .illegalOpcode } _ hr hsl ?_
      rfl).trans rfl
    simp only [hl]
    rfl

/-- An operation of slot A, B or M that is the whole bundle of its engine. -/
theorem issue_issues (c : Chip) (sl : Slot) (o : Op) (legal : Bool) (run : Work → Except ProgFault Did) (h : Alone c o) (hc : sl ≠ .c)
    (hw : run (slotTaken sl (c.work o.eng.val)) = run (c.work o.eng.val))
    (hs : ∀ d, run (c.work o.eng.val) = .ok d → storesCollide d.effs = false) :
    c.issue sl o legal run = c.issues o.eng.val (if legal then run (c.work o.eng.val) else .error .illegalOpcode) :=
  issueJoin c o sl legal none run h (h.1.2.1.slotFree (.inl hc)) hw hs (fun _ => legal) rfl

/-- The same of slot C, beside which no long immediate stands. -/
theorem issue_issues_c (c : Chip) (o : Op) (legal : Bool) (run : Work → Except ProgFault Did) (h : AloneCtl c o)
    (hw : run (slotTaken .c (c.work o.eng.val)) = run (c.work o.eng.val))
    (hs : ∀ d, run (c.work o.eng.val) = .ok d → storesCollide d.effs = false) :
    c.issue .c o legal run = c.issues o.eng.val (if legal then run (c.work o.eng.val) else .error .illegalOpcode) :=
  issueJoin c o .c legal none run h.1 (h.1.1.2.1.slotFree (.inr h.2)) hw hs (fun _ => legal) rfl

/-- The same of a control operation, illegal in a delay bundle (R103). -/
theorem issueCtl_issues (c : Chip) (o : Op) (q : Option Ctl) (run : Work → Except ProgFault Did) (h : AloneCtl c o)
    (hw : run (slotTaken .c (c.work o.eng.val)) = run (c.work o.eng.val))
    (hs : ∀ d, run (c.work o.eng.val) = .ok d → storesCollide d.effs = false) :
    c.issueCtl o q run =
      c.issues o.eng.val (if (c.work o.eng.val).delay = 0 then run (c.work o.eng.val) else .error .illegalOpcode) := by
  refine (issueJoin c o .c (decide ((c.work o.eng.val).delay = 0)) q run h.1 (h.1.1.2.1.slotFree (.inr h.2)) hw hs (fun w => w.delay == 0)
    rfl).trans ?_
  simp

/-! ### Stores of one operation do not collide -/

@[simp] theorem place_resG (n : RegNo) (k : Nat) (v : Word) : (resG n k v).filterMap Eff.place = [] := by
  unfold resG
  split <;> rfl
@[simp] theorem place_resP (n : RegNo) (k : Nat) (b : Bool) : (resP n k b).filterMap Eff.place = [] := by
  unfold resP
  split <;> rfl
@[simp] theorem place_resBA (b : Bool) : (resBA b).filterMap Eff.place = [] := rfl
@[simp] theorem place_resS (n : RegNo) (k v : Nat) : (resS n k v).filterMap Eff.place = [] := place_resG ..
@[simp] theorem place_resD (n : RegNo) (k v : Nat) : (resD n k v).filterMap Eff.place = [] := by simp [resD]
@[simp] theorem place_resT (n : RegNo) (k : Nat) (p : TimePair) : (resT n k p).filterMap Eff.place = [] := by simp [resT]

theorem storesCollide_none (l : List Eff) (h : l.filterMap Eff.place = []) : storesCollide l = false := by
  simp [storesCollide, h]
theorem storesCollide_one (l : List Eff) (p : Nat × Nat) (h : l.filterMap Eff.place = [p]) : storesCollide l = false := by
  simp [storesCollide, h]

/-- Whether an operation is legal for a work now: operand fields, profile, no control operation in a delay bundle. -/
def opLegal (i : Instr) (w : Work) : Bool :=
  operandsLegal i && (match profileOnly i with
    | some d => profD w == d
    | none => true) && (!isControl i || w.delay == 0)

/-- An operation joins the bundle of its engine in its slot: legal or not, squashed or done. -/
def Joins (s : State) (i : Instr) (o : Op) : Prop :=
  ∃ run : Work → Except ProgFault Did, Gives s i ((s.chip.timed i).issueAs o.eng.val i.slot o.last
      (fun w => joinBundle w (guardOk w o) (opLegal i (s.chip.work o.eng.val)) (squashCtl i) (run w)))

theorem joins_of (s : State) (i : Instr) (o : Op) (legal : Bool) (run : Work → Except ProgFault Did)
    (hex : Gives s i ((s.chip.timed i).issue i.slot o legal run)) (hl : opLegal i (s.chip.work o.eng.val) = legal) (hq : squashCtl i = none) :
    Joins s i o := by
  refine ⟨run, ?_⟩
  rw [hl, hq]
  exact hex

theorem issueCtl_eq (c : Chip) (o : Op) (q : Option Ctl) (run : Work → Except ProgFault Did) :
    c.issueCtl o q run = c.issueAs o.eng.val .c o.last
      (fun w => joinBundle w (guardOk w o) ((c.work o.eng.val).delay == 0) q (run w)) := by
  unfold Chip.issueCtl Chip.issueAs
  rw [Chip.modWork_congr]
  rfl

theorem joins_ctl (s : State) (i : Instr) (o : Op) (q : Option Ctl) (run : Work → Except ProgFault Did)
    (hex : Gives s i ((s.chip.timed i).issueCtl o q run))
    (hl : opLegal i (s.chip.work o.eng.val) = (((s.chip.timed i).work o.eng.val).delay == 0)) (hq : squashCtl i = q) (hc : i.slot = .c) : Joins s i o := by
  refine ⟨run, ?_⟩
  rw [hl, hq, hc, ← issueCtl_eq]
  exact hex

/-- Every guarded operation joins the bundle of its engine in one way (R86, R87). -/
theorem joins (s : State) (i : Instr) (o : Op) (h : i.op = some o) : Joins s i o := by
  cases i with
  | dabs _ d a | dneg _ d a =>
    cases h
    refine joins_of s _ o _ _ rfl (((Bool.and_true _).trans (Bool.and_true _)).trans ?_) rfl
    show (pairOk d && pairOk a) = (pairOk d && pairOk a && pairOk a)
    cases pairOk d <;> cases pairOk a <;> rfl
  | br | call | ret | loop | eoc => cases h; exact joins_ctl s _ o _ _ rfl rfl rfl rfl
  | _ =>
    first
    | (cases h; done)
    | (cases h; exact joins_of s _ o _ _ rfl rfl rfl)
    | (cases h; exact joins_of s _ o _ _ rfl (Bool.and_true _) rfl)
    | (cases h; exact joins_of s _ o _ _ rfl ((Bool.and_true _).trans (Bool.and_true _)) rfl)

end Sys2Proof.Machine
end

