-- ==== Sys2Proof/Laws/Ops.lean ====
section
/-! SUPPORT. What the shared operations can do: the fields that each leaves, the registers that each writes, and how a row of a
dictionary write follows from its checks. -/

namespace Sys2Proof.Machine

variable (c : Chip)


/-! `bumpBy` -/

@[simp] theorem Chip.bumpBy_now (ix sub n : Nat) : (c.bumpBy ix sub n).now = c.now := rfl
@[simp] theorem Chip.bumpBy_free (ix sub n : Nat) : (c.bumpBy ix sub n).free = c.free := rfl
@[simp] theorem Chip.bumpBy_works (ix sub n : Nat) : (c.bumpBy ix sub n).works = c.works := rfl
@[simp] theorem Chip.bumpBy_dbank (ix sub n : Nat) : (c.bumpBy ix sub n).dbank = c.dbank := rfl
@[simp] theorem Chip.bumpBy_ibank (ix sub n : Nat) : (c.bumpBy ix sub n).ibank = c.ibank := rfl
@[simp] theorem Chip.bumpBy_cls (ix sub n : Nat) : (c.bumpBy ix sub n).cls = c.cls := rfl
@[simp] theorem Chip.bumpBy_regions (ix sub n : Nat) : (c.bumpBy ix sub n).regions = c.regions := rfl
@[simp] theorem Chip.bumpBy_crossing (ix sub n : Nat) : (c.bumpBy ix sub n).crossing = c.crossing := rfl
@[simp] theorem Chip.bumpBy_evFlight (ix sub n : Nat) : (c.bumpBy ix sub n).evFlight = c.evFlight := rfl
@[simp] theorem Chip.bumpBy_pair (ix sub n : Nat) : (c.bumpBy ix sub n).pair = c.pair := rfl
@[simp] theorem Chip.bumpBy_targets (ix sub n : Nat) : (c.bumpBy ix sub n).targets = c.targets := rfl
@[simp] theorem Chip.bumpBy_meas (ix sub n : Nat) : (c.bumpBy ix sub n).meas = c.meas := rfl
@[simp] theorem Chip.bumpBy_field (ix sub n : Nat) : (c.bumpBy ix sub n).field = c.field := rfl
@[simp] theorem Chip.bumpBy_net (ix sub n : Nat) : (c.bumpBy ix sub n).net = c.net := rfl
@[simp] theorem Chip.bumpBy_dict (ix sub n : Nat) : (c.bumpBy ix sub n).dict = c.dict := rfl
@[simp] theorem Chip.bumpBy_store (ix sub n : Nat) : (c.bumpBy ix sub n).store = c.store := rfl
@[simp] theorem Chip.bumpBy_ident (ix sub n : Nat) : (c.bumpBy ix sub n).ident = c.ident := rfl
@[simp] theorem Chip.bumpBy_recd (ix sub n : Nat) : (c.bumpBy ix sub n).recd = c.recd := rfl
@[simp] theorem Chip.bumpBy_die (ix sub n : Nat) : (c.bumpBy ix sub n).die = c.die := rfl
@[simp] theorem Chip.bumpBy_cal (ix sub n : Nat) : (c.bumpBy ix sub n).cal = c.cal := rfl
@[simp] theorem Chip.bumpBy_campRecs (ix sub n : Nat) : (c.bumpBy ix sub n).campRecs = c.campRecs := rfl
@[simp] theorem Chip.bumpBy_wd (ix sub n : Nat) : (c.bumpBy ix sub n).wd = c.wd := rfl
@[simp] theorem Chip.bumpBy_panel (ix sub n : Nat) : (c.bumpBy ix sub n).panel = c.panel := rfl
@[simp] theorem Chip.bumpBy_power (ix sub n : Nat) : (c.bumpBy ix sub n).power = c.power := rfl

/-! `bump` -/

@[simp] theorem Chip.bump_now (ix sub : Nat) : (c.bump ix sub).now = c.now := rfl
@[simp] theorem Chip.bump_free (ix sub : Nat) : (c.bump ix sub).free = c.free := rfl
@[simp] theorem Chip.bump_works (ix sub : Nat) : (c.bump ix sub).works = c.works := rfl
@[simp] theorem Chip.bump_dbank (ix sub : Nat) : (c.bump ix sub).dbank = c.dbank := rfl
@[simp] theorem Chip.bump_ibank (ix sub : Nat) : (c.bump ix sub).ibank = c.ibank := rfl
@[simp] theorem Chip.bump_cls (ix sub : Nat) : (c.bump ix sub).cls = c.cls := rfl
@[simp] theorem Chip.bump_regions (ix sub : Nat) : (c.bump ix sub).regions = c.regions := rfl
@[simp] theorem Chip.bump_crossing (ix sub : Nat) : (c.bump ix sub).crossing = c.crossing := rfl
@[simp] theorem Chip.bump_evFlight (ix sub : Nat) : (c.bump ix sub).evFlight = c.evFlight := rfl
@[simp] theorem Chip.bump_pair (ix sub : Nat) : (c.bump ix sub).pair = c.pair := rfl
@[simp] theorem Chip.bump_targets (ix sub : Nat) : (c.bump ix sub).targets = c.targets := rfl
@[simp] theorem Chip.bump_meas (ix sub : Nat) : (c.bump ix sub).meas = c.meas := rfl
@[simp] theorem Chip.bump_field (ix sub : Nat) : (c.bump ix sub).field = c.field := rfl
@[simp] theorem Chip.bump_net (ix sub : Nat) : (c.bump ix sub).net = c.net := rfl
@[simp] theorem Chip.bump_dict (ix sub : Nat) : (c.bump ix sub).dict = c.dict := rfl
@[simp] theorem Chip.bump_store (ix sub : Nat) : (c.bump ix sub).store = c.store := rfl
@[simp] theorem Chip.bump_ident (ix sub : Nat) : (c.bump ix sub).ident = c.ident := rfl
@[simp] theorem Chip.bump_recd (ix sub : Nat) : (c.bump ix sub).recd = c.recd := rfl
@[simp] theorem Chip.bump_die (ix sub : Nat) : (c.bump ix sub).die = c.die := rfl
@[simp] theorem Chip.bump_cal (ix sub : Nat) : (c.bump ix sub).cal = c.cal := rfl
@[simp] theorem Chip.bump_campRecs (ix sub : Nat) : (c.bump ix sub).campRecs = c.campRecs := rfl
@[simp] theorem Chip.bump_wd (ix sub : Nat) : (c.bump ix sub).wd = c.wd := rfl
@[simp] theorem Chip.bump_panel (ix sub : Nat) : (c.bump ix sub).panel = c.panel := rfl
@[simp] theorem Chip.bump_power (ix sub : Nat) : (c.bump ix sub).power = c.power := rfl

/-! `setBit` -/

@[simp] theorem Chip.setBit_now (ix sub i : Nat) (b : Bool) : (c.setBit ix sub i b).now = c.now := rfl
@[simp] theorem Chip.setBit_free (ix sub i : Nat) (b : Bool) : (c.setBit ix sub i b).free = c.free := rfl
@[simp] theorem Chip.setBit_works (ix sub i : Nat) (b : Bool) : (c.setBit ix sub i b).works = c.works := rfl
@[simp] theorem Chip.setBit_dbank (ix sub i : Nat) (b : Bool) : (c.setBit ix sub i b).dbank = c.dbank := rfl
@[simp] theorem Chip.setBit_ibank (ix sub i : Nat) (b : Bool) : (c.setBit ix sub i b).ibank = c.ibank := rfl
@[simp] theorem Chip.setBit_cls (ix sub i : Nat) (b : Bool) : (c.setBit ix sub i b).cls = c.cls := rfl
@[simp] theorem Chip.setBit_regions (ix sub i : Nat) (b : Bool) : (c.setBit ix sub i b).regions = c.regions := rfl
@[simp] theorem Chip.setBit_crossing (ix sub i : Nat) (b : Bool) : (c.setBit ix sub i b).crossing = c.crossing := rfl
@[simp] theorem Chip.setBit_evFlight (ix sub i : Nat) (b : Bool) : (c.setBit ix sub i b).evFlight = c.evFlight := rfl
@[simp] theorem Chip.setBit_pair (ix sub i : Nat) (b : Bool) : (c.setBit ix sub i b).pair = c.pair := rfl
@[simp] theorem Chip.setBit_targets (ix sub i : Nat) (b : Bool) : (c.setBit ix sub i b).targets = c.targets := rfl
@[simp] theorem Chip.setBit_meas (ix sub i : Nat) (b : Bool) : (c.setBit ix sub i b).meas = c.meas := rfl
@[simp] theorem Chip.setBit_field (ix sub i : Nat) (b : Bool) : (c.setBit ix sub i b).field = c.field := rfl
@[simp] theorem Chip.setBit_net (ix sub i : Nat) (b : Bool) : (c.setBit ix sub i b).net = c.net := rfl
@[simp] theorem Chip.setBit_dict (ix sub i : Nat) (b : Bool) : (c.setBit ix sub i b).dict = c.dict := rfl
@[simp] theorem Chip.setBit_store (ix sub i : Nat) (b : Bool) : (c.setBit ix sub i b).store = c.store := rfl
@[simp] theorem Chip.setBit_ident (ix sub i : Nat) (b : Bool) : (c.setBit ix sub i b).ident = c.ident := rfl
@[simp] theorem Chip.setBit_recd (ix sub i : Nat) (b : Bool) : (c.setBit ix sub i b).recd = c.recd := rfl
@[simp] theorem Chip.setBit_die (ix sub i : Nat) (b : Bool) : (c.setBit ix sub i b).die = c.die := rfl
@[simp] theorem Chip.setBit_cal (ix sub i : Nat) (b : Bool) : (c.setBit ix sub i b).cal = c.cal := rfl
@[simp] theorem Chip.setBit_campRecs (ix sub i : Nat) (b : Bool) : (c.setBit ix sub i b).campRecs = c.campRecs := rfl
@[simp] theorem Chip.setBit_wd (ix sub i : Nat) (b : Bool) : (c.setBit ix sub i b).wd = c.wd := rfl
@[simp] theorem Chip.setBit_panel (ix sub i : Nat) (b : Bool) : (c.setBit ix sub i b).panel = c.panel := rfl
@[simp] theorem Chip.setBit_power (ix sub i : Nat) (b : Bool) : (c.setBit ix sub i b).power = c.power := rfl

/-! `setFld` -/

@[simp] theorem Chip.setFld_now (ix sub hi lo v : Nat) : (c.setFld ix sub hi lo v).now = c.now := rfl
@[simp] theorem Chip.setFld_free (ix sub hi lo v : Nat) : (c.setFld ix sub hi lo v).free = c.free := rfl
@[simp] theorem Chip.setFld_works (ix sub hi lo v : Nat) : (c.setFld ix sub hi lo v).works = c.works := rfl
@[simp] theorem Chip.setFld_dbank (ix sub hi lo v : Nat) : (c.setFld ix sub hi lo v).dbank = c.dbank := rfl
@[simp] theorem Chip.setFld_ibank (ix sub hi lo v : Nat) : (c.setFld ix sub hi lo v).ibank = c.ibank := rfl
@[simp] theorem Chip.setFld_cls (ix sub hi lo v : Nat) : (c.setFld ix sub hi lo v).cls = c.cls := rfl
@[simp] theorem Chip.setFld_regions (ix sub hi lo v : Nat) : (c.setFld ix sub hi lo v).regions = c.regions := rfl
@[simp] theorem Chip.setFld_crossing (ix sub hi lo v : Nat) : (c.setFld ix sub hi lo v).crossing = c.crossing := rfl
@[simp] theorem Chip.setFld_evFlight (ix sub hi lo v : Nat) : (c.setFld ix sub hi lo v).evFlight = c.evFlight := rfl
@[simp] theorem Chip.setFld_pair (ix sub hi lo v : Nat) : (c.setFld ix sub hi lo v).pair = c.pair := rfl
@[simp] theorem Chip.setFld_targets (ix sub hi lo v : Nat) : (c.setFld ix sub hi lo v).targets = c.targets := rfl
@[simp] theorem Chip.setFld_meas (ix sub hi lo v : Nat) : (c.setFld ix sub hi lo v).meas = c.meas := rfl
@[simp] theorem Chip.setFld_field (ix sub hi lo v : Nat) : (c.setFld ix sub hi lo v).field = c.field := rfl
@[simp] theorem Chip.setFld_net (ix sub hi lo v : Nat) : (c.setFld ix sub hi lo v).net = c.net := rfl
@[simp] theorem Chip.setFld_dict (ix sub hi lo v : Nat) : (c.setFld ix sub hi lo v).dict = c.dict := rfl
@[simp] theorem Chip.setFld_store (ix sub hi lo v : Nat) : (c.setFld ix sub hi lo v).store = c.store := rfl
@[simp] theorem Chip.setFld_ident (ix sub hi lo v : Nat) : (c.setFld ix sub hi lo v).ident = c.ident := rfl
@[simp] theorem Chip.setFld_recd (ix sub hi lo v : Nat) : (c.setFld ix sub hi lo v).recd = c.recd := rfl
@[simp] theorem Chip.setFld_die (ix sub hi lo v : Nat) : (c.setFld ix sub hi lo v).die = c.die := rfl
@[simp] theorem Chip.setFld_cal (ix sub hi lo v : Nat) : (c.setFld ix sub hi lo v).cal = c.cal := rfl
@[simp] theorem Chip.setFld_campRecs (ix sub hi lo v : Nat) : (c.setFld ix sub hi lo v).campRecs = c.campRecs := rfl
@[simp] theorem Chip.setFld_wd (ix sub hi lo v : Nat) : (c.setFld ix sub hi lo v).wd = c.wd := rfl
@[simp] theorem Chip.setFld_panel (ix sub hi lo v : Nat) : (c.setFld ix sub hi lo v).panel = c.panel := rfl
@[simp] theorem Chip.setFld_power (ix sub hi lo v : Nat) : (c.setFld ix sub hi lo v).power = c.power := rfl

/-! `eventAs` -/

@[simp] theorem Chip.eventAs_now (t : Instant) (code sev : Nat) (fin : Bool) (src unit org csn : Nat) (dtl : List Byte) : (c.eventAs t code sev fin src unit org csn dtl).now = c.now := by unfold Chip.eventAs; split <;> rfl
@[simp] theorem Chip.eventAs_free (t : Instant) (code sev : Nat) (fin : Bool) (src unit org csn : Nat) (dtl : List Byte) : (c.eventAs t code sev fin src unit org csn dtl).free = c.free := by unfold Chip.eventAs; split <;> rfl
@[simp] theorem Chip.eventAs_works (t : Instant) (code sev : Nat) (fin : Bool) (src unit org csn : Nat) (dtl : List Byte) : (c.eventAs t code sev fin src unit org csn dtl).works = c.works := by unfold Chip.eventAs; split <;> rfl
@[simp] theorem Chip.eventAs_dbank (t : Instant) (code sev : Nat) (fin : Bool) (src unit org csn : Nat) (dtl : List Byte) : (c.eventAs t code sev fin src unit org csn dtl).dbank = c.dbank := by unfold Chip.eventAs; split <;> rfl
@[simp] theorem Chip.eventAs_ibank (t : Instant) (code sev : Nat) (fin : Bool) (src unit org csn : Nat) (dtl : List Byte) : (c.eventAs t code sev fin src unit org csn dtl).ibank = c.ibank := by unfold Chip.eventAs; split <;> rfl
@[simp] theorem Chip.eventAs_cls (t : Instant) (code sev : Nat) (fin : Bool) (src unit org csn : Nat) (dtl : List Byte) : (c.eventAs t code sev fin src unit org csn dtl).cls = c.cls := by unfold Chip.eventAs; split <;> rfl
@[simp] theorem Chip.eventAs_regions (t : Instant) (code sev : Nat) (fin : Bool) (src unit org csn : Nat) (dtl : List Byte) : (c.eventAs t code sev fin src unit org csn dtl).regions = c.regions := by unfold Chip.eventAs; split <;> rfl
@[simp] theorem Chip.eventAs_crossing (t : Instant) (code sev : Nat) (fin : Bool) (src unit org csn : Nat) (dtl : List Byte) : (c.eventAs t code sev fin src unit org csn dtl).crossing = c.crossing := by unfold Chip.eventAs; split <;> rfl
@[simp] theorem Chip.eventAs_evFlight (t : Instant) (code sev : Nat) (fin : Bool) (src unit org csn : Nat) (dtl : List Byte) : (c.eventAs t code sev fin src unit org csn dtl).evFlight = c.evFlight := by unfold Chip.eventAs; split <;> rfl
@[simp] theorem Chip.eventAs_pair (t : Instant) (code sev : Nat) (fin : Bool) (src unit org csn : Nat) (dtl : List Byte) : (c.eventAs t code sev fin src unit org csn dtl).pair = c.pair := by unfold Chip.eventAs; split <;> rfl
@[simp] theorem Chip.eventAs_targets (t : Instant) (code sev : Nat) (fin : Bool) (src unit org csn : Nat) (dtl : List Byte) : (c.eventAs t code sev fin src unit org csn dtl).targets = c.targets := by unfold Chip.eventAs; split <;> rfl
@[simp] theorem Chip.eventAs_meas (t : Instant) (code sev : Nat) (fin : Bool) (src unit org csn : Nat) (dtl : List Byte) : (c.eventAs t code sev fin src unit org csn dtl).meas = c.meas := by unfold Chip.eventAs; split <;> rfl
@[simp] theorem Chip.eventAs_field (t : Instant) (code sev : Nat) (fin : Bool) (src unit org csn : Nat) (dtl : List Byte) : (c.eventAs t code sev fin src unit org csn dtl).field = c.field := by unfold Chip.eventAs; split <;> rfl
@[simp] theorem Chip.eventAs_net (t : Instant) (code sev : Nat) (fin : Bool) (src unit org csn : Nat) (dtl : List Byte) : (c.eventAs t code sev fin src unit org csn dtl).net = c.net := by unfold Chip.eventAs; split <;> rfl
@[simp] theorem Chip.eventAs_dict (t : Instant) (code sev : Nat) (fin : Bool) (src unit org csn : Nat) (dtl : List Byte) : (c.eventAs t code sev fin src unit org csn dtl).dict = c.dict := by unfold Chip.eventAs; split <;> rfl
@[simp] theorem Chip.eventAs_store (t : Instant) (code sev : Nat) (fin : Bool) (src unit org csn : Nat) (dtl : List Byte) : (c.eventAs t code sev fin src unit org csn dtl).store = c.store := by unfold Chip.eventAs; split <;> rfl
@[simp] theorem Chip.eventAs_ident (t : Instant) (code sev : Nat) (fin : Bool) (src unit org csn : Nat) (dtl : List Byte) : (c.eventAs t code sev fin src unit org csn dtl).ident = c.ident := by unfold Chip.eventAs; split <;> rfl
@[simp] theorem Chip.eventAs_die (t : Instant) (code sev : Nat) (fin : Bool) (src unit org csn : Nat) (dtl : List Byte) : (c.eventAs t code sev fin src unit org csn dtl).die = c.die := by unfold Chip.eventAs; split <;> rfl
@[simp] theorem Chip.eventAs_cal (t : Instant) (code sev : Nat) (fin : Bool) (src unit org csn : Nat) (dtl : List Byte) : (c.eventAs t code sev fin src unit org csn dtl).cal = c.cal := by unfold Chip.eventAs; split <;> rfl
@[simp] theorem Chip.eventAs_campRecs (t : Instant) (code sev : Nat) (fin : Bool) (src unit org csn : Nat) (dtl : List Byte) : (c.eventAs t code sev fin src unit org csn dtl).campRecs = c.campRecs := by unfold Chip.eventAs; split <;> rfl
@[simp] theorem Chip.eventAs_wd (t : Instant) (code sev : Nat) (fin : Bool) (src unit org csn : Nat) (dtl : List Byte) : (c.eventAs t code sev fin src unit org csn dtl).wd = c.wd := by unfold Chip.eventAs; split <;> rfl
@[simp] theorem Chip.eventAs_panel (t : Instant) (code sev : Nat) (fin : Bool) (src unit org csn : Nat) (dtl : List Byte) : (c.eventAs t code sev fin src unit org csn dtl).panel = c.panel := by unfold Chip.eventAs; split <;> rfl
@[simp] theorem Chip.eventAs_power (t : Instant) (code sev : Nat) (fin : Bool) (src unit org csn : Nat) (dtl : List Byte) : (c.eventAs t code sev fin src unit org csn dtl).power = c.power := by unfold Chip.eventAs; split <;> rfl

/-! `event` -/

@[simp] theorem Chip.event_now (code sev src unit : Nat) (dtl : List Byte) : (c.event code sev src unit dtl).now = c.now := Chip.eventAs_now ..
@[simp] theorem Chip.event_free (code sev src unit : Nat) (dtl : List Byte) : (c.event code sev src unit dtl).free = c.free := Chip.eventAs_free ..
@[simp] theorem Chip.event_works (code sev src unit : Nat) (dtl : List Byte) : (c.event code sev src unit dtl).works = c.works := Chip.eventAs_works ..
@[simp] theorem Chip.event_dbank (code sev src unit : Nat) (dtl : List Byte) : (c.event code sev src unit dtl).dbank = c.dbank := Chip.eventAs_dbank ..
@[simp] theorem Chip.event_ibank (code sev src unit : Nat) (dtl : List Byte) : (c.event code sev src unit dtl).ibank = c.ibank := Chip.eventAs_ibank ..
@[simp] theorem Chip.event_cls (code sev src unit : Nat) (dtl : List Byte) : (c.event code sev src unit dtl).cls = c.cls := Chip.eventAs_cls ..
@[simp] theorem Chip.event_regions (code sev src unit : Nat) (dtl : List Byte) : (c.event code sev src unit dtl).regions = c.regions := Chip.eventAs_regions ..
@[simp] theorem Chip.event_crossing (code sev src unit : Nat) (dtl : List Byte) : (c.event code sev src unit dtl).crossing = c.crossing := Chip.eventAs_crossing ..
@[simp] theorem Chip.event_evFlight (code sev src unit : Nat) (dtl : List Byte) : (c.event code sev src unit dtl).evFlight = c.evFlight := Chip.eventAs_evFlight ..
@[simp] theorem Chip.event_pair (code sev src unit : Nat) (dtl : List Byte) : (c.event code sev src unit dtl).pair = c.pair := Chip.eventAs_pair ..
@[simp] theorem Chip.event_targets (code sev src unit : Nat) (dtl : List Byte) : (c.event code sev src unit dtl).targets = c.targets := Chip.eventAs_targets ..
@[simp] theorem Chip.event_meas (code sev src unit : Nat) (dtl : List Byte) : (c.event code sev src unit dtl).meas = c.meas := Chip.eventAs_meas ..
@[simp] theorem Chip.event_field (code sev src unit : Nat) (dtl : List Byte) : (c.event code sev src unit dtl).field = c.field := Chip.eventAs_field ..
@[simp] theorem Chip.event_net (code sev src unit : Nat) (dtl : List Byte) : (c.event code sev src unit dtl).net = c.net := Chip.eventAs_net ..
@[simp] theorem Chip.event_dict (code sev src unit : Nat) (dtl : List Byte) : (c.event code sev src unit dtl).dict = c.dict := Chip.eventAs_dict ..
@[simp] theorem Chip.event_store (code sev src unit : Nat) (dtl : List Byte) : (c.event code sev src unit dtl).store = c.store := Chip.eventAs_store ..
@[simp] theorem Chip.event_ident (code sev src unit : Nat) (dtl : List Byte) : (c.event code sev src unit dtl).ident = c.ident := Chip.eventAs_ident ..
@[simp] theorem Chip.event_die (code sev src unit : Nat) (dtl : List Byte) : (c.event code sev src unit dtl).die = c.die := Chip.eventAs_die ..
@[simp] theorem Chip.event_cal (code sev src unit : Nat) (dtl : List Byte) : (c.event code sev src unit dtl).cal = c.cal := Chip.eventAs_cal ..
@[simp] theorem Chip.event_campRecs (code sev src unit : Nat) (dtl : List Byte) : (c.event code sev src unit dtl).campRecs = c.campRecs := Chip.eventAs_campRecs ..
@[simp] theorem Chip.event_wd (code sev src unit : Nat) (dtl : List Byte) : (c.event code sev src unit dtl).wd = c.wd := Chip.eventAs_wd ..
@[simp] theorem Chip.event_panel (code sev src unit : Nat) (dtl : List Byte) : (c.event code sev src unit dtl).panel = c.panel := Chip.eventAs_panel ..
@[simp] theorem Chip.event_power (code sev src unit : Nat) (dtl : List Byte) : (c.event code sev src unit dtl).power = c.power := Chip.eventAs_power ..

/-! `eventEnd` -/

@[simp] theorem Chip.eventEnd_now (code sev src unit : Nat) : (c.eventEnd code sev src unit).now = c.now := Chip.eventAs_now ..
@[simp] theorem Chip.eventEnd_free (code sev src unit : Nat) : (c.eventEnd code sev src unit).free = c.free := Chip.eventAs_free ..
@[simp] theorem Chip.eventEnd_works (code sev src unit : Nat) : (c.eventEnd code sev src unit).works = c.works := Chip.eventAs_works ..
@[simp] theorem Chip.eventEnd_dbank (code sev src unit : Nat) : (c.eventEnd code sev src unit).dbank = c.dbank := Chip.eventAs_dbank ..
@[simp] theorem Chip.eventEnd_ibank (code sev src unit : Nat) : (c.eventEnd code sev src unit).ibank = c.ibank := Chip.eventAs_ibank ..
@[simp] theorem Chip.eventEnd_cls (code sev src unit : Nat) : (c.eventEnd code sev src unit).cls = c.cls := Chip.eventAs_cls ..
@[simp] theorem Chip.eventEnd_regions (code sev src unit : Nat) : (c.eventEnd code sev src unit).regions = c.regions := Chip.eventAs_regions ..
@[simp] theorem Chip.eventEnd_crossing (code sev src unit : Nat) : (c.eventEnd code sev src unit).crossing = c.crossing := Chip.eventAs_crossing ..
@[simp] theorem Chip.eventEnd_evFlight (code sev src unit : Nat) : (c.eventEnd code sev src unit).evFlight = c.evFlight := Chip.eventAs_evFlight ..
@[simp] theorem Chip.eventEnd_pair (code sev src unit : Nat) : (c.eventEnd code sev src unit).pair = c.pair := Chip.eventAs_pair ..
@[simp] theorem Chip.eventEnd_targets (code sev src unit : Nat) : (c.eventEnd code sev src unit).targets = c.targets := Chip.eventAs_targets ..
@[simp] theorem Chip.eventEnd_meas (code sev src unit : Nat) : (c.eventEnd code sev src unit).meas = c.meas := Chip.eventAs_meas ..
@[simp] theorem Chip.eventEnd_field (code sev src unit : Nat) : (c.eventEnd code sev src unit).field = c.field := Chip.eventAs_field ..
@[simp] theorem Chip.eventEnd_net (code sev src unit : Nat) : (c.eventEnd code sev src unit).net = c.net := Chip.eventAs_net ..
@[simp] theorem Chip.eventEnd_dict (code sev src unit : Nat) : (c.eventEnd code sev src unit).dict = c.dict := Chip.eventAs_dict ..
@[simp] theorem Chip.eventEnd_store (code sev src unit : Nat) : (c.eventEnd code sev src unit).store = c.store := Chip.eventAs_store ..
@[simp] theorem Chip.eventEnd_ident (code sev src unit : Nat) : (c.eventEnd code sev src unit).ident = c.ident := Chip.eventAs_ident ..
@[simp] theorem Chip.eventEnd_die (code sev src unit : Nat) : (c.eventEnd code sev src unit).die = c.die := Chip.eventAs_die ..
@[simp] theorem Chip.eventEnd_cal (code sev src unit : Nat) : (c.eventEnd code sev src unit).cal = c.cal := Chip.eventAs_cal ..
@[simp] theorem Chip.eventEnd_campRecs (code sev src unit : Nat) : (c.eventEnd code sev src unit).campRecs = c.campRecs := Chip.eventAs_campRecs ..
@[simp] theorem Chip.eventEnd_wd (code sev src unit : Nat) : (c.eventEnd code sev src unit).wd = c.wd := Chip.eventAs_wd ..
@[simp] theorem Chip.eventEnd_panel (code sev src unit : Nat) : (c.eventEnd code sev src unit).panel = c.panel := Chip.eventAs_panel ..
@[simp] theorem Chip.eventEnd_power (code sev src unit : Nat) : (c.eventEnd code sev src unit).power = c.power := Chip.eventAs_power ..

/-! `persist` -/

@[simp] theorem Chip.persist_now (knd ix sub : Nat) (pay : List Byte) : (c.persist knd ix sub pay).now = c.now := rfl
@[simp] theorem Chip.persist_free (knd ix sub : Nat) (pay : List Byte) : (c.persist knd ix sub pay).free = c.free := rfl
@[simp] theorem Chip.persist_works (knd ix sub : Nat) (pay : List Byte) : (c.persist knd ix sub pay).works = c.works := rfl
@[simp] theorem Chip.persist_dbank (knd ix sub : Nat) (pay : List Byte) : (c.persist knd ix sub pay).dbank = c.dbank := rfl
@[simp] theorem Chip.persist_ibank (knd ix sub : Nat) (pay : List Byte) : (c.persist knd ix sub pay).ibank = c.ibank := rfl
@[simp] theorem Chip.persist_cls (knd ix sub : Nat) (pay : List Byte) : (c.persist knd ix sub pay).cls = c.cls := rfl
@[simp] theorem Chip.persist_regions (knd ix sub : Nat) (pay : List Byte) : (c.persist knd ix sub pay).regions = c.regions := rfl
@[simp] theorem Chip.persist_crossing (knd ix sub : Nat) (pay : List Byte) : (c.persist knd ix sub pay).crossing = c.crossing := rfl
@[simp] theorem Chip.persist_evFlight (knd ix sub : Nat) (pay : List Byte) : (c.persist knd ix sub pay).evFlight = c.evFlight := rfl
@[simp] theorem Chip.persist_pair (knd ix sub : Nat) (pay : List Byte) : (c.persist knd ix sub pay).pair = c.pair := rfl
@[simp] theorem Chip.persist_targets (knd ix sub : Nat) (pay : List Byte) : (c.persist knd ix sub pay).targets = c.targets := rfl
@[simp] theorem Chip.persist_meas (knd ix sub : Nat) (pay : List Byte) : (c.persist knd ix sub pay).meas = c.meas := rfl
@[simp] theorem Chip.persist_field (knd ix sub : Nat) (pay : List Byte) : (c.persist knd ix sub pay).field = c.field := rfl
@[simp] theorem Chip.persist_net (knd ix sub : Nat) (pay : List Byte) : (c.persist knd ix sub pay).net = c.net := rfl
@[simp] theorem Chip.persist_dict (knd ix sub : Nat) (pay : List Byte) : (c.persist knd ix sub pay).dict = c.dict := rfl
@[simp] theorem Chip.persist_ident (knd ix sub : Nat) (pay : List Byte) : (c.persist knd ix sub pay).ident = c.ident := rfl
@[simp] theorem Chip.persist_recd (knd ix sub : Nat) (pay : List Byte) : (c.persist knd ix sub pay).recd = c.recd := rfl
@[simp] theorem Chip.persist_die (knd ix sub : Nat) (pay : List Byte) : (c.persist knd ix sub pay).die = c.die := rfl
@[simp] theorem Chip.persist_cal (knd ix sub : Nat) (pay : List Byte) : (c.persist knd ix sub pay).cal = c.cal := rfl
@[simp] theorem Chip.persist_campRecs (knd ix sub : Nat) (pay : List Byte) : (c.persist knd ix sub pay).campRecs = c.campRecs := rfl
@[simp] theorem Chip.persist_wd (knd ix sub : Nat) (pay : List Byte) : (c.persist knd ix sub pay).wd = c.wd := rfl
@[simp] theorem Chip.persist_panel (knd ix sub : Nat) (pay : List Byte) : (c.persist knd ix sub pay).panel = c.panel := rfl
@[simp] theorem Chip.persist_power (knd ix sub : Nat) (pay : List Byte) : (c.persist knd ix sub pay).power = c.power := rfl

/-! `send` -/

@[simp] theorem Chip.send_now (f : OnbexOut) : (c.send f).now = c.now := by unfold Chip.send; split <;> rfl
@[simp] theorem Chip.send_free (f : OnbexOut) : (c.send f).free = c.free := by unfold Chip.send; split <;> rfl
@[simp] theorem Chip.send_regs (f : OnbexOut) : (c.send f).regs = c.regs := by unfold Chip.send; split <;> rfl
@[simp] theorem Chip.send_works (f : OnbexOut) : (c.send f).works = c.works := by unfold Chip.send; split <;> rfl
@[simp] theorem Chip.send_dbank (f : OnbexOut) : (c.send f).dbank = c.dbank := by unfold Chip.send; split <;> rfl
@[simp] theorem Chip.send_ibank (f : OnbexOut) : (c.send f).ibank = c.ibank := by unfold Chip.send; split <;> rfl
@[simp] theorem Chip.send_cls (f : OnbexOut) : (c.send f).cls = c.cls := by unfold Chip.send; split <;> rfl
@[simp] theorem Chip.send_regions (f : OnbexOut) : (c.send f).regions = c.regions := by unfold Chip.send; split <;> rfl
@[simp] theorem Chip.send_crossing (f : OnbexOut) : (c.send f).crossing = c.crossing := by unfold Chip.send; split <;> rfl
@[simp] theorem Chip.send_evFlight (f : OnbexOut) : (c.send f).evFlight = c.evFlight := by unfold Chip.send; split <;> rfl
@[simp] theorem Chip.send_targets (f : OnbexOut) : (c.send f).targets = c.targets := by unfold Chip.send; split <;> rfl
@[simp] theorem Chip.send_meas (f : OnbexOut) : (c.send f).meas = c.meas := by unfold Chip.send; split <;> rfl
@[simp] theorem Chip.send_field (f : OnbexOut) : (c.send f).field = c.field := by unfold Chip.send; split <;> rfl
@[simp] theorem Chip.send_net (f : OnbexOut) : (c.send f).net = c.net := by unfold Chip.send; split <;> rfl
@[simp] theorem Chip.send_dict (f : OnbexOut) : (c.send f).dict = c.dict := by unfold Chip.send; split <;> rfl
@[simp] theorem Chip.send_store (f : OnbexOut) : (c.send f).store = c.store := by unfold Chip.send; split <;> rfl
@[simp] theorem Chip.send_ident (f : OnbexOut) : (c.send f).ident = c.ident := by unfold Chip.send; split <;> rfl
@[simp] theorem Chip.send_recd (f : OnbexOut) : (c.send f).recd = c.recd := by unfold Chip.send; split <;> rfl
@[simp] theorem Chip.send_die (f : OnbexOut) : (c.send f).die = c.die := by unfold Chip.send; split <;> rfl
@[simp] theorem Chip.send_cal (f : OnbexOut) : (c.send f).cal = c.cal := by unfold Chip.send; split <;> rfl
@[simp] theorem Chip.send_campRecs (f : OnbexOut) : (c.send f).campRecs = c.campRecs := by unfold Chip.send; split <;> rfl
@[simp] theorem Chip.send_wd (f : OnbexOut) : (c.send f).wd = c.wd := by unfold Chip.send; split <;> rfl
@[simp] theorem Chip.send_panel (f : OnbexOut) : (c.send f).panel = c.panel := by unfold Chip.send; split <;> rfl
@[simp] theorem Chip.send_power (f : OnbexOut) : (c.send f).power = c.power := by unfold Chip.send; split <;> rfl
@[simp] theorem Chip.send_rd (f : OnbexOut) (i j : Nat) : (c.send f).rd i j = c.rd i j := Chip.rd_congr (by simp) i j

/-! `answer` -/

@[simp] theorem Chip.answer_now (sid : Option Nat) (csn ctr : Nat) (b : AnsBody) : (c.answer sid csn ctr b).now = c.now := rfl
@[simp] theorem Chip.answer_free (sid : Option Nat) (csn ctr : Nat) (b : AnsBody) : (c.answer sid csn ctr b).free = c.free := rfl
@[simp] theorem Chip.answer_regs (sid : Option Nat) (csn ctr : Nat) (b : AnsBody) : (c.answer sid csn ctr b).regs = c.regs := rfl
@[simp] theorem Chip.answer_works (sid : Option Nat) (csn ctr : Nat) (b : AnsBody) : (c.answer sid csn ctr b).works = c.works := rfl
@[simp] theorem Chip.answer_dbank (sid : Option Nat) (csn ctr : Nat) (b : AnsBody) : (c.answer sid csn ctr b).dbank = c.dbank := rfl
@[simp] theorem Chip.answer_ibank (sid : Option Nat) (csn ctr : Nat) (b : AnsBody) : (c.answer sid csn ctr b).ibank = c.ibank := rfl
@[simp] theorem Chip.answer_cls (sid : Option Nat) (csn ctr : Nat) (b : AnsBody) : (c.answer sid csn ctr b).cls = c.cls := rfl
@[simp] theorem Chip.answer_regions (sid : Option Nat) (csn ctr : Nat) (b : AnsBody) : (c.answer sid csn ctr b).regions = c.regions := rfl
@[simp] theorem Chip.answer_crossing (sid : Option Nat) (csn ctr : Nat) (b : AnsBody) : (c.answer sid csn ctr b).crossing = c.crossing := rfl
@[simp] theorem Chip.answer_evFlight (sid : Option Nat) (csn ctr : Nat) (b : AnsBody) : (c.answer sid csn ctr b).evFlight = c.evFlight := rfl
@[simp] theorem Chip.answer_pair (sid : Option Nat) (csn ctr : Nat) (b : AnsBody) : (c.answer sid csn ctr b).pair = c.pair := rfl
@[simp] theorem Chip.answer_targets (sid : Option Nat) (csn ctr : Nat) (b : AnsBody) : (c.answer sid csn ctr b).targets = c.targets := rfl
@[simp] theorem Chip.answer_meas (sid : Option Nat) (csn ctr : Nat) (b : AnsBody) : (c.answer sid csn ctr b).meas = c.meas := rfl
@[simp] theorem Chip.answer_field (sid : Option Nat) (csn ctr : Nat) (b : AnsBody) : (c.answer sid csn ctr b).field = c.field := rfl
@[simp] theorem Chip.answer_net (sid : Option Nat) (csn ctr : Nat) (b : AnsBody) : (c.answer sid csn ctr b).net = c.net := rfl
@[simp] theorem Chip.answer_store (sid : Option Nat) (csn ctr : Nat) (b : AnsBody) : (c.answer sid csn ctr b).store = c.store := rfl
@[simp] theorem Chip.answer_ident (sid : Option Nat) (csn ctr : Nat) (b : AnsBody) : (c.answer sid csn ctr b).ident = c.ident := rfl
@[simp] theorem Chip.answer_recd (sid : Option Nat) (csn ctr : Nat) (b : AnsBody) : (c.answer sid csn ctr b).recd = c.recd := rfl
@[simp] theorem Chip.answer_die (sid : Option Nat) (csn ctr : Nat) (b : AnsBody) : (c.answer sid csn ctr b).die = c.die := rfl
@[simp] theorem Chip.answer_cal (sid : Option Nat) (csn ctr : Nat) (b : AnsBody) : (c.answer sid csn ctr b).cal = c.cal := rfl
@[simp] theorem Chip.answer_campRecs (sid : Option Nat) (csn ctr : Nat) (b : AnsBody) : (c.answer sid csn ctr b).campRecs = c.campRecs := rfl
@[simp] theorem Chip.answer_wd (sid : Option Nat) (csn ctr : Nat) (b : AnsBody) : (c.answer sid csn ctr b).wd = c.wd := rfl
@[simp] theorem Chip.answer_panel (sid : Option Nat) (csn ctr : Nat) (b : AnsBody) : (c.answer sid csn ctr b).panel = c.panel := rfl
@[simp] theorem Chip.answer_power (sid : Option Nat) (csn ctr : Nat) (b : AnsBody) : (c.answer sid csn ctr b).power = c.power := rfl
@[simp] theorem Chip.answer_rd (sid : Option Nat) (csn ctr : Nat) (b : AnsBody) (i j : Nat) : (c.answer sid csn ctr b).rd i j = c.rd i j := Chip.rd_congr (by simp) i j

/-! ### Registers -/

/-- Keys of registers differ with their index and subindex. -/
theorem regKey_ne (i j ix sub : Nat) (hj : j < 256) (hs : sub < 256) (h : i ≠ ix ∨ j ≠ sub) : regKey i j ≠ regKey ix sub := by
  unfold regKey; omega

@[simp] theorem Chip.rd_bumpBy_same (ix sub n : Nat) : (c.bumpBy ix sub n).rd ix sub = (c.rd ix sub + n) % 2 ^ 48 := Chip.rd_wr_same ..
@[simp] theorem Chip.rd_bump_same (ix sub : Nat) : (c.bump ix sub).rd ix sub = (c.rd ix sub + 1) % 2 ^ 48 := Chip.rd_wr_same ..
theorem Chip.rd_bump_other (ix sub i j : Nat) (h : regKey i j ≠ regKey ix sub) : (c.bump ix sub).rd i j = c.rd i j :=
  Chip.rd_wr_other _ _ _ _ _ _ h
theorem Chip.rd_setBit_other (ix sub n : Nat) (b : Bool) (i j : Nat) (h : regKey i j ≠ regKey ix sub) :
    (c.setBit ix sub n b).rd i j = c.rd i j := Chip.rd_wr_other _ _ _ _ _ _ h
theorem Chip.rd_setFld_other (ix sub hi lo v : Nat) (i j : Nat) (h : regKey i j ≠ regKey ix sub) :
    (c.setFld ix sub hi lo v).rd i j = c.rd i j := Chip.rd_wr_other _ _ _ _ _ _ h

/-- A queued event changes no register but the count of drops, 0x2B00.09. -/
theorem Chip.rd_eventAs (t : Instant) (code sev : Nat) (fin : Bool) (src unit org csn : Nat) (dtl : List Byte) (i j : Nat)
    (h : regKey i j ≠ regKey 0x2B00 0x09) : (c.eventAs t code sev fin src unit org csn dtl).rd i j = c.rd i j := by
  unfold Chip.eventAs
  split
  · rfl
  · exact Chip.rd_bump_other c _ _ _ _ h
theorem Chip.rd_event (code sev src unit : Nat) (dtl : List Byte) (i j : Nat) (h : regKey i j ≠ regKey 0x2B00 0x09) :
    (c.event code sev src unit dtl).rd i j = c.rd i j := Chip.rd_eventAs c _ _ _ _ _ _ _ _ _ _ _ h
/-- A queued parameter record changes no register but the count of those that wait, 0x2D00.03. -/
theorem Chip.rd_persist (knd ix sub : Nat) (pay : List Byte) (i j : Nat) (h : regKey i j ≠ regKey 0x2D00 0x03) :
    (c.persist knd ix sub pay).rd i j = c.rd i j := Chip.rd_wr_other _ _ _ _ _ _ h

/-- What an answer adds. -/
@[simp] theorem Chip.answer_answers (sid : Option Nat) (csn ctr : Nat) (b : AnsBody) :
    (c.answer sid csn ctr b).dict.answers = c.dict.answers ++ [⟨sid, csn, ctr % 2 ^ 16, b⟩] := rfl

/-! ### Writes of the dictionary -/

/-- A row whose meaning is a write of its own entry, with an owner that succeeds where the row's condition holds. -/
theorem writes_of_writeOwn (s : State) (a : Acc) (v : Nat) (data : List Byte) (i : Instr) (ix sub : Nat) (cond : Chip → Prop)
    (eff : Chip → Who → Chip) (own : Chip → Who → Except Nat Chip) (hx : exec i s = s.onChip (fun c => c.writeOwn a ix sub v data own))
    (ho : ∀ c w, s.chip.admits a ix sub v data = some (c, w) → cond c → own c w = .ok (eff c w)) :
    Writes s a v data (i, ix, sub, cond, eff) := by
  intro c w ha hc
  have hw := ho c w ha hc
  simp only [Chip.admits] at ha
  unfold Gives
  rw [hx]
  simp only [State.onChip, Chip.writeOwn]
  split at ha
  · split at ha
    · cases ha
    · split at ha
      · cases ha
      · cases ha
        simp_all
  · cases ha

/-- The same where the owner refuses with an abort code. -/
theorem refuses_of_writeOwn (s : State) (a : Acc) (v : Nat) (data : List Byte) (i : Instr) (ix sub code : Nat)
    (own : Chip → Who → Except Nat Chip) (hx : exec i s = s.onChip (fun c => c.writeOwn a ix sub v data own)) (c : Chip) (w : Who)
    (ha : s.chip.admits a ix sub v data = some (c, w)) (ho : own c w = .error code) : Gives s i (c.refuse w code) := by
  simp only [Chip.admits] at ha
  unfold Gives
  rw [hx]
  simp only [State.onChip, Chip.writeOwn]
  split at ha
  · split at ha
    · cases ha
    · split at ha
      · cases ha
      · cases ha
        simp_all [Chip.conclude]
  · cases ha

end Sys2Proof.Machine
end

