-- ==== Sys2Proof/Tests/Slice0.lean ====
section
/-! SUPPORT. Tests of one step or one decode each: what well-formedness refuses, words written out from the encoding tables, values
that the specification states, and for every statement of Certificates/Slice0 that has hypotheses a state that meets them. -/

namespace Sys2Proof.Tests

open Sys2Proof Sys2Proof.Machine

set_option Elab.async false

/-! ### Well-formedness: for each check a command it refuses -/

/-- An operation of engine 0, guarded by P0, the last of its bundle. -/
def o : Op := ⟨0, 0, false, true⟩
/-- A write access over the SDO path, of one value byte. -/
def sdo : Acc := ⟨1000000, none, 0, 0, 1, 0, {}⟩
/-- A frame from the partner with number 1 and this content. -/
def frame (f : OnbexOut) : Rx := rxOf 1000000 f 1

theorem test_wf_refuses_operands : (Instr.ldBa o (.dsp 0 48)).wf = false ∧ (Instr.ldBa o (.dsp 0 47)).wf = true ∧
    (Instr.mfs o 0 1 6).wf = false ∧ (Instr.mfs o 0 1 5).wf = true ∧ (Instr.dadd o 3 2 4).wf = false ∧
    (Instr.dadd o 0 2 4).wf = false ∧ (Instr.dadd o 2 4 6).wf = true := by decide
theorem test_wf_refuses_forms : (Instr.min o 1 2 (.imm 3) 1).wf = false ∧ (Instr.min o 1 2 (.reg 3) 1).wf = true := by decide
theorem test_wf_refuses_time_pairs : (Instr.heartbeat (frame (.abdicate 7)) 0 false ⟨0, toWord (1000000000 * 2 ^ 18)⟩ ⟨0, 0⟩).wf = false ∧
    (Instr.heartbeat (frame (.abdicate 7)) 0 false ⟨0, toWord (999999999 * 2 ^ 18)⟩ ⟨0, 0⟩).wf = true := by decide +kernel
theorem test_wf_refuses_accesses : (Instr.stop { sdo with sid := some (2 ^ 32) } 0x10).wf = false ∧ (Instr.stop sdo 0x10).wf = true := by
  decide
theorem test_wf_refuses_messages : (Instr.keepalive ⟨0, some 1, 2 ^ 32, 0, {}, {}⟩).wf = false ∧ (Instr.keepalive ⟨0, some 1, 1, 0, {}, {}⟩).wf = true := by
  decide
theorem test_wf_refuses_frames : (Instr.nak { frame (.nak 0) with payload := List.replicate 4097 0 } 0).wf = false ∧
    (Instr.nak (frame (.nak 0)) 0).wf = true := by decide +kernel

/-! ### Words of Tables 03-16, 03-17 and 04-19, and words written out from the encodings -/

theorem test_decode_slot_b : decodeOp 0 true false 0 .b 0x30304807 = some (.andBa ⟨0, 3, false, true⟩ (.io 0x0120 7)) ∧
    decodeOp 0 true false 0 .b 0x01500400 = some (.orBa o (.dsp 0x10 0)) ∧
    decodeOp 0 true false 0 .b 0x00401001 = some (.andnBa o (.io 0x40 1)) ∧
    decodeOp 0 true false 0 .b 0x0300020F = some (.ton o 2 3 3) := by decide +kernel
theorem test_decode_slot_a : decodeOp 0 true false 0 .a 0x00110414 = some (.add o 4 4 (.reg 5)) ∧
    decodeOp 0 true false 0 .a 0x0211C780 = some (.add o 7 7 (.imm 0x80)) ∧
    decodeOp 0 true false 0 .a 0x02008060 = some (.mov o 2 0x60) := by decide +kernel
theorem test_decode_slot_m : decodeOp 0 true false 0 .m 0x0012420C = some (.ldD o 9 2 (.imm 0x0C)) := by decide +kernel
theorem test_decode_slot_c : decodeOp 0 true false 0 .c 0 = some (.nop 0 true) ∧
    decodeOp 0 true false 0 .c 0x06001E84 = some (.imm 0 true false 0x1E84) ∧
    decodeOp 0 true false 0 .c 0x02000000 = some (.eoc o 0) := by decide +kernel

/-! ### Values that the specification works out -/

/-- The example of chapter 00 after R5: 1 900 000 000.5 s TAI, ACC 0x21, SYN. -/
theorem test_time_pair : TimePair.of 1900000000500000000 0x2180 = ⟨0x0000713FB300, 0x773594002180⟩ ∧
    (TimePair.of 1900000000500000000 0x2180).instant = 1900000000500000000 ∧ tickNo 1900000000500000000 % 16000 = 8000 := by decide +kernel
/-- The example after Table 04-13: the decimal adjust of 0x00000000000A is 0x000000000010. -/
theorem test_decimal_adjust : bcdOf (bcdVal 0x00000000000A % 10 ^ 12) = 0x000000000010 := by decide +kernel
/-- Table 13-3: the windows of a roll call of 100 ms with the window 40 000 to 60 000 µs. -/
theorem test_roll_call_windows : let x : Member := ⟨true, 100000, 40000, 60000, 0, some 0, 0, false, none, ⟨0, 0⟩, false, false, false⟩
    (openTick x 0 1, closeTick x 0 1) = (2950, 3605) ∧ (openTick x 0 2, closeTick x 0 2) = (6226, 6882) ∧
      (openTick x 0 3, closeTick x 0 3) = (9503, 10159) ∧ closeTick x 0 4 = 13435 := by decide +kernel
/-- The example of R312: with the defaults and an own transceiver loop of 130 ns, an edge after 1 250 ns gives δ = 1 120 ns, which is 100 m. -/
theorem test_can_distance : (Chip.reset.wr 0x2920 0x11 130).canDistance 0 100 = 100 := by decide +kernel
/-- R367: leap years. -/
theorem test_leap_years : monthDays 2000 2 = 29 ∧ monthDays 2100 2 = 28 ∧ monthDays 2400 2 = 29 ∧ monthDays 2004 2 = 29 := by decide +kernel
/-- R39: a class with period 3 musters every 187.5 µs. -/
theorem test_releases : cfgReleased { (default : ClsCfg) with period := 3, phase := 0 } (tickNo 187500) = true ∧
    cfgReleased { (default : ClsCfg) with period := 3, phase := 0 } (tickNo 62500) = false := by decide +kernel


/-! ### The loader's checks of code: R83, R84, R107, R134, R81, R62 -/

/-- A bundle of operations, each in the slot of its encoding. -/
def bundleOf (l : List Instr) : Nat := (l.map (fun i => match encodeOp i with
  | some (.b, w) => w.toNat
  | some (.a, w) => w.toNat * 2 ^ 32
  | some (.m, w) => w.toNat * 2 ^ 64
  | some (.c, w) => w.toNat * 2 ^ 96
  | none => 0)).sum
/-- The check of an image with one class on engine 0 and this code. -/
def checkOf (det : Bool) (code : List (List Instr)) : Nat :=
  Chip.reset.appCheck 0 { (default : AppImage) with
    interval := 2000
    classes := [{ (default : ClsCfg) with members := 1, period := 1, offset := 40000, overrun := 1, det := det, entries := [0], part := [(0, 64)] }]
    code := [(0, (code.zipIdx).map (fun p => (p.2, bundleOf p.1)))] }
theorem test_verifier_structure : checkOf false [[.push o], [.popa o], [.eoc o 0]] = 0 ∧ checkOf false [[.popa o], [.eoc o 0]] = 9 ∧
    checkOf false [[.ret o], [], [], [.eoc o 0]] = 9 ∧ checkOf false [[.loop o 2 (.count 3)], [], [], [.eoc o 0]] = 0 ∧
    checkOf false [[.loop o 2 (.count 3)], [], [.br o (.bundle 3)], [.eoc o 0]] = 9 := by decide +kernel
theorem test_verifier_collisions_and_determinism :
    checkOf false [[.ldD o 3 0 (.imm 5)], [], [.add o 3 0 (.imm 1)], [.eoc o 0]] = 7 ∧
    checkOf false [[.ldD o 3 0 (.imm 5)], [.add o 3 0 (.imm 1)], [.eoc o 0]] = 0 ∧
    checkOf true [[.mfs o 0 3 3], [.eoc o 0]] = 8 ∧ checkOf false [[.mfs o 0 3 3], [.eoc o 0]] = 0 := by decide +kernel
/-- The ledger slot and the undo entry in the words of Tables 05-2 to 05-4 and back. -/
theorem test_ledger_words : let x : LedgerSlot := ⟨{ Arch.entry 5 with ba := true, rung := [true, false], ret := [7] }, 9, 3, false, 12⟩
    slotOf (slotWord x) = x ∧ undoOf (undoBits (.sent 3 0x81)) = .sent 3 0x81 ∧ undoOf (undoBits (.mark 5)) = .mark 5 := by decide +kernel
/-! ### Engines: witnesses -/

/-- A chip whose engine position 0 is this work. -/
def chipOf (w : Work) : Chip := { Chip.reset with works := [w] }
/-- An issuing work. -/
def busy : Work := { Work.reset with run := .issuing }
/-- A class with members at positions 0 and 1, period 1 tick, dispatch 20 µs after the muster; it owns I/O word 0x100. -/
def cfg : ClsCfg := { (default : ClsCfg) with
  members := 3, period := 1, offset := 20000, overrun := 1, auto := true, entries := [16, 32], part := [(0, 64)], owned := [0x100] }
/-- The cycle of that class released at 1 s. -/
def cyc : Cycle := ⟨1000000000, ⟨1, 0⟩, 1000020000, 5, 0, none, false, [], [], false, false, []⟩
/-- A chip with that class in state 2; its position 0 is the work given. -/
def team (w : Work) : Chip := { Chip.reset with
  works := [w, busy], cls := [{ Cls.reset with cfg := some cfg, cycle := some cyc }], regs := [(regKey 0x2210 0x08, 2)] }

/-- The premise of the statements on results, loads, stores, ladder and control operations: an operation alone in its bundle. Bounds
within them: special register 5 and 6, bit 47 and 48, a shift by 48, division by zero and of the least number by -1. -/
theorem test_witness_alone : Alone (chipOf busy) o ∧ Alone (team busy) o := by
  unfold Alone Ready Fresh; decide +kernel
theorem test_witness_alone_control : AloneCtl (chipOf busy) o ∧ AloneCtl (team busy) o := by
  unfold AloneCtl Alone Ready Fresh; decide +kernel
theorem test_witness_IntegerFunctionsAndSpecialRegisters : ((5 : RegNo).toNat < 6 ∧ ¬ (6 : RegNo).toNat < 6) ∧
    amount (toWord 48) = 48 ∧ (0x800000000000 : Word).toInt = -(2 ^ 47) ∧ (0xFFFFFFFFFFFF : Word).toInt = -1 := by decide +kernel
theorem test_witness_WritesOfZeroRegistersAreDiscarded : predOf 0 = 0 ∧ predOf 16 = 0 := by decide
theorem test_witness_SquashedOperationsDoNothingAndIllegalOnesFault :
    (∀ i ∈ [Instr.add ⟨0, 0, true, true⟩ 1 2 (.reg 3), .br ⟨0, 0, true, true⟩ (.bundle 9), .tadd ⟨0, 0, true, true⟩ 2 4 1],
      i.op = some ⟨0, 0, true, true⟩ ∧ operandsLegal i = true) ∧
    guardOk (chipOf busy |>.work 0) ⟨0, 0, true, true⟩ = false ∧ profD ((chipOf busy).work 0) = false ∧
    ((chipOf busy).work 0).delay = 0 := by decide +kernel
theorem test_witness_BundlesGatherAndTakeEffectWhole_gather : (⟨0, 0, false, false⟩ : Op).last = false ∧
    ((chipOf busy).work 0).run = .issuing ∧ (Chip.reset.work 0).run ≠ .issuing := by decide
theorem test_witness_BundlesGatherAndTakeEffectWhole :
    let w := (chipOf { busy with bundle := ⟨[.dmem 5 7], none, none, none, [.m]⟩ }).work 0
    w.run = .issuing ∧ w.bundle = ⟨[.dmem 5 7], none, none, none, [.m]⟩ ∧ guardOk w o = true ∧ dueAt w.flights w.issued = [] ∧
      storesCollide [.dmem 5 7] = false ∧ addrOf w 15 0 (.imm 5) = 5 ∧ addrOf w 15 0 (.imm 6) = 6 ∧
      (∀ u, Eff.dmem 6 u ∉ [Eff.dmem 5 7]) := by
  refine ⟨by decide +kernel, by decide +kernel, by decide +kernel, by decide +kernel, by decide +kernel, by decide +kernel,
    by decide +kernel, fun u => by simp⟩
theorem test_witness_BundlesGatherAndTakeEffectWhole_imm : Ready (chipOf busy) 0 ∧ Ready (chipOf { busy with delay := 1 }) 0 ∧
    ({ busy with bundle := ⟨[], none, some (true, 1), none, [.c]⟩ } : Work).bundle.imm = some (true, 1) := by
  unfold Ready Fresh; decide +kernel
theorem test_witness_SquashedOperationsDoNothingAndIllegalOnesFault_illegal : Ready (chipOf busy) 0 ∧ operandsLegal (.ldBa o (.dsp 0 48)) = false ∧
    profileOnly (.badd o 1 2 3) = some true ∧ profD ((chipOf busy).work 0) = false ∧ isControl (.br o (.bundle 0)) = true ∧
    Ready (chipOf { busy with delay := 2 }) 0 ∧ decodeOp 0 true false 0 .c 0x07F00000 = none := by
  unfold Ready Fresh; decide +kernel
theorem test_witness_ResultsLandAtTheirBundleOrCollide :
    (let l : List Flight := [⟨1, .g 5, 7⟩, ⟨1, .p 15, 1⟩, ⟨2, .ba, 1⟩]; ∀ f ∈ l, f.due = busy.issued + 1 → meets l f = false) ∧
    meets [⟨1, .g 5, 7⟩, ⟨1, .g 5, 8⟩] ⟨1, .g 5, 7⟩ = true ∧ NoneDue busy .ba ∧
    (let w := (chipOf { busy with flights := [⟨0, .g 5, 7⟩] }).work 0; w.bundle = emptyBundle ∧ dueAt w.flights w.issued ≠ []) := by
  unfold NoneDue; decide +kernel
theorem test_witness_AResultOrStoreChangesOnePlace : (∀ f ∈ busy.flights, f.due ≠ busy.issued + 1) ∧ busy.delay = 0 ∧
    busy.arch.loops = [] ∧ (team busy).classOf 0 = some 0 ∧ ((team busy).cl 0).cycle = some cyc ∧
    Undo.dword 3 4 ∈ ({ busy with undo := [.dword 3 4] } : Work).undo := by decide +kernel
theorem test_witness_AProgramFaultOrEocEndsTheWork : (team busy).classOf 0 = some 0 ∧ (∃ m ∈ clsTeam ((team busy).cl 0), m ≠ 0 ∧
      ((team busy).work m).run = .issuing) ∧ 2 ∉ clsTeam ((team busy).cl 0) ∧ ((team busy).cl 0).held = none := by decide +kernel
theorem test_witness_IssueFollowsControl : busy.delay = 0 ∧ busy.arch.loops = [] := by decide
theorem test_witness_AProgramFaultOrEocEndsTheWork_eoc : Alone (team busy) o ∧ ((team busy).work 0).delay = 0 ∧
    (team busy).classOf o.eng.val = some 0 ∧ ((team busy).cl 0).cycle = some cyc ∧ (clsTeam ((team busy).cl 0)).length = 2 := by
  unfold Alone Ready Fresh; decide +kernel
theorem test_witness_EventsAndTimedWaitsHoldAndRelease : NMem.has [(3, 1)] 3 = true ∧ NMem.has busy.flags 3 = false ∧
    (let c : Chip := { team { busy with run := .waitEvent 3 } with evFlight := [⟨0, 3, 50⟩, ⟨1, 3, 50⟩] };
      c.evFlight[0]? = some ⟨0, 3, 50⟩ ∧ (c.work 0).run = .waitEvent 3 ∧ (c.work 1).run ≠ .waitEvent 3) ∧
    (let c := team { busy with run := .waitTk 500 };
      (c.work 0).run = .waitTk 500 ∧ c.tkAt 0 1000000500 = 500 ∧ c.tkAt 0 1000000499 = 499) := by decide +kernel
/-- A chip whose position 0 has bundle 9 as a check point with this signature and as a milestone point. -/
def checked (w : Work) (sig : Nat) : Chip :=
  (chipOf w).modRegion 0 (fun r => { r with image := some { (default : AppImage) with checks := [(0, [(9, sig)])], points := [(0, [9])] } })
theorem test_witness_AMilestoneFillsTheNextLedgerSlot :
    let c := checked { busy with undo := List.replicate 7160 (.consumed 0), ended := some 9 } 0
    (c.work 0).run = .issuing ∧ c.milestoneDue 0 = true ∧ atMilestonePoint (c.work 0) = true ∧ c.atMarkedPoint 0 = true ∧
      atMilestonePoint { busy with lastGst := some 0, issued := 7 } = false ∧
      atMilestonePoint { busy with lastGst := some 0, issued := 8 } = true := by decide +kernel
/-- A check point that expects another signature than the bundle brings, whatever the signature function is. -/
theorem test_witness_AMilestoneFillsTheNextLedgerSlot_mismatch (x : Nat) (h : x ≠ Config.sigStep 0 0) :
    let c := checked { busy with arch := { busy.arch with pc := 9 } } x
    (c.work 0).run = .issuing ∧ slotFree (c.work 0).bundle .a = true ∧ c.signatureOk 0 = false :=
  ⟨rfl, rfl, beq_eq_false_iff_ne.mpr h⟩

/-! ### Supplies, faults, classes: witnesses -/

/-- A chip in operation, its dictionary open to SDO with role 3. -/
def up : Chip := { Chip.reset with
  regs := [(regKey 0x2000 0x05, 1), (regKey 0x2900 0x20, 1), (regKey 0x2900 0x23, 3)],
  dict := { Dict.reset with mssUp := true }, power := { Power.reset with phase := .ready, vin := true, domains := 0xFFFF, readySeen := true } }
/-- Whether a write passes the checks of Table 11-3 and its owner's condition holds of the chip that takes it. -/
def passes (c : Chip) (a : Acc) (ix sub v : Nat) (data : List Byte) (p : Chip → Bool) : Bool :=
  match c.admits a ix sub v data with
  | some (d, _) => p d
  | none => false
/-- The same of a number in the bytes of the access. -/
def passesNum (c : Chip) (len ix sub v : Nat) (p : Chip → Bool) : Bool := passes c { sdo with len := len } ix sub v (beBytes v len) p

theorem test_witness_SuppliesTakeTheChipThroughItsPhases :
    Chip.reset.power.phase = .off ∧ Chip.reset.pd0On = false ∧ Chip.reset.power.vin = false ∧ up.power.vin = true ∧
    (let p : Power := { Power.reset with phase := .stopped, stopAt := some 5 };
      p.phase = .stopped ∧ ∀ u, p.stopAt = some u → u + 1000000000 ≤ 1000000005) ∧
    (let c : Chip := { up with power := { up.power with phase := .camp, vin := false } };
      c.power.phase = .camp ∧ c.power.vf1 = false ∧ c.power.vf2 = false ∧ c.pd0On = true ∧ c.power.vin = false) := by
  refine ⟨by decide, by decide, by decide, by decide, ⟨rfl, fun u h => ?_⟩, by decide +kernel⟩
  cases h; decide
theorem test_witness_SensorsAreReportedAndTheirCrossingsRecorded : up.running = true ∧ up.recd.queue.length < 256 ∧
    real32Lt real115 0x42E60000 = false ∧ real32Lt real115 0x42E60001 = true ∧ up.power.overTemp = false ∧
    up.rd 0x2F00 5 = 0 ∧ (up.wr 0x2F00 5 1).rd 0x2F00 5 = 1 ∧ real32Le 0 realBelow26 = true ∧ real32Le 0x42E60000 realBelow26 = false ∧
    real32Le realFrom27 0x42E60000 = true ∧ real32Le realFrom27 0 = false := by decide +kernel

/-- The class of `team` on a chip in operation, idle between cycles. -/
def runs (g : ClsCfg) (cy : Option Cycle) : Chip := { up with
  works := [busy, busy], cls := [{ Cls.reset with cfg := some g, cycle := cy }],
  regs := [(regKey 0x2000 0x05, 1), (regKey 0x2210 0x08, 2), (regKey 0x2900 0x20, 1), (regKey 0x2900 0x23, 3)] }

theorem test_witness_HardwareFaultsFenceTheirFunction : up.running = true ∧ (∀ p : PortBit, up.portFenced p.val = false) ∧
    (∀ p : PortBit, (up.wr 0x2100 0x03 0xFFFF).portFenced p.val = true) ∧ up.canAbdicate = false ∧
    (∀ e : Fin 32, (up.region (e.val / 8)).banks = []) ∧ (11 : Fin 16).val = 11 ∧ up.scrubs (.dBank 9 0) = true ∧
    (up.modRegion 1 (fun r => { r with banks := [(9, .data)] })).scrubs (.dBank 9 0) = false ∧ up.field.inReset = false ∧
    (let c := ((runs cfg none).wr 0x2100 0x03 1).modPower (fun p => { p with fencesDue := 1 });
      isTick 1000000000 = true ∧ c.portFenced 0 = true ∧ c.power.fencesDue.testBit 0 = true ∧ cfgReleased cfg (tickNo 1000000000) = true) ∧
    isBusy ((runs cfg none).clState 0) = true ∧
    (runs { cfg with doOut := [(3, 0x100, 0)] } none).usesPort 0 0 = true := by decide +kernel
theorem test_witness_TheReliefTakesAFailedEnginesWork :
    (let c := runs cfg (some cyc);
      c.running = true ∧ c.silFenced 0 = false ∧ c.workOf 0 = some 0 ∧ c.classOf 0 = some 0 ∧ (c.cl 0).cycle = some cyc ∧
      cyc.sealed = false ∧ (c.cl 0).held = none ∧ (c.region 0).attach = none ∧ c.reliefState 0 = 0 ∧ (c.work 0).undo = [] ∧
      (validSlot (c.work 0)).ent = false) ∧
    (let c := up.modRegion 3 (fun r => { r with attach := some ⟨24, 24, 0, 0, false, 0⟩ });
      c.running = true ∧ (c.region 3).attach = some ⟨24, 24, 0, 0, false, 0⟩ ∧ 24 / 8 = 3) := by decide +kernel
theorem test_witness_SelfTestsAndHeldFaultsResolve :
    (∀ k ∈ [TestKind.asRelief, .ownPosition, .inPlace, .reliefPass],
      ((up.modRegion 0 (fun r => { r with tests := [(0, k, true)] })).region (regOf 0)).tests = [(0, k, true)]) ∧
    up.running = true ∧ up.recd.queue.length < 256 ∧ up.workOf 0 = some 0 ∧ (up.work 0).run = .idle ∧ up.workOf 32 = none ∧ up.silFenced 32 = false ∧
    (up.region (regOf 32)).attach = none ∧ up.reliefSil 0 = codeOf 32 ∧
    (let c := (up.modRegion 0 (fun r => { r with swap := some (0, false) })).modWork 0 (fun w => { w with run := .done });
      (c.region 0).swap = some (0, false) ∧ (c.work 0).run = .done) ∧
    (let c := (runs cfg none).modCl 0 (fun k => { k with held := some ⟨0, .divideByZero, 5, 16, 7⟩ });
      c.recd.queue.length < 256 ∧ (c.cl 0).held = some ⟨0, .divideByZero, 5, 16, 7⟩ ∧ (c.cl 0).cfg = some cfg ∧ 7 + 1000 ≤ 1007 ∧ isBusy (c.clState 0) = true) := by
  decide +kernel

/-- A chip of a pair in force, in this state, its partner in that one, link and heartbeat there. -/
def paired (own partner : Nat) : Chip :=
  { (((up.wr 0x2400 0x03 own).wr 0x2400 0x04 partner).wr 0x2400 0x0A 0xF3) with pair := { Pair.reset with inForce := true } }

theorem test_witness_FaultAndPairWritesTakeEffect :
    passesNum up 6 0x2300 0x30 32 (fun c => c.reliefState 0 == 0) = true ∧
    passesNum up 6 0x2300 0x30 35 (fun c => c.reliefState 3 == 0) = true ∧
    passesNum (runs cfg none) 6 0x2300 0x30 0 (fun c => c.classOf 0 == some 0 && isBusy (c.clState 0) && c.reliefState 0 == 0) = true ∧
    passesNum up 6 0x2300 0x30 31 (fun c => c.classOf 31 == none && !c.testAsked 3 && c.servedBy 31 != 15) = true ∧
    passesNum ((runs cfg none).wr 0x2210 0x08 4) 6 0x2300 0x30 0 (fun c => c.classOf 0 == some 0 && !isBusy (c.clState 0) && !c.testAsked 0 &&
      c.servedBy 0 != 15 && c.reliefState 0 == 0) = true ∧
    passesNum ((up.wr 0x2100 0x03 1).modPower (fun p => { p with fencesDue := 1 })) 6 0x2100 0x30 1 (fun c =>
      (List.range 16).all (fun p => !((1 : Nat).testBit p && c.portFenced p) || c.causeGone p)) = true ∧
    passesNum up 6 0x2100 0x10 6 (fun c => decide (c.store.queue.length < 64 ∧
      (((List.range 13).filter (· != 0)).map (fun p => c.rd 0x2100 (0x10 + p))).sum + 6 = 64)) = true ∧
    passesNum up 6 0x2200 0x0A 1 (fun _ => true) = true ∧
    passesNum (paired psStandbyReady psActive) 6 0x2400 0x20 1 (fun c => c.pairState == psStandbyReady) = true ∧
    passesNum (paired psActive psStandbyReady) 6 0x2400 0x20 2 (fun c => c.pairState == psActive && c.partnerState == psStandbyReady) = true ∧
    passesNum (paired psFenced 15) 6 0x2400 0x20 3 (fun c => c.pairState == psFenced && c.pair.fencedBy == 0) = true ∧
    passesNum (paired psStandbyReady psActive) 6 0x2400 0x20 4 (fun c => c.pair.inForce && c.pairState != psFenced && !c.partnerReady) = true ∧
    passesNum (paired psActive psStandbyReady) 6 0x2400 0x20 4 (fun c => c.pair.inForce && c.partnerReady) = true := by decide +kernel

theorem test_witness_AMusterStartsTheCyclesThatAreDue : ((runs cfg none).cl 0).cfg = some cfg ∧ (runs cfg none).executes 0 1000000000 = true ∧
    clsTeam ((runs cfg none).cl 0) = [0, 1] ∧ (clsTeam ((runs cfg none).cl 0)).Nodup ∧ isTick 1000000000 = true ∧ up.acts = true ∧
    up.pair.copying = false ∧ (({ Cls.reset with skipAt := some 62500 } : Cls).skipAt = some 62500) ∧
    (let i : Item := ⟨.supply, 5, [0], 0, false⟩; ({ up with crossing := [(0, i)] } : Chip).crossing[0]? = some (0, i) ∧ i.stamp ≤ 5) ∧
    (∀ n < 16, (runs cfg none).dispatchDue n = none) ∧ ((runs cfg none).modCl 0 (fun k => { k with skipAt := some 62500 })).switchesAt 0 62500 = false ∧
    up.pairState = psAlone := by decide +kernel
theorem test_witness_CyclesAreSealedDispatchedOrOverrun :
    (let c := runs cfg (some { cyc with eocAt := some 1000010000 });
      (c.cl 0).cycle = some { cyc with eocAt := some 1000010000 } ∧ (c.cl 0).cfg = some cfg ∧ c.pair.inForce = false ∧ c.pairState = psAlone ∧
      1000010000 + 4000 ≤ 1000014000 ∧ c.pair.copying = false ∧ (c.cl 0).safeAt = none ∧ cyc.d ≤ 1000020000) ∧
    cfg.phase < cfg.period ∧ cfg.doOut = [] ∧ cfg.aoOut = [] ∧ cfg.trigger = none ∧ cyc.sched = [] ∧ cyc.cnf = false ∧
    sealedBy cyc cyc.d = false ∧ sealedBy { cyc with sealed := true, eocAt := some 1000016000 } cyc.d = true ∧
    ((runs cfg (some { cyc with sealed := true, eocAt := some 1000016000 })).cl 0).cycle =
      some { cyc with sealed := true, eocAt := some 1000016000 } := by decide +kernel

/-- An image of region 0 with one edit entry, a signed integer from -1 to 9 in D-space word 7 of position 0. -/
def edited : AppImage := { (default : AppImage) with interval := 1, edits := [⟨2, 0, 0, 0xFFFFFFFFFFFF, 9, .dWord 0 7⟩] }

theorem test_witness_ClassCommandsAndEditsAreQueuedAndTaken :
    passesNum (runs cfg none) 6 0x2200 0x06 0x10 (fun c => c.clState 0 != csNone && c.queueFree (clsRegion (c.cl 0))) = true ∧
    passesNum (runs cfg none) 6 0x2200 0x06 0x20 (fun c => isBusy (c.clState 0)) = true ∧
    passesNum ((runs cfg none).wr 0x2210 0x08 4) 6 0x2200 0x06 0x20 (fun c => c.clState 0 == csStopped && !c.startRefused 0) = true ∧
    (match ((runs cfg none).modRegion 0 (fun r => { r with image := some edited })).identify sdo [] with
      | .ended _ => false
      | .go c w => c.editEntry 0 0x3002 == some ⟨2, 0, 0, 0xFFFFFFFFFFFF, 9, .dWord 0 7⟩ && decide (2 ≤ w.role) && c.acts &&
          c.csnCheck w == .fresh && editInRange 0 0xFFFFFFFFFFFF 9 (beNat (beBytes 9 6)) && c.busyClass (some 0) &&
          !(c.region 0).paused && c.queueFree 0 && c.reach 0x3002) = true := by decide +kernel
theorem test_witness_AnEditWritesItsTarget : isTick 1000000000 = true ∧ up.acts = true ∧ 1000000000 ≤ 999999000 + 1000 ∧ up.changesAt 0 1000000000 = false ∧
    (paired psStandbyReady psActive).acts = false ∧ ((up.modRegion 0 (fun r => { r with takenAt := 62500 })).region 0).takenAt = 62500 ∧
    (up.modRegion 0 (fun r => { r with image := some edited })).editEntry 0 0x3002 = some ⟨2, 0, 0, 0xFFFFFFFFFFFF, 9, .dWord 0 7⟩ := by
  decide +kernel
theorem test_witness_SafeStatesAndScheduledWritesApply :
    (let c := ((runs { cfg with doOut := [(23, 0x100, 0)], aoOut := [(3, 0x100)] } none).modCl 0 (fun k => { k with safeAt := some 9 })).modField
        (fun f => { f with linkUp := true });
      (c.cl 0).cycle = none ∧ (c.cl 0).safeAt = some 9 ∧ c.acts = true ∧ c.field.linkUp = true ∧ c.fieldAlive = true ∧
      c.field.failing = false ∧ c.rd (0x2868 + 3) 0x01 = 0 ∧ (c.wr (0x2868 + 3) 0x01 2).rd (0x2868 + 3) 0x01 = 2 ∧ c.rd (0x2840 + 23) 0x03 = 0 ∧ (c.wr (0x2840 + 23) 0x03 1).rd (0x2840 + 23) 0x03 = 1) ∧
    (let x : Sched := ⟨25, false, 23, 1, 0, 0, 0⟩;
      (up.modField (fun f => { f with sched := [x] })).field.sched = [x] ∧ x.t ≤ 25 ∧ x.ao = false ∧ up.fieldAlive = true) := by decide +kernel

/-! ### The pair and updates: witnesses -/

/-- What the next frame of the partner finds. -/
def hearing (c : Chip) (f : OnbexOut) (p : Chip → Bool) : Bool :=
  match c.hears (frame f) f with
  | some d => p d
  | none => false
/-- A frame of the type of `f` with number 1 and no payload. -/
def bare (f : OnbexOut) : Rx :=
  let h : BitVec 128 := BitVec.ofNat 128 (frameType f * 2 ^ 120 + 2 ^ 64)
  ⟨1000000, h, [], BitVec.ofNat 32 (crc32 (beBytes h.toNat 16))⟩
/-- Pair states 0 to 5, and a chip of a pair in force in each, whose partner's baton toggles or does not. -/
def withBaton (own partner : Nat) : Chip := (paired own partner).wr 0x2400 0x0A 0xF7
def offLink (own : Nat) : Chip := (paired own 15).wr 0x2400 0x0A 0

theorem test_witness_ThePairStateFollowsItsEvents :
    (∀ k ∈ [psAlone, psJoining, psSynchronising, psStandbyReady, psActive, psFenced],
      (paired k 4).pairState = k ∧ (paired k 4).pair.inForce = true ∧ (paired k 4).batonSeen = false ∧ (withBaton k 4).pairState = k ∧
      (withBaton k 4).batonSeen = true ∧ (offLink k).pairState = k ∧ (offLink k).linkUp = false ∧ (paired k 4).linkUp = true) ∧
    (paired 3 4).bit 0x2400 0x0A 1 = true ∧ (offLink 3).bit 0x2400 0x0A 1 = false ∧ (offLink 3).portFenced 14 = false ∧
    (let c := (offLink psJoining).modPair (fun p => { p with joinedAt := 7, lastHb := some 9, began := 3, partnerBegan := 2, grant := some 5 });
      c.pair.joinedAt + 5000000 ≤ 5000007 ∧ c.batonSeen = false ∧ c.pair.lastHb = some 9 ∧ 9 + 4500 ≤ 4509 ∧
      c.pair.partnerBegan < c.pair.began ∧ c.pair.grant = some 5) ∧
    (let c := ((paired psStandbyReady psActive).wr 0x2400 0x06 1).wr 0x2400 0x05 1;
      c.rd 0x2400 0x06 = 1 ∧ c.rd 0x2400 0x05 = (if c.pair.sideB then 2 else 1) ∧ c.pair.asked = false) ∧
    (let c := (paired psJoining psJoining).modPair (fun p => { p with capsEqual := true });
      c.partnerState = psJoining ∧ c.pair.capsEqual = true ∧ c.rd 0x2400 0x05 = 0) := by decide +kernel
theorem test_witness_ThePairStateFollowsItsEvents_frames :
    (∀ k ∈ [psAlone, psJoining, psSynchronising, psStandbyReady, psActive, psFenced],
      ∀ f ∈ [OnbexOut.abdicate 7, .fence 7, .caps default, .stateEnd none, .stateEnd (some 3), .roleGrant 62500],
        hearing (paired k 4) f (fun d => d.pairState == k) = true) ∧
    hearing (paired psActive psStandbyReady) .roleRequest (fun d => d.partnerReady && d.pair.grant == none) = true ∧
    (let f := OnbexOut.heartbeat 3 true ⟨0, 0⟩ ⟨0, 0⟩; (paired psJoining psJoining).onbexOpen = true ∧ (frame f).crcOk = true ∧ rxCarries (frame f) f = true) ∧
    ((paired psStandbyReady psActive).modPair (fun p => { p with heldRel := [(0, 62500)] })).pair.heldRel.any (fun p => decide (p.2 + 6700 < 1000000)) = true := by
  decide +kernel

theorem test_witness_FramesOfTheActiveAreTakenByTheShadow :
    (let c := (paired psStandbyReady psActive).modPair (fun p => { p with lsnIn := some (2 ^ 32 - 1) });
      c.onbexOpen = true ∧ ({ frame (.nak 0) with crc := 0 } : Rx).crcOk = false ∧ c.pair.lsnIn = some (2 ^ 32 - 1) ∧
      (rxOf 0 (.nak 0) 0).lsn = (2 ^ 32 - 1 + 1) % 2 ^ 32 ∧ (rxOf 0 (.nak 0) 0).crcOk = true ∧ rxCarries (rxOf 0 (.nak 0) 0) (.nak 0) = true) ∧
    (let h : BitVec 128 := BitVec.ofNat 128 (0x7F * 2 ^ 120)
     let rx : Rx := ⟨0, h, [], BitVec.ofNat 32 (crc32 (beBytes h.toNat 16))⟩; rx.crcOk = true ∧ rx.typ = 0x7F) ∧
    (∀ f ∈ [OnbexOut.nak 0, .item 0 default, .edit default, .cmd (.queued default), .cmd (.write 0 0x2200 0x0A [] 1 1), .accum [], .seal [default],
        .hash 1 ⟨0, 0⟩], hearing (paired psStandbyReady psActive) f (fun d => d.pairState == psStandbyReady) = true) ∧
    (∀ f ∈ [OnbexOut.state (.dBank 3) 1 [5], .state (.region 2) 1 [5]],
      (match (paired psSynchronising psActive).hears (bare f) f with
        | some d => d.pairState == psSynchronising
        | none => false) = true) ∧
    hearing (paired psStandbyReady psActive) (.cmd (.more 1 1 [5])) (fun d => d.pair.cmdParts == []) = true ∧
    hearing (paired psStandbyReady psActive) (.seal [default]) (fun d => (d.dispatchAll 1000000).shadows 0 && d.meas.sets.length == 8 &&
      (match d.entryEffect (forwardedBy 1 1) 0 0x2200 0x0A (beBytes 1 6) with | .ok _ => true | .error _ => false) &&
      (match d.entryEffect (forwardedBy 1 1) 0 0x2510 0x01 (beBytes 1 6) with | .ok _ => false | .error _ => true) &&
      d.pair.ownHash.find? (fun x => x.1 == 0) == none) = true ∧
    hearing ((paired psSynchronising psActive).modPair (fun p => { p with synced := [0] })) (.seal [default]) (fun d => (d.dispatchAll 1000000).shadows 0) = true := by decide +kernel
theorem test_witness_FramesOfTheActiveAreTakenByTheShadow_seal :
    ∃ e : SealEntry, (paired psStandbyReady psActive).ownImageHash e = e.hash ∧ e.m.instant + 3000 = 3000 :=
  ⟨⟨0, 0, 0, 0, ⟨0, 0⟩, 0, (paired psStandbyReady psActive).ownImageHash ⟨0, 0, 0, 0, ⟨0, 0⟩, 0, 0⟩⟩, rfl, by decide⟩

/-- A standby that shadows the class of `team`. -/
def shadow (k : Nat) : Chip := { paired k psActive with
  cls := [{ Cls.reset with cfg := some cfg }],
  regs := ((paired k psActive).wr 0x2210 0x08 2).regs }

theorem test_witness_HotShadowRunsFromSealsAndChecksHashes :
    ((paired psActive psStandbyReady).pair.inForce = true ∧ (paired psActive psStandbyReady).linkUp = true ∧
      (paired psActive psStandbyReady).pair.hbSent = none ∧ (paired psActive psStandbyReady).pairState = psActive) ∧
    (isTick (1000003000 - 3000) = true ∧ ((shadow psStandbyReady).cl 0).cycle = none ∧ (shadow psStandbyReady).shadows 0 = true ∧
      (shadow psStandbyReady).pair.seals = [] ∧ (shadow psStandbyReady).releasedAt 0 1000000000 = true ∧
      (shadow psStandbyReady).runsFrom 0 1000000000 = true) ∧
    (let x : SealRx := ⟨⟨0, 0, 0, 0, TimePair.of 1000000000 0, 0, 0⟩, 0, true⟩;
      ([x].find? (fun x => x.e.cls.val == 0 && x.e.m.instant == 1000003000 - 3000)) = some x) ∧
    (0, 1000000000) ∈ ((shadow psStandbyReady).modPair (fun p => { p with heldRel := [(0, 1000000000)] })).pair.heldRel ∧
    (let c := (paired psStandbyReady psActive).modPair (fun p => { p with ownHash := [(7, 1)], partnerHash := [(7, 2)] });
      c.pair.ownHash.find? (fun x => decide (x.1 + 2500 ≤ 2507)) = some (7, 1) ∧
      c.pair.partnerHash.find? (fun x => x.1 == 7) = some (7, 2) ∧ c.linkUp = true) ∧
    (let c := (paired psStandbyReady psActive).modPair (fun p => { p with discr := [(16, 102)] });
      discrKey (.ai 0) ≠ 0 ∧ 2 ≤ NMem.get c.pair.discr (discrKey (.ai 0)) ∧
      NMem.get c.pair.discr (discrKey (.ai 0)) - 2 + c.rd 0x2400 0x08 * 1000000 ≤ 1000 * 1000000) ∧
    ((shadow psStandbyReady).region (clsRegion ((shadow psStandbyReady).cl 0))).queue = [] := by decide +kernel

/-- A header for target 4, with an empty body. -/
def head4 : List Byte := leBytes 0x53574958 4 ++ [2, 1] ++ leBytes 0x4832 2 ++ [0xB0, 0] ++ List.replicate 246 0
/-- The header as it is kept. -/
def kept : Header := ⟨0x53574958, 2, 1, 0x4832, 0xB0, 0, 0, 7, 3, 5, 0, 0, 0⟩
/-- A chip whose target t is in this state with a header kept. -/
def updState (t st : Nat) : Chip := (up.wr (0x2510 + t) 0x05 st).modTarget t (fun x =>
  { x with head := some kept, ta := some 2000000, trialEnd := some 9, body := [1, 2] })

theorem test_witness_UpdateObjectsTakeTheirWrites :
    passes up { sdo with len := 256 } 0x2514 1 0 head4 (fun c => !c.updating 4 && !c.ownerLocked && c.storeFree &&
      c.headerFault 4 (1 :: head4.tail) == some (1, abState)) = true ∧
    passes (updState 4 3) { sdo with len := 256 } 0x2514 1 0 head4 (fun c => c.updating 4) = true ∧
    passes (up.wr 0x2500 0x03 1) { sdo with len := 256 } 0x2514 1 0 head4 (fun c => c.ownerLocked && !c.updating 4) = true ∧
    passes ((updState 4 1).wr 0x2514 0x03 2) { sdo with len := 7 } 0x2514 2 0 (leBytes 2 4 ++ [3, 4, 5]) (fun c =>
      (c.target 4).head == some kept && c.rd 0x2514 0x05 == 1 && decide (c.rd 0x2514 0x03 + 3 ≤ kept.len)) = true ∧
    passes ((updState 4 1).wr 0x2514 0x03 2) { sdo with len := 6 } 0x2514 2 0 (leBytes 0 4 ++ [1, 2]) (fun c =>
      decide (0 + 2 ≤ c.rd 0x2514 0x03 ∧ ((c.target 4).body.drop 0).take 2 = [1, 2])) = true := by decide +kernel
/-- With a key provisioned and a signature that verifies, which are free functions, the header passes every check. -/
theorem test_witness_UpdateObjectsTakeTheirWrites_header (hk : ∀ k, Config.keyProvisioned k = true) (hs : ∀ k h g, Config.sigVerifies k h g = true) :
    up.headerFault 4 head4 = none := by
  have h1 : up.updating 4 = false := by decide +kernel
  have h2 : up.refusalState = none := by decide +kernel
  have h3 : parseHeader head4 = { parseHeader [] with magic := 0x53574958, typ := 2, hver := 1, part := 0x4832, step := 0xB0 } := by decide +kernel
  have h4 : up.bit 0x2500 0x0B 0 = false := by decide +kernel
  have h5 : parseHeader [] = ⟨0, 0, 0, 0, 0, 0, 0, 0, 0, 0, 0, 0, 0⟩ := by decide +kernel
  have h6 : up.rd (0x2510 + 4) 9 = 0 := by decide +kernel
  simp only [Chip.headerFault, h1, h2, h3, h4, h5, h6, hk, hs]
  decide
theorem test_witness_UpdateObjectsTakeTheirWrites_commands :
    passesNum (updState 0 1) 6 0x2500 0x01 0x10 (fun c => c.rd 0x2510 0x05 == 1) = true ∧
    passesNum (updState 0 3) 6 0x2500 0x01 0x10 (fun c => c.rd 0x2510 0x05 == 3) = true ∧
    passesNum (updState 4 3) 6 0x2500 0x01 0x24 (fun c => c.rd 0x2514 0x05 == 3 && c.refusalState == none &&
      (c.activationAt 4 (c.requested 4 1000000)).isSome) = true ∧
    passesNum (updState 0 4) 6 0x2500 0x01 0x20 (fun c => c.rd 0x2510 0x05 == 4 && (c.target 0).ta == some 2000000 && c.refusalState == none &&
      !c.inMotion 0 && (c.activationAt 0 (c.requested 0 1000000)).isSome) = true ∧
    passesNum (updState 0 4) 6 0x2500 0x01 0x30 (fun c => c.rd 0x2510 0x05 == 4 && (c.target 0).ta == some (1000000 + 1000000)) = true ∧
    passesNum (updState 0 5) 6 0x2500 0x01 0x40 (fun c => c.rd 0x2510 0x05 == 5 && (c.target 0).fallAt == none && (c.target 0).resumeAt == none) = true ∧
    passesNum (updState 4 5) 6 0x2500 0x01 0x54 (fun c => c.rd 0x2514 0x05 == 5 && (c.target 4).fallAt == none && (c.target 4).resumeAt == none) = true ∧
    passesNum (updState 3 5) 6 0x2500 0x01 0x53 (fun c => c.rd 0x2513 0x05 == 5 && (c.target 3).fallAt == none && (c.target 3).resumeAt == none && c.runningCfgs 3 == []) = true ∧
    passesNum up 6 0x2500 0x0A 15 (fun c => decide (c.store.queue.length < 64)) = true := by decide +kernel

theorem test_witness_ImagesAreCheckedActivatedTriedAndPutBack :
    (let c := (updState 4 2).modTarget 4 (fun x => { x with head := some { kept with hash := Config.sha256 [1, 2] } });
      (c.target 4).head = some { kept with hash := Config.sha256 [1, 2] } ∧ c.rd 0x2514 0x05 = 2 ∧ (c.target 4).body = [1, 2]) ∧
    (let c := (updState 4 2).modTarget 4 (fun x => { x with head := some { kept with hash := Config.sha256 [1, 2] + 1 } });
      (c.target 4).body = [1, 2] ∧ Config.sha256 [1, 2] ≠ Config.sha256 [1, 2] + 1) :=
  ⟨⟨rfl, by decide +kernel, rfl⟩, rfl, by omega⟩
theorem test_witness_ImagesAreCheckedActivatedTriedAndPutBack_times :
    ((updState 5 1).rd 0x2515 0x05 = 1 ∧ ((updState 5 1).target 5).lastBody + 300000000000 ≤ 300000000000) ∧
    (∀ k ∈ [0, 4, 5], ((updState k 4).target k).ta = some 2000000 ∧ (updState k 4).rd (0x2510 + k) 0x05 = 4) ∧
    (let c := (updState 4 4).wr 0x2400 0x03 psActive;
      c.rd 0x2514 0x05 = 4 ∧ (c.target 4).ta = some 2000000 ∧ c.pairState ≠ psAlone ∧ c.pairState ≠ psStandbyReady ∧ c.pair.grant = none ∧
        ((c.modPair (fun p => { p with grant := some 5 })).pair.grant ≠ none)) ∧
    (updState 0 4).inMotion 0 = false ∧ (updState 0 4).pairState = psAlone ∧ ((updState 0 4).target 0).prevApp = none ∧
    (let c := runs { cfg with motion := some (0x100, 3) } none |>.modCl 0 (fun k => { k with pub := [(0x100, 8)] }); c.inMotion 0 = true) ∧
    (∀ k ∈ [0, 4], ((updState k 5).target k).trialEnd = some 9 ∧ (updState k 5).rd (0x2510 + k) 0x05 = 5 ∧
      ((updState k 5).target k).fallAt = none ∧ ((updState k 5).target k).resumeAt = none ∧ (updState 0 5).runningCfgs 0 = []) ∧
    ((updState 0 5).modTarget 0 (fun x => { x with fallAt := some 9, resumeAt := some 5 })).target 0 =
      { (updState 0 5).target 0 with fallAt := some 9, resumeAt := some 5 } ∧
    (let c := (updState 4 5).modDict (fun d => { d with mssUp := false }); c.running = true ∧ c.dict.mssUp = false ∧ c.rd 0x2514 0x05 = 5) := by
  decide +kernel
/-- What the free function parseApp reads from a body: an image that passes every check, one that does not. -/
theorem test_witness_ImagesAreCheckedActivatedTriedAndPutBack_image :
    (let im := { edited with interval := 2000, edits := [] }; up.appCheck 0 im = 0 ∧ up.imageRow 0 kept im = 0 ∧ stagingOk none im = true) ∧
    up.appCheck 0 edited ≠ 0 ∧ up.imageRow 0 kept edited ≠ 0 ∧ measOk ⟨0, 50, [], [], [], false, [], [], 0, 10, false, 0⟩ = true ∧ migCounts kept edited = true ∧
    migCounts { kept with migN := 1 } edited = false ∧ stagingOk (some { edited with classes := [{ cfg with part := [(0, 2 ^ 20)] }] }) { edited with classes := [cfg] } = false := by decide +kernel

/-! ### Measurement and the field die: witnesses -/

def setCfg0 : SetCfg := ⟨0, 0, 0, 0, 0, 0, 0, 0, 50, 0⟩
/-- The stream that config subscribes to. -/
def streamCfg0 : StreamCfg := ⟨0, 7, 0x4000, [], 4800, 1, 0, false⟩
/-- A measurement configuration: channels 0 and 8 in use, one stream, one computed set, rotation, two publications, 10 ms after a trigger. -/
def config : MeasImage := ⟨0x101, 50, List.replicate 16 ⟨0, 0, 0, 0, 0, 0⟩, [streamCfg0], [setCfg0], true, [(0, 4800), (1, 14400)], [], 0, 10, false, 0⟩
/-- The words of channel 0 to 7 at the start of second 1. -/
def atSecond : Chan := { Chan.reset with past := [(1000000000, sampleWord 5 0 false false false false 0 0)] }
/-- A chip that measures with it; port 2 carries the process bus, port 0 the station bus. -/
def meter : Chip := { (((up.wr 0x2900 0x01 5).wr 0x2912 0x03 1).wr 0x2910 0x03 1) with
  meas := { Meas.reset with image := some config, lastG := some 0, senseLost := false, chans := List.replicate 17 atSecond } }
/-- A frame of its stream with one sample. -/
def svRx0 : SvRx := ⟨7, 0x4000, [], [⟨1, 2, List.replicate 8 0, List.replicate 8 ⟨.good, false, false⟩⟩]⟩

theorem test_witness_SamplesReachTheGridAndThePublications : meter.running = true ∧ meter.meas.senseLost = false ∧
    meter.imageAt 62500 = some config ∧ isTick 62500 = true ∧ 62500 + 312500 ≤ 375000 ∧ (∀ l, meter.meas.lastG = some l → l < 62500) ∧
    meter.portFenced 15 = false ∧ config.inUse.testBit 8 = true ∧ config.inUse.testBit 1 = false ∧ meter.meas.lost.contains (8 / 8) = false ∧
    meter.localValue config 8 62500 = none ∧ ({ meter with meas := { meter.meas with image := none } } : Chip).imageAt 62500 = none ∧
    (meter.modChan 8 (fun x => { x with recent := [(46875, 1), (62500, 2), (78125, 3), (93750, 4)] })).localValue config 8 62500 = some 2 ∧
    streamIn config 0 = some streamCfg0 ∧ streamIn config 1 = none ∧
    (let x : Stream := { Stream.reset with aligned := true, samples := [(4800, [1], [0]), (4801, [2], [0])] };
      x.aligned = true ∧ meter.meas.lost.contains (2 + 0) = false ∧ streamAt x (1000062500 * 4800 / 1000000000) = some ([1], [0]) ∧
      1000062500 * 4800 % 1000000000 ≠ 0 ∧ streamAt x (1000062500 * 4800 / 1000000000 + 1) = some ([2], [0])) := by decide +kernel
theorem test_witness_SamplesReachTheGridAndThePublications_streams :
    meter.meas.image = some config ∧ meter.portOn 2 = true ∧ streamOf config svRx0 = some streamCfg0 ∧
    streamOf config { svRx0 with appId := 1 } = none ∧ svRx0.asdus = [⟨1, 2, List.replicate 8 0, List.replicate 8 ⟨.good, false, false⟩⟩] ∧
    (let x : Stream := { Stream.reset with newest := 4800 };
      x.newest ≠ 0 ∧ x.newest = 4800 ∧ 4800 < 4801 ∧ 4801 < 4802 ∧ 4802 < 4801 + 16) ∧
    decide (4801 * 1000000000 + 100000 * 4800 < portStamp 1000308335 * 4800) = false ∧
    decide (4801 * 1000000000 + 100000 * 4800 < portStamp 1000308336 * 4800) = true := by decide +kernel
theorem test_witness_SamplesReachTheGridAndThePublications_sent :
    config.pubs.find? (fun q => q.1 == 0) = some (0, 4800) ∧ config.pubs.find? (fun q => q.1 == 1) = some (1, 14400) ∧ meter.acts = true ∧
    (busPorts true).filter (fun q => meter.portOn q) = [2] ∧ meter.pair.inForce = false ∧ up.pairState ≠ psStandbyReady ∧
    (let v : Int × SvQual := (0, ⟨.good, false, false⟩);
      [List.replicate 8 v].length = 1 ∧
      ∀ i, i < 1 → (List.range 8).map (fun j => meter.published (8 * 0 + (if j < 4 then 4 + j else j - 4)) ((1 * 4800 + 0 + i) * 1000000000) 4800) =
        (nth [] [List.replicate 8 v] i).map some) := by decide +kernel
theorem test_witness_SamplesReachTheGridAndThePublications_temperature :
    (let x := real32Rat 0x41C80000
      let b := (meter.wr 0x2600 0x06 3).rd 0x2600 0x06;
      (((-40 + 20 * (b : Int) - 1 : Int) : Rat) ≤ x ∨ b = 0) ∧ (x < ((-20 + 20 * (b : Int) + 1 : Int) : Rat) ∨ 7 ≤ b)) ∧
    (meter.wr 0x2600 0x06 3).meas.senseLost = false ∧
    ({ meter.meas with cal := some ⟨3, 2, 7, 0x3F800000, 0, 0⟩ } : Meas).cal = some ⟨3, 2, 7, 0x3F800000, 0, 0⟩ := by decide +kernel
theorem test_witness_CalibrationsRunInTurn : passesNum up 6 0x2600 0x07 0x10 (fun _ => true) = true ∧
    meter.meas.cal = none ∧ meter.meas.calQueue = [] ∧ 3 ∉ meter.meas.calQueue ∧
    (3 ∈ ({ meter.meas with calQueue := [3] } : Meas).calQueue) ∧ config.rotate = true ∧ 10000000000 % 10000000000 = 0 ∧
    (∀ k ∈ [0, 1, 2, 3], ({ meter.meas with cal := some ⟨3, k, 7, 0x3F800000, 0, 0⟩ } : Meas).cal = some ⟨3, k, 7, 0x3F800000, 0, 0⟩) ∧
    (let c := (meter.modSet 0 (fun x => { x with n0 := some 400000000, len := 320 })).modMeas (fun m => { m with lastG := some 400000000 });
      c.meas.lastG = some 400000000 ∧ c.startsWindow (3 / 8) (400000000 + 62500) = true ∧ 7 + 400000000 ≤ 400000000 + 62500 ∧
      7 + 400000000 ≤ 400375000 ∧ c.startsWindow (3 / 8) (400000000 + 125000) = false) := by decide +kernel
theorem test_witness_WindowsIntervalsAndAccumulators :
    (let full : List Agg := List.replicate 5 { aggFrom 0 with count := 10 }
      let c := meter.modSet 0 (fun x => { x with n0 := some 0, len := 2, samples := [[(1, 0)], [(2, 2)]], aggs := full });
      c.setCfg 0 = some setCfg0 ∧ c.portFenced 15 = false ∧ (c.mset 0).n0 = some 0 ∧ 0 < (c.mset 0).len ∧ (c.mset 0).len ≤ (c.mset 0).samples.length ∧
      0 + (c.mset 0).len * 62500 + 312500 ≤ 437500 ∧ (∃ v ∈ (c.mset 0).samples.take 2, ∃ p ∈ v, p.2 = 2) ∧
      (if c.nominal = 60 then 12 else 10) ≤ (nth (aggFrom 0) (c.mset 0).aggs (intervalPlace .cycles10)).count ∧
      0 < (nth (aggFrom 0) (c.mset 0).aggs (intervalPlace .sec10)).count ∧ c.rd 0x2A00 0x0D = 37 ∧
      (∀ n ∈ [600, 7200, 10], ((37 : Nat) - (c.rdw 0x2A00 0x0D).toInt).toNat / n ≠ ((7237 : Nat) - (c.rdw 0x2A00 0x0D).toInt).toNat / n) ∧
      fieldOf setCfg0.phasor 7 0 = 50 ∧ (c.mset 0).phPair.instant < 1000000000 ∧ (c.mset 0).n0.isSome = true ∧
      (c.mset 0).acc.length = 8 ∧ (c.mset 0).frac.length = 8) ∧
    meter.running = true ∧ meter.meas.savedAt + 60000000000 ≤ 60000000000 ∧ meter.store.queue.length + 8 ≤ 64 ∧
    passesNum up 6 0x2700 0x0A 255 (fun _ => true) = true := by decide +kernel
/-- A capture of no channel with these words. -/
def captured (lock : Bool) (l : List Word) : Capture := ⟨0, lock, 0, ⟨0, 0⟩, 255, [], 0, 10, false, [], l, 0, []⟩
theorem test_witness_CapturesAndCampRecords :
    (∀ v ∈ [1, 2, 3], passesNum up 6 0x2600 0x0B v (fun _ => fieldOf v 3 0 == v) = true) ∧
    meter.meas.image = some config ∧ meter.meas.lastG = some 0 ∧ meter.meas.capture = none ∧
    (up.opens ⟨0, none, 0, 0, {}, {}⟩ 0x2600 0x0D []).isSome = true ∧ meter.portFenced 2 = false ∧ meter.portFenced 15 = false ∧
    (let x := captured true [];
      ({ meter.meas with capture := some x } : Meas).capture = some x ∧ storedSectors [x] + captureSectors x ≤ 128 ∧ x.locked = true ∧ x.endsAt ≤ 0) ∧
    ({ cfg with pageReq := some (0x100, 4) } : ClsCfg).pageReq = some (0x100, 4) ∧
    (let c : Chip := { up with meas := { Meas.reset with campOn := true } };
      c.meas.campOn = true ∧ c.campRecs.length < 255 ∧
      ((c.modTarget 5 (fun x => { x with meas := some config })).target 5).meas = some config) ∧
    meter.meas.campOn = false := by decide +kernel
/-- A stored capture so large that it fills the store leaves no room for another; where it is not locked, it makes the room. -/
theorem test_witness_CapturesAndCampRecords_full (l : List Word) (h : l.length = 1398000) : ∀ lock,
    128 < storedSectors [captured lock l] + captureSectors (captured true []) ∧ storedSectors ([] ++ []) + captureSectors (captured true []) ≤ 128 := by
  intro lock
  have e : captureSectors (captured true []) = 1 := by decide +kernel
  have n : (captureBytes (captured lock l)).length = 24 + 6 * l.length := by
    simp [captureBytes, captureAs, captured, beBytes, List.length_flatMap]
    omega
  have b : captureSectors (captured lock l) = 128 := by rw [captureSectors, n, h]
  refine ⟨?_, by rw [e]; decide⟩
  rw [e]
  simp [storedSectors, b]
/-- A capture whose number is the one that a class asks for, whatever its request means. -/
theorem test_witness_CapturesAndCampRecords_page :
    let x : Capture := { captured false [] with num := (Config.pageRequest 0).1 };
    [x].find? (fun y => y.num == (Config.pageRequest (WMem.get Cls.reset.pub 0x100)).1) = some x :=
  List.find?_cons_of_pos (beq_self_eq_true _)

/-- A chip whose field die is there and whose link is up. -/
def fielded : Chip := { (up.wr 0x2800 0x01 2) with field := { Field.reset with linkUp := true } }

theorem test_witness_TheFieldDieResetsLatchesAndFails : fielded.fieldAlive = true ∧ fielded.fieldRuns = true ∧ fielded.field.linkUp = true ∧
    (∀ s2 missing, fielded.bit 0x2800 0x02 (supplyBit s2 missing) ≠ true ∧
      (fielded.wr 0x2800 0x02 15).bit 0x2800 0x02 (supplyBit s2 missing) ≠ false) ∧ fielded.recd.queue.length < 256 ∧ fielded.field.taken = [] ∧ fielded.field.notes = [] ∧
    ({ Field.reset with inReset := true } : Field).inReset = true ∧ (fielded.wr 0x2800 0x01 1).rd 0x2800 0x01 = 1 ∧ fielded.field.inReset = false ∧
    isTick 1000000 = true ∧ (fielded.aoch 3).changedAt + 1000000 ≤ 1000000 ∧ fielded.field.failing = false ∧
    ({ Field.reset with failing := true } : Field).failing = true ∧ fielded.field.lastRefresh + 2000000 ≤ 2000000 ∧
    (∀ n : Fin 24, fielded.rd (0x2840 + n.val) 0x04 = 0 ∧ (fielded.wr (0x2840 + n.val) 0x04 1).rd (0x2840 + n.val) 0x04 ≠ 0) ∧
    (∀ n : Fin 4, fielded.rd (0x2868 + n.val) 0x02 = 0 ∧ (fielded.wr (0x2868 + n.val) 0x02 1).rd (0x2868 + n.val) 0x02 ≠ 0) ∧
    (∀ p ∈ [(0x2857, 0x08), (0x2840, 0x08), (0x2923, 0x06), (0x2913, 0x06), (0x286B, 0x03), (0x2840, 0x02)],
      ({ Field.reset with pendSet := [(p.1, p.2, 1, 9)] } : Field).pendSet = [(p.1, p.2, 1, 9)]) ∧
    (fielded.modAo 3 (fun x => { x with alarm := true })).aoAlarmed 3 = true ∧ fielded.pairState ≠ psStandbyReady := by decide +kernel
theorem test_witness_NotificationsCrossOnceAndMerge :
    let k := noteKey 0x0910 1 3 false
    let c (l : List (Nat × Instant × Bool)) (n : NMem) : Chip := fielded.modField (fun f => { f with taken := l, notes := n });
    (c [] []).field.linkUp = true ∧ (c [] []).field.taken.any (fun x => x.1 == k && x.2.1 == (c [] []).now) = false ∧
    (c [(k, 0, false)] []).field.taken.any (fun x => x.1 == k && x.2.1 == (c [] []).now) = true ∧
    (up.modField (fun f => { f with notes := [(k, 1)] })).field.linkUp = false ∧ NMem.has [(k, 1)] k = true ∧ NMem.has [] k = false ∧
    NMem.wf [(k, 1)] = true ∧ NMem.wf [] = true ∧ (c [] []).recd.queue.length < 256 := by decide +kernel
theorem test_witness_InputsAreAcceptedCountedAndConverted :
    ((fielded.di 47).raw ≠ true ∧ (fielded.di 47).level ≠ true ∧ fielded.rd (0x2810 + 47) 0x01 ≠ 0 ∧
      (fielded.wr (0x2810 + 47) 0x01 0).rd (0x2810 + 47) 0x01 = 0) ∧
    (let c := (fielded.wr 0x2810 0x05 100).modDi 0 (fun x => { x with raw := true, run := some 5, fT0 := some 0, lastRise := some 100000000 });
      0 < c.gateNs 0 ∧ (c.di 0).run = some 5 ∧ (c.di 0).raw ≠ (c.di 0).level ∧ 5 + c.rd 0x2810 0x01 * 1000 ≤ 2000005 ∧
      (c.di 0).fT0 = some 0 ∧ (c.di 0).lastRise = some 100000000 ∧ 0 + c.gateNs 0 ≤ 100000000 ∧
      (c.di 0).lastRise.getD c.field.discAt + 110000000000 ≤ 110100000000 ∧
      (c.modDi 0 (fun x => { x with lastRise := some 99999999 })).freqDue 0 = false ∧ (fielded.wr 0x2810 0x05 100).gateNs 0 = 100000000 ∧
      (fielded.di 0).fT0 = none) ∧
    (up.opens ⟨0, none, 0, 0, {}, {}⟩ 0x283F 0x08 []).isSome = true ∧
    (fielded.rd 0x2867 0x07 ≠ 1 ∧ (fielded.wr 0x2867 0x07 1).rd 0x2867 0x07 = 1 ∧ (fielded.aich 7).trim = none ∧ (∀ p ∈ (fielded.aich 7).fails, p.1 ≠ 3)) ∧
    (let c := fielded.modAi 0 (fun x => { x with trim := some (1, 5, List.replicate 16 4200000, 9, 3) });
      (c.aich 0).trim = some (1, 5, List.replicate 16 4200000, 9, 3) ∧ 16 ≤ (List.replicate 16 (4200000 : Int)).length ∧
      -3200000 ≤ 64000000 - (List.replicate 16 (4200000 : Int)).sum ∧ 64000000 - (List.replicate 16 (4200000 : Int)).sum < -3199999 ∧
      (List.replicate 16 (4200000 : Int)).sum % 16 = 0 ∧ 64000000 - (List.replicate 16 (4200001 : Int)).sum < -3200000) := by decide +kernel
theorem test_witness_InputsAreAcceptedCountedAndConverted_writes :
    passesNum fielded 1 0x283F 0x04 1 (fun _ => true) = true ∧ passesNum fielded 1 0x2857 0x08 1 (fun _ => true) = true ∧
    passesNum fielded 6 0x2840 0x02 65000 (fun c => isFieldCfg 0x2840 0x02 && !c.fieldRefused 0x2840 0x02 65000 &&
      c.storeFree) = true ∧
    (∀ v ∈ [1, 2, 3], passesNum fielded 6 0x2867 0x04 v (fun _ => true) = true) := by decide +kernel
theorem test_witness_OutputsPulseAndDiagnoseThemselves :
    (let c := fielded.modDo 23 (fun x => { x with pulse := some 9, applied := true });
      (c.doc 23).pulse = some 9 ∧ (c.at_ 9).detects 23 = true ∧ (c.at_ 9).conducts 23 = true ∧ c.doBit 23 stSHT = false ∧
      (c.doc 23).switched + 2000000 ≤ 2000000) ∧
    ((fielded.doc 0).applied = false ∧ fielded.pairParallel 0 = false ∧ (fielded.wr 0x2840 0x05 1).pairParallel 0 = true ∧
      fielded.detects 0 = true ∧ ({ DoCh.reset with thermal := true } : DoCh).thermal = true) ∧
    (∀ b : Fin 12, 3 ≤ b.val → b.val ≤ 9 → (fielded.setDo 0 b.val true).doBit 0 b.val = true ∧
      ((fielded.setDo 0 b.val true).doc 0).thermal = false) ∧
    (∀ u, fielded.masked u = false) ∧
    (let c := fielded.modAo 3 (fun x => { x with applied := 20000 });
      (c.aoch 3).cpl = false ∧ 19999 < (c.aoch 3).applied ∧ 0 ≤ (c.aoch 3).applied + 20000 ∧ (c.aoch 3).applied ≤ 0 + 20000) ∧
    (let x : AoCh := { AoCh.reset with cpl := true }; x.cpl = true ∧ x.short = false ∧ x.cplAt + 100000000 ≤ 100000000) ∧
    (let x : AoCh := { AoCh.reset with short := true }; x.short = true ∧ x.cpl = false) ∧
    ((fielded.wr 0x2868 0x04 1).rd 0x2868 0x04 = 1 ∧ fielded.field.lastRefresh + 150000 ≤ 150000) ∧
    (runs { cfg with inputs := [⟨0x40, .aoStatus 3, 1⟩] } none).placed (.aoStatus 3) = true ∧ fielded.bit 0x2100 0x03 0 = false := by decide +kernel

/-! ### Networks, time, the dictionary: witnesses -/

/-- An announce message of a master in domain d. -/
def announce (n d : Nat) : Announce := ⟨n, d, 128, 6, 0x21, 0, 128, 0, 37, true, false, false⟩
def goose0 : GooseCfg := ⟨0, 0, true, false, [], none⟩
def sub0 : GooseSub := ⟨0, 7, 0x4000, [], 1, false, 1, [0]⟩
/-- A frame of that subscription, with its numbers. -/
def gooseRx (st sq : Nat) (sim : Bool) : GooseRx := ⟨7, 0x4000, [], st, sq, 2000, false, false, 1, sim, [6], [0]⟩
/-- A subscription of one member whose value a class places. -/
def subscribed : Chip := { runs { cfg with inputs := [⟨0x40, .goose 0 0, 1⟩] } none with
  net := { Net.reset with subs := [⟨some sub0, 3, 7, true, some 9, 2, [5], [0]⟩] } }

theorem test_witness_EthernetPortsAndGoose : meter.portOn 0 = true ∧ meter.portOn 2 = true ∧ meter.redundant 0 = true ∧
    meter.net.stAlone = false ∧ (meter.ethp 0).lastSup + 6000000000 ≤ 6000000000 ∧ (meter.ethp 0).lldpAt = none ∧
    meter.bit 0x2910 0x03 6 = false ∧ (meter.setBit 0x2910 0x03 6 true).bit 0x2910 0x03 6 = true ∧
    ((meter.modEth 0 (fun e => { e with testing := true })).ethp 0).testing = true ∧ meter.net.replaced.testBit 0 = false ∧
    ({ meter.net with replaced := 1 } : Net).replaced.testBit 0 = true ∧
    passesNum up 1 0x2910 0x06 1 (fun c => !c.bit 0x2910 0x03 0) = true ∧ passesNum meter 1 0x2910 0x06 1 (fun c => c.bit 0x2910 0x03 0) = true ∧
    meter.net.supAt = none ∧ meter.net.prOff = false ∧ (meter.modEth 1 (fun e => { e with nodes := [1] })).nodeKnown 0 = true ∧
    meter.addressed 2 (2 ^ 40) = true ∧ (meter.modNet (fun n => { n with ip := (0xC0A80001, 0xFFFFFF00, 0xC0A800FE) })).net.ip.1 = 0xC0A80001 ∧ (busPorts false).filter (fun q => meter.portOn q) = [0] ∧
    (let x : GooseTx := ⟨some goose0, 1, 0, [], false, some 5, 1000000, ⟨0, 0⟩⟩;
      [x].findIdx? (fun y => match y.cfg with
        | some h => h.num == 0
        | none => false) = some 0 ∧ x.nextAt = some 5 ∧ meter.acts = true ∧ meter.dispatchAhead goose0.cls 5 = false) ∧
    (let x := subscribed.goosub 0;
      x.cfg = some sub0 ∧ (true && !sub0.sim) = true ∧ (x.any && !gooseAfter x.stNum x.sqNum 3 7) = true ∧
      (x.any && !gooseAfter x.stNum x.sqNum 4 0) = false ∧ x.expiry = some 9 ∧ x.vals[0]? = some 5 ∧ subscribed.placed (.goose 0 0) = true ∧
      subscribed.subOf (gooseRx 4 0 false) = some 0 ∧ subscribed.subOf { gooseRx 4 0 false with appId := 1 } = none ∧
      ((gooseRx 4 0 true).sim && !sub0.sim) = true ∧ (gooseRx 4 0 false).confRev = sub0.confRev ∧ x.stNum ≠ (gooseRx 4 0 false).stNum) := by
  decide +kernel
/-- Sources and destinations of other nodes, whatever addresses the device has. -/
theorem test_witness_EthernetPortsAndGoose_addresses :
    (let src := ownMac 2 + meter.pubMac 2 + 1; ¬ (src = ownMac 2 ∨ src = meter.pubMac 2)) ∧
    ∃ dst, dst ≠ ownMac 2 ∧ meter.addressed 2 dst = false := by
  refine ⟨by dsimp only; omega, ?_⟩
  have h : ∀ n < 3, n ≠ ownMac 2 → n ≠ meter.pubMac 2 → n ≠ ownMac 2 ∧ meter.addressed 2 n = false := fun n hn a b =>
    ⟨a, by
      have : n.testBit 40 = false := Nat.testBit_lt_two_pow (by omega)
      simp [Chip.addressed, this, a, b]⟩
  by_cases a : (0 : Nat) ≠ ownMac 2 ∧ (0 : Nat) ≠ meter.pubMac 2
  · exact ⟨0, h 0 (by omega) a.1 a.2⟩
  by_cases b : (1 : Nat) ≠ ownMac 2 ∧ (1 : Nat) ≠ meter.pubMac 2
  · exact ⟨1, h 1 (by omega) b.1 b.2⟩
  · exact ⟨2, h 2 (by omega) (by omega) (by omega)⟩
theorem test_witness_FramesLeaveByQueueAndDataset : ([0, 1] : List Nat).Nodup ∧ [0, 1].filter (fun p => meter.portOn p) = [0] ∧
    [1].filter (fun p => meter.portOn p) = [] ∧
    (let x (q : Nat) (o : NetOut) : TxFrame := ⟨7, q, 8, o⟩
     let g (ds : Nat) : NetOut := .goose 0 0x4000 ds 1 0 0 default false false [] false none;
      [x 3 (g 1), x 2 (g 0)].Pairwise (fun a b => leavesBefore b a = false) ∧ (x 2 (g 0)).at_ = (x 2 (g 1)).at_ ∧
      (x 2 (g 0)).queue < (x 3 (g 1)).queue ∧ txDataset (g 0) = some 0 ∧ txDataset (g 1) = some 1) ∧
    (meter.modDict (fun d => { d with outbox := [[1]] })).dict.outbox[0]? = some [1] := by decide +kernel
theorem test_witness_TheTimebaseAndCan :
    (let c : Chip := (up.wr 0x2A00 0x01 1).modTb (fun b => { b with goodSync := 15, gm := some (announce 1 0), lastAnn := some 0, ann := [announce 1 0] });
      c.net.tb.gm = some (announce 1 0) ∧ c.rd 0x2A00 0x01 = 1 ∧ c.rd 0x2A00 0x0A = 0 ∧ (announce 2 0).domain = c.rd 0x2A00 0x0A ∧
      false = (c.rd 0x2A00 0x0E == 1) ∧ c.anyBusy = false ∧ c.anyStarted = false ∧ 0 + 3000000000 ≤ 3000000000 ∧
      c.bestMaster (c.net.tb.ann.filter (fun x => x.identity != 1)) = none ∧ true ≠ (c.rd 0x2A00 0x0E == 1) ∧
      (c.wr 0x2A00 0x07 1).bestMaster [{ announce 1 0 with priority1 := 255 }] = none ∧
      c.bestMaster [announce 1 0, announce 2 0] = some (announce 1 0) ∧
      decide ((-1000 : Int).natAbs ≤ 1000) = true ∧ decide ((1001 : Int).natAbs ≤ 1000) = false) ∧
    (∀ k ∈ [0, 1, 2, 3, 4], (up.wr 0x2A00 0x01 k).rd 0x2A00 0x01 = k) ∧
    ({ up.net.tb with pendUtc := some (9, 38) } : TimeBase).pendUtc = some (9, 38) ∧
    ({ up.cal with leapDue := true } : Calendar).leapDue = true ∧ up.dict.mssUp = true ∧
    ((busPorts false).filter (fun q => meter.portOn q) ≠ [] ∧ (meter.wr 0x2A00 0x07 2).rd 0x2A00 0x07 = 2 ∧ true ≠ (meter.rd 0x2A00 0x0E == 1) ∧
      (meter.wr 0x2400 0x03 3).acts = false ∧ meter.acts = true ∧ meter.net.seqOwnS < 2 ^ 16 ∧
      (((meter.wr 0x2A00 0x07 2).at_ 5).sendMessages).ptpMaster 5 true = true ∧ ((meter.at_ 5).sendMessages).ptpMaster 5 true = false ∧
      (meter.wr 0x2A00 0x07 1).net.tb.other = [] ∧ (meter.wr 0x2A00 0x07 1).rd 0x2A00 0x07 = 1) ∧
    passesNum up 1 0x2A00 0x0F 1 (fun c => !c.anyBusy) = true ∧ passesNum (runs cfg none) 1 0x2A00 0x0F 1 (fun c => c.anyBusy) = true ∧
    passesNum up 1 0x2923 0x06 1 (fun _ => true) = true := by decide +kernel
theorem test_witness_TheTimebaseAndCan_frames :
    (let obj : CanObj := ⟨0, 0, false, 0x10, 0x7F0, 0, []⟩
     let frame (n : Nat) : CanFrame := ⟨n, false, false, false, [], none⟩
     let c := ((up.wr 0x2920 0x01 5).wr 0x2920 0x08 (2 ^ 30)).modCan 0 (fun p => { p with
        rx := [⟨obj, none, 0, 0, false, false⟩], tx := [⟨obj, [], true, 0, 0, 0⟩] });
      c.canReceives 0 = true ∧ c.canTakes 0 7 = true ∧ c.canSends 0 = true ∧ c.canMode 0 = 1 ∧ c.onWire 0 0 7 = none ∧
      (let c' := (c.wr 0x2920 0x01 4).modCan 0 (fun p => { p with cut := some 8 });
        c'.canReceives 0 = false ∧ c'.canTakes 0 7 = true ∧ c'.canMode 0 = 0 ∧ c'.canSends 0 = false) ∧
      (let c' (w : CanWire) := c.modCan 0 (fun p => { p with wire := some w });
        [(⟨some 0, [5], 9⟩ : CanWire), ⟨none, [], 7⟩].all (fun w => ((c' w).canp 0).wire == some w && (c' w).onWire 0 0 7 == some w &&
          !((c' w).canp 0).refDue && ((c' w).modCan 0 (fun p => { p with refDue := true })).canSends 0) = true) ∧
      ((c.canp 0).tx[0]?.map (·.queued) = some true) ∧ (c.canp 0).wire = none ∧ (c.canp 0).refDue = false ∧
      canMatch (frame 0x1F) obj = true ∧ canMatch (frame 0x20) obj = false ∧ canMatch { frame 0x1F with extended := true } obj = false ∧
      ((c.canp 0).rx.filter (fun r => canMatch (frame 0x1F) r.obj)).length = 1 ∧
      (c.canp 0).tx.findIdx? (fun x => x.obj.num == 0 && c.canStarts 0 x 7) = some 0 ∧ c.bit 0x2920 0x08 30 = true ∧ c.bit 0x2920 0x01 2 = true ∧
      0 < c.basicNs 0 ∧ 0 % c.basicNs 0 = 0 ∧ (c.canp 0).busOff = false ∧
      ((c.modCan 0 (fun p => { p with busOff := true })).canp 0).busOff = true ∧ (c.canp 0).waiting = false) := by decide +kernel
/-- A reference message starts at its boundary on an idle bus, which the other nodes' traffic, a free choice, leaves it or not. -/
theorem test_witness_TheTimebaseAndCan_reference (b : Bool) (h : (Config.freeWord 0).getLsbD 0 = b) :
    let c := (up.wr 0x2920 0x01 5).wr 0x2920 0x08 (2 ^ 30);
    (((c.at_ 0).modCan 0 (fun x => { x with refDue := true })).settleWire 0 0).refStarts 0 0 = b := by
  subst h; rfl

/-- An open session of identity 1, role 3, and the chip that holds it. -/
def session : Session := ⟨77, 0, 1, 3, 5, 1, 0, []⟩
def sessioned : Chip := up.modDict (fun d => { d with sessions := [session], hellos := [⟨78, 1, 6, 0⟩], lockouts := [(1, 9)] })

theorem test_witness_SessionsOpenAnswerAndEnd : up.answering = true ∧ up.dict.sessions.length < 8 ∧
    8 ≤ ({ up.dict with sessions := List.replicate 8 session } : Dict).sessions.length ∧
    sessioned.dict.lockouts.any (fun p => p.1 == 1 && decide (8 < p.2)) = true ∧ up.dict.lockouts.any (fun p => p.1 == 1 && decide (8 < p.2)) = false ∧
    sessioned.dict.lockouts.any (fun p => p.1 == 1 && decide (p.2 ≤ 9)) = true ∧
    sessioned.dict.hellos.find? (fun h => h.sid == 78 && decide (2000000000 ≤ h.at_ + 2000000000)) = some ⟨78, 1, 6, 0⟩ ∧
    sessioned.dict.hellos.find? (fun h => h.sid == 78 && decide (2000000001 ≤ h.at_ + 2000000000)) = none ∧
    (sessioned.secretOf 1).isSome = true ∧ sessioned.secretOf 2 = none ∧ sessioned.session 77 = some session ∧
    session.last + 60000000000 ≤ 60000000000 ∧
    (let g : Nat × Nat × Nat × List Byte × Instant := (0x2B00, 0x0A, 1, [], 0); g.2.2.2.2 + 5000000000 ≤ 5000000000) ∧
    passesNum up 1 0x2000 0x26 1 (fun _ => true) = true ∧ passesNum up 6 0x2000 0x10 0x5254 (fun _ => true) = true ∧
    udpTaken {} = true ∧ udpTaken { size := 1437 } = false ∧ udpTaken { size := 1436 } = true ∧ udpTaken { port := 41721 } = false ∧
    udpTaken { magic := 0 } = false ∧ udpTaken { ver := 2 } = false ∧ (sessioned.session 78 = none ∧ sessioned.dict.answers = []) := by
  decide +kernel

/-- A message of the session is accepted, whatever the MAC function is. -/
theorem accept_session (t : Instant) (ht : t < 60000000000) (bs : List Byte) :
    ∃ d, (sessioned.at_ t).accept 77 2 (Config.hmac16 5 bs) bs = (d, some session) ∧
      d = { sessioned with now := t, dict := { sessioned.dict with sessions := [{ session with ctrIn := 2, last := t }] } } := by
  have h : (sessioned.at_ t).session 77 = some session := rfl
  refine ⟨_, ?_, rfl⟩
  have e : (sessioned.at_ t).expireSession 77 (sessioned.at_ t).now = sessioned.at_ t := by
    simp only [Chip.expireSession, h]
    exact if_neg (by simpa [session, Chip.at_] using ht)
  simp only [Chip.accept, e, h]
  exact if_pos ⟨by decide, by decide, rfl⟩
theorem test_witness_SessionsOpenAnswerAndEnd_messages :
    (session.ctrIn < 2 ∧ 2 < 2 ^ 32) ∧ ¬ (session.ctrIn < 1) ∧
    (∃ d, (sessioned.at_ 7).accept 77 2 (Config.hmac16 5 (msgBytes 0x30 77 2 0 [])) (msgBytes 0x30 77 2 0 []) = (d, some session)) ∧
    (∃ d, (sessioned.at_ 7).accept 77 2 (Config.hmac16 5 (msgBytes 0x31 77 2 0 [])) (msgBytes 0x31 77 2 0 []) = (d, some session)) :=
  ⟨by decide, by decide, (accept_session 7 (by decide) _).imp fun _ h => h.1, (accept_session 7 (by decide) _).imp fun _ h => h.1⟩
/-- A key record of a session with role 3 passes its checks and leaves an owner key. -/
theorem test_witness_SessionsOpenAnswerAndEnd_key :
    let data := beBytes 1 1 ++ beBytes 2 1 ++ beBytes 9 2 ++ beBytes 5 32
    let a : Acc := ⟨7, some 77, 2, 1, 36, Config.hmac16 5 (msgBytes 0x11 77 2 1 (writePayload 0x2000 0x20 1 0 data)), {}⟩
    ∃ c w, sessioned.admits a 0x2000 0x20 0 data = some (c, w) ∧ (keysAfter c.dict.keys 1 2 9 5).any (fun k => k.kid != 0 && k.role == 3) = true ∧
      (c.dict.keys.zipIdx).any (fun p => p.2 != 1 && p.1.kid == 9) = false ∧ c.storeFree = true := by
  intro data a
  obtain ⟨d, h, hd⟩ := accept_session 7 (by decide) (msgBytes 0x11 77 2 1 (writePayload 0x2000 0x20 1 0 data))
  have hr : sessioned.reach 0x2000 = true := by decide +kernel
  have taken : udpTaken {} = true := by decide
  have ha : (sessioned.at_ 7).answering = true := by decide +kernel
  have hi : (sessioned.at_ a.t).identify a (msgBytes 0x11 (a.sid.getD 0) a.ctr a.csn (writePayload 0x2000 0x20 1 0 data)) =
      .go d ⟨some 77, 3, 1, 1, 2, 0⟩ := by
    simp only [Chip.identify, a, ha, if_true, Option.getD_some, taken, Bool.true_eq_false, if_false, h, session]
  have hc : (match d.checkWrite ⟨some 77, 3, 1, 1, 2, 0⟩ 0x2000 0x20 data.length 0 with
      | .ended _ => none
      | .go c w => some (c, w)) = some (d, ⟨some 77, 3, 1, 1, 2, 0⟩) := by
    subst hd
    rfl
  refine ⟨d, ⟨some 77, 3, 1, 1, 2, 0⟩, ?_, ?_, ?_, ?_⟩
  · simp only [Chip.admits, hr, if_true, hi]
    exact hc
  · subst hd; decide +kernel
  · subst hd; decide +kernel
  · subst hd; decide +kernel

theorem test_witness_EntriesAreReadAndWritten :
    (match (up.at_ 0).reader ⟨0, none, 0, 0, {}, {}⟩ [] with
      | .ended _ => false
      | .go _ w => Chip.readCheck w 0x2000 1 == none && Chip.readCheck w 0x2FFF 1 == some 0x06020000) = true ∧
    passes up { sdo with len := 6 } 0x2500 0x05 60 (beBytes 60 6) (fun c => c.dict.sessions == [] && !c.power.restartDue &&
      (match c.entryEffect ⟨none, 3, 0, 1, 0, 0⟩ 0 0x2500 0x05 (beBytes 60 6) with
        | .ok x => !x.power.restartDue
        | .error _ => false)) = true ∧
    passes up { sdo with len := 6 } 0x2400 0x20 1 (beBytes 1 6) (fun c =>
      (match c.entryEffect ⟨none, 3, 0, 1, 0, 0⟩ 0 0x2400 0x20 (beBytes 1 6) with
        | .ok _ => false
        | .error p => p.1 == 0)) = true ∧
    (let x : SdoSt := ⟨false, 0x2500, 5, false, [1], 0⟩;
      ({ up.dict with sdo := some x } : Dict).sdo = some x ∧ x.last + 1000000000 ≤ 1000000000 ∧ x.upload = false ∧
      ({ x with upload := true } : SdoSt).upload = true ∧ x.bytes.length + 7 ≤ 8192) ∧
    (up.wr 0x2920 0x01 1).sdoServed = true ∧ up.reach 0x2500 = true ∧
    (let c := up.wr 0x2920 0x01 1
     let len (ix sub : Nat) : Nat := ((c.value ix sub).getD []).length;
      c.dict.sdo = none ∧ (∀ p ∈ [(0x2000, 0x05), (0x2500, 0x05)], c.readRefusal (c.sdoWho 0) p.1 p.2 = none ∧ len p.1 p.2 ≤ 8192) ∧
      (sdoBytes 0x2000 0x05 ((c.value 0x2000 0x05).getD [])).length ≤ 4 ∧ 4 < (sdoBytes 0x2500 0x05 ((c.value 0x2500 0x05).getD [])).length ∧
      c.readRefusal (c.sdoWho 0) 0x2600 0x0D = none) := by decide +kernel
/-- A capture of 1 400 words is longer than an SDO transfer. -/
theorem test_witness_EntriesAreReadAndWritten_long (l : List Word) (h : l.length = 1400) :
    let c := up.modMeas (fun m => { m with stored := [captured false l], named := 0 });
    8192 < ((c.value 0x2600 0x0D).getD []).length := by
  have n : (captureBytes (captured false l)).length = 24 + 6 * l.length := by
    simp [captureBytes, captureAs, captured, beBytes, List.length_flatMap]
    omega
  show 8192 < (captureBytes (captured false l)).length
  omega
theorem test_witness_WritesAreOrdered : up.answering = true ∧ up.rd 0x2900 0x20 ≠ 0 ∧
    ((entryOf 0x2500 0x05).map (·.acc) = some .rw ∧ (entryOf 0x2000 0x10).map (·.acc) = some .wo) ∧
    (let c := up.modDict (fun d => { d with lately := [(0, 5, 0x2500, 0x05, [1])] });
      3 < 5 ∧ (c.now / 1000, 5, 0x2500, 0x05, [1]) ∈ c.dict.lately) ∧ up.dict.lately = [] := by decide +kernel
theorem test_witness_EntriesAreReadAndWritten_segment (bs : List Byte) :
    ∃ d w, (sessioned.at_ 7).identify ⟨7, some 77, 2, 1, 6, Config.hmac16 5 bs, {}⟩ bs = .go d w ∧ (∀ x ∈ d.dict.sessions, x.segs = []) ∧
      d.power.restartDue = false := by
  obtain ⟨d, h, hd⟩ := accept_session 7 (by decide) bs
  have ha : (sessioned.at_ 7).answering = true := by decide +kernel
  refine ⟨d, ⟨some 77, 3, 1, 1, 2, 0⟩, ?_, ?_, ?_⟩
  · have taken : udpTaken {} = true := by decide
    simp only [Chip.identify, ha, if_true, taken, Bool.true_eq_false, if_false, h, session]
  · subst hd; simp [session]
  · subst hd; rfl

/-- An event record of a severity. -/
def record (sev : Nat) : EvRec := ⟨⟨0, 0⟩, 0x0201, sev, false, 3, 0, 7, [], 0, 0, 0, []⟩
theorem test_witness_RecordsAreWrittenErasedReadAndCleared : up.flashOn = true ∧ up.flashSupplied = true ∧ up.recd.queue = [] ∧
    (takeSlot up.recd.sectors).isSome = true ∧ (nth ⟨0, 0, 0⟩ ({ up.recd with sectors := [⟨4, 3, 9⟩] } : Recorder).sectors 0).st = 3 ∧
    (let a (cut : FlashCut) : Bool := decide ((cut.step.val = 1 ∧ 8 ≤ cut.done) ∨ 2 ≤ cut.step.val);
      a ⟨1, 7⟩ = false ∧ a ⟨1, 8⟩ = true ∧ a ⟨3, 7⟩ = true ∧ a ⟨0, 40⟩ = false) ∧
    (takeSpace up.store.halfA (recLen [1])).isSome = true ∧ (takeSpace up.store.halfB (recLen [1])).isSome = true ∧
    (nth ⟨0, 0, 0⟩ (halfOf { up.store with halfB := [⟨4, 3, 9⟩] } true) 0).st = 3 ∧ up.die.work = [] ∧
    (takeSpace [] (recLen [1])) = none ∧ (up.recd.live.map (·.seq)).Nodup ∧ halfAt .storeB = some (false, true) ∧ halfAt .identA = some (true, false) ∧
    ({ up with store := { up.store with halfB := [⟨4, 3, 9⟩] } } : Chip).sectorSt .storeB 0 = 3 ∧
    recRoom [] 2 = some ([], false) ∧ (record 2).code ≠ clearCode ∧ ({ record 4 with code := clearCode } : EvRec).code = clearCode ∧
    [record 3].length < recorderCapacity ∧ sevMajor ≠ sevAudit ∧
    (up.opens ⟨0, none, 0, 0, {}, {}⟩ 0x2B00 0x10 []).isSome = true ∧
    passesNum up 6 0x2B00 0x20 31 (fun c => decide (c.recd.queue.length < 256)) = true := by decide +kernel
/-- A recorder full of records more severe than the newest one has no room; one that holds its full share of audit records displaces one. -/
theorem test_witness_RecordsAreWrittenErasedReadAndCleared_full :
    recRoom (List.replicate recorderCapacity (record 3)) 2 = none ∧
    auditCap ≤ ((List.replicate auditCap (record sevAudit)).filter (fun y => y.sev == sevAudit)).length := by
  have h : (record sevAudit).sev == sevAudit := by decide
  refine ⟨?_, by rw [List.filter_replicate]; simp [h]⟩
  unfold recRoom
  rw [if_neg (by decide), List.length_replicate, if_neg (Nat.lt_irrefl _), if_neg (by decide), if_neg]
  simp [record]

theorem test_witness_TheFlashDieIsProgrammedOnceAndErased :
    let d : FlashDie := ⟨[⟨0x02800000, List.replicate 8 1, [false]⟩], [(0x0281, 3)], []⟩;
    d.blank 0x02800008 8 = true ∧ d.blank 0x02800000 8 = false ∧ d.blank 0x02810000 8 = false ∧ isFactory 0x03C1FFFF = true ∧
    isFactory 0x03C20000 = false ∧ isFactory 0x02800008 = false ∧ 0x02800008 + 8 ≤ 0x03D00000 ∧
    (∀ p ∈ d.progs, p.bytes ≠ [] ∧ p.addr / 65536 = (p.addr + p.bytes.length - 1) / 65536) := by decide +kernel
theorem test_witness_TheCalendarCountsAndTheRollCallWatches :
    (let k := { up.cal with frozen := some [], frozenAge := 32768, shadow := some [0, 0, 0x59, 0x23, 0x29, 0x02, 0x2000] };
      k.frozen.isSome = true ∧ 32768 ≤ k.frozenAge ∧ calShadowVal [0, 0, 0x59, 0x23, 0x29, 0x02, 0x2000] = some ⟨0, 0, 59, 23, 29, 2, 0⟩ ∧
      calShadowVal [0, 0, 0x59, 0x23, 0x29, 0x02, 0x2001] = none) ∧ up.cal.shadow = none ∧ up.cal.commit = none ∧ up.cal.shift = none ∧
    up.pd0On = true ∧ up.power.phase = .ready ∧ (0x8000 : BitVec 16).toNat % 32768 = 0 ∧ (0x8001 : BitVec 16).toNat % 32768 ≠ 0 ∧ (7 : BitVec 16).toNat % 8 ≠ 0 ∧
    (8 : BitVec 16).toNat % 8 = 0 ∧ (⟨32766, 59, 59, 23, 31, 12, 999⟩ : CalVal) ≠ ⟨32767, 59, 59, 23, 31, 12, 999⟩ ∧
    31 ≤ monthDays (2000 + 999) 12 ∧ (up.wr 0x2A00 0x25 1).rd 0x2A00 0x25 = 1 ∧ ¬ (up.cal.offAtMark < -32767) := by decide +kernel
theorem test_witness_TheCalendarCountsAndTheRollCallWatches_members :
    (let x : Member := ⟨true, 1000, 0, 1000, 0, none, 0, false, none, ⟨0, 0⟩, true, false, false⟩;
      watched x = true ∧ x.signal = true ∧ x.mergeFlag = false ∧ watched { x with failAt := some 3 } = false ∧ Member.reset.signal = false ∧ armBy x = 33 ∧
      missingBy x 33 = true ∧ missingBy x 32 = false ∧
      (let y := { x with armed := some 0 };
        openTick y 0 0 = -16 ∧ closeTick y 0 0 = 17 ∧ openTick y 0 1 = 17 ∧ closeTick y 0 1 = 50 ∧
        ({ y with got := true } : Member).got = true) ∧
      (let y : Member := ⟨true, 2000, 1000, 2000, 0, some 0, 0, false, none, ⟨0, 0⟩, true, true, false⟩; (49 : Int) < openTick y 0 1 ∧ openTick y 0 1 = 50 ∧ (49 : Int) < closeTick y 0 1)) ∧
    up.rd 0x2C00 0x03 = 0 ∧ up.dict.mssUp = true ∧ (up.wr 0x2C00 0x03 1).rd 0x2C00 0x03 ≠ 0 ∧ up.wd.lockAt ≤ up.wd.count ∧
    (let w : Watchdog := { up.wd with lockAt := up.wd.count + 5 }; w.count < w.lockAt) ∧
    passesNum up 1 0x2C00 0x08 1 (fun _ => true) = true ∧ up.wd.ev1 = none ∧ up.wd.ev0 = none ∧ up.wd.lastFw = none ∧ (up.member 17).on_ = false ∧ up.recd.queue.length < 200 ∧
    ({ up with power := { up.power with phase := .pd0Alone } } : Chip).pd0On = true ∧
    ({ up.wd with lastFw := some 5 } : Watchdog).lastFw = some 5 ∧ 327684 < 5 + 327680 ∧ up.partnerReady = false ∧
    (paired psActive psStandbyReady).partnerReady = true := by decide +kernel

/-- A waveform of one frame that drives no pixel. -/
def still : List Byte := 1 :: List.replicate 5 0
/-- A chip whose panel has that waveform in every band, in this state, with this run and this pending command. -/
def panelled (st : Nat) (run : Option PanelRun) (pending : Option PanelKind) : Chip :=
  (up.wr 0x2E00 0x01 st).modPanel (fun p => { p with tables := List.replicate 8 still, run := run, pending := pending, unknown := false })
theorem test_witness_ThePanelTakesImagesDrivesAndBalances : tableOk still = true ∧ still.length = 5 * 1 + 1 ∧
    passes up { sdo with len := 82 } 0x2E00 0x10 0 (beBytes 239 2 ++ List.replicate 80 0) (fun _ => decide (239 + 80 / 80 ≤ 240)) = true ∧
    passes up { sdo with len := 6 } 0x2E00 0x27 0 still (fun c => c.storeFree) = true ∧
    (∀ v ∈ [1, 2, 4], passesNum (panelled pnOff none none) 6 0x2E00 0x11 v (fun c => c.panelState != pnDisabled && c.bandTable != []) = true) ∧
    passesNum (panelled pnDisabled none none) 6 0x2E00 0x11 1 (fun c => c.panelState == pnDisabled) = true ∧
    passesNum (panelled pnUpdating (some ⟨.fullUpd, 1, [], 0⟩) none) 6 0x2E00 0x11 3 (fun c => c.panel.run.isSome) = true ∧
    passesNum (panelled pnIdle none none) 6 0x2E00 0x11 3 (fun c => c.panel.run == none) = true ∧
    passesNum (panelled pnDisabled none none) 6 0x2E00 0x11 5 (fun c => decide (c.now < c.panel.idleAt + 26000000)) = true ∧
    ((panelled pnDisabled none none).at_ 26000000).discharged = true ∧
    (∀ k ∈ [pnPowering, pnIdle, pnUpdating, pnBalancing, pnRepainting, pnDischarging], (panelled k none none).panelState = k ∧ (panelled k none none).panel.idleAt + 26000000 ≤ 26000000) ∧
    (let c := panelled pnIdle none (some .partialUpd);
      c.panel.pending = some .partialUpd ∧ c.panelState = pnIdle ∧ c.panel.balDue = false ∧ c.bandTable ≠ [] ∧
      ({ c.panel with balDue := true } : Panel).balDue = true) ∧
    framesLeft (panelled pnUpdating (some ⟨.fullUpd, 1, [], 0⟩) none).panel = true ∧
    frameEnd (panelled pnUpdating (some ⟨.fullUpd, 1, [], 0⟩) none).panel ≤ 100000000 ∧
    (let p := { (panelled pnUpdating (some ⟨.fullUpd, 1, [], 1⟩) none).panel with counters := [(0, 95)] };
      p.run = some ⟨.fullUpd, 1, [], 1⟩ ∧ 1 ≤ 1 ∧ counterMax p.counters < 96 ∧ 96 ≤ counterMax [(0, -96)]) ∧
    ({ up.panel with run := some ⟨.balance, 0, [], 3⟩ } : Panel).run = some ⟨.balance, 0, [], 3⟩ ∧ up.panel.counters = [] ∧
    up.running = true ∧ (up.wr 0x2800 0x08 1).trimMode = true ∧ ((up.wr 0x2800 0x08 1).modPanel (fun p => { p with trimView := some (0, 0, 0, 0x3F800000) })).panel.trimView =
      some ((up.wr 0x2800 0x08 1).trimShown) ∧ up.panel.trimView = none ∧
    ({ up.panel with trimAct := some (1, 0) } : Panel).trimAct = some (1, 0) := by decide +kernel
/-- A buffer whose CRC is kept right, and one whose CRC is not. -/
theorem test_witness_ThePanelTakesImagesDrivesAndBalances_crc (p : Panel) :
    bufferCrc ({ p with tgtCrc := bufferCrc p.tgt } : Panel).tgt = ({ p with tgtCrc := bufferCrc p.tgt } : Panel).tgtCrc ∧
    bufferCrc ({ p with tgtCrc := bufferCrc p.tgt + 1 } : Panel).tgt ≠ ({ p with tgtCrc := bufferCrc p.tgt + 1 } : Panel).tgtCrc ∧
    ∀ l, bufferCrc (upsetBy l p.cur) = ({ p with curCrc := bufferCrc (upsetBy l p.cur) } : Panel).curCrc ∧
      bufferCrc (upsetBy l p.cur) ≠ ({ p with curCrc := bufferCrc (upsetBy l p.cur) + 1 } : Panel).curCrc :=
  ⟨rfl, Nat.ne_of_lt (Nat.lt_succ_self _), fun _ => ⟨rfl, Nat.ne_of_lt (Nat.lt_succ_self _)⟩⟩

theorem test_witness_AStepRunsTheFrontCommand : ({ State.reset with pending := [.calCommit] } : State).pending = [.calCommit] ∧
    State.reset.pending = [] := by decide
theorem test_witness_EngineOperationsKeepTheFormOfEngines :
    (let w : Work := { busy with arch := { busy.arch with rung := List.replicate 16 true, ret := List.replicate 8 1 } };
      EnginesFormed (chipOf w) ∧ ({ pending := [.push o], chip := chipOf w } : State).pending = [.push o] ∧ (Instr.push o).ofEngine = true ∧
      (exec (.push o) { pending := [], chip := chipOf w } matches .next _) = true) := by unfold EnginesFormed; decide +kernel
theorem test_witness_DecodeOfEncodeIsTheOperation : (Instr.dadd o 2 4 62).op = some o ∧ operandsLegal (.dadd o 2 4 62) = true ∧
    formOk (.dadd o 2 4 62) = true ∧ profileOnly (.dadd o 2 4 62) = none ∧ encodeOp (.add o 4 4 (.reg 5)) = some (.a, 0x00110414) := by
  decide +kernel

end Sys2Proof.Tests
end

section
namespace Sys2Proof.Machine

/-! ### Folds over chips -/

/-- What every step of a fold keeps, the fold keeps. -/
theorem foldl_keeps {β γ : Type} (g : Chip → γ) {f : Chip → β → Chip} {l : List β} (h : ∀ c, ∀ x ∈ l, g (f c x) = g c) (c : Chip) :
    g (l.foldl f c) = g c := by
  induction l generalizing c with
  | nil => rfl
  | cons x l ih =>
    rw [List.foldl_cons, ih (fun c y hy => h c y (List.mem_cons_of_mem _ hy)), h c x List.mem_cons_self]

/-- What holds at the start and every step keeps holds after the fold. -/
theorem foldl_invariant {β : Type} {A : Chip → Prop} {f : Chip → β → Chip} {l : List β} (h : ∀ c, ∀ x ∈ l, A c → A (f c x)) (c : Chip)
    (hc : A c) : A (l.foldl f c) := by
  induction l generalizing c with
  | nil => exact hc
  | cons x l ih => exact ih (fun c y hy => h c y (List.mem_cons_of_mem _ hy)) _ (h c x List.mem_cons_self hc)

/-- What the step of one element brings about, and every step keeps, holds after a fold over a list with that element. -/
theorem foldl_brings {β : Type} {A P : Chip → Prop} {f : Chip → β → Chip} {l : List β} {k : β} (hk : k ∈ l) (hA : ∀ c x, A c → A (f c x))
    (hb : ∀ c, A c → P (f c k)) (hP : ∀ c x, A c → P c → P (f c x)) (c : Chip) (hc : A c) : P (l.foldl f c) := by
  have hboth : ∀ (l : List β) (c : Chip), A c → P c → P (l.foldl f c) := fun l c ha hp =>
    (foldl_invariant (A := fun c => A c ∧ P c) (l := l) (fun c x _ hc => ⟨hA c x hc.1, hP c x hc.1 hc.2⟩) c ⟨ha, hp⟩).2
  induction l generalizing c with
  | nil => cases hk
  | cons x l ih =>
    rcases List.mem_cons.mp hk with rfl | hm
    · exact hboth l _ (hA c k hc) (hb c hc)
    · exact ih hm _ (hA c x hc)

/-! ### The register file by key -/

/-- What the register file holds at a key. -/
abbrev Chip.reg (c : Chip) (k : Nat) : Word := Sparse.get regDefault c.regs k

theorem Chip.rd_of_reg {c d : Chip} {ix sub : Nat} (h : d.reg (ix * 256 + sub) = c.reg (ix * 256 + sub)) : d.rd ix sub = c.rd ix sub :=
  congrArg BitVec.toNat h

theorem Chip.bit_of_reg {c d : Chip} {ix sub : Nat} (i : Nat) (h : d.reg (ix * 256 + sub) = c.reg (ix * 256 + sub)) :
    d.bit ix sub i = c.bit ix sub i := congrArg (Nat.testBit · i) (Chip.rd_of_reg h)

/-- A chip acts by its pair state alone. -/
theorem Chip.acts_congr {c d : Chip} (h : d.pairState = c.pairState) : d.acts = c.acts := by simp only [Chip.acts, h]

section
variable (c : Chip) {k : Nat}

/-- A write of a register leaves what stands at every other key. -/
@[simp] theorem Chip.reg_wr (ix sub v : Nat) (h : k ≠ ix * 256 + sub) : (c.wr ix sub v).reg k = c.reg k := Sparse.get_set_other _ _ _ _ _ h
@[simp] theorem Chip.reg_wrPair (ix sub : Nat) (p : TimePair) (h : k ≠ ix * 256 + sub) (h1 : k ≠ 0x1000000 + ix * 256 + sub) :
    (c.wrPair ix sub p).reg k = c.reg k :=
  (Sparse.get_set_other _ _ _ _ _ h1).trans (Sparse.get_set_other _ _ _ _ _ h)
@[simp] theorem Chip.reg_bumpBy (ix sub n : Nat) (h : k ≠ ix * 256 + sub) : (c.bumpBy ix sub n).reg k = c.reg k := c.reg_wr ix sub _ h
@[simp] theorem Chip.reg_bump (ix sub : Nat) (h : k ≠ ix * 256 + sub) : (c.bump ix sub).reg k = c.reg k := c.reg_wr ix sub _ h
@[simp] theorem Chip.reg_setBit (ix sub i : Nat) (b : Bool) (h : k ≠ ix * 256 + sub) : (c.setBit ix sub i b).reg k = c.reg k :=
  c.reg_wr ix sub _ h
@[simp] theorem Chip.reg_setFld (ix sub hi lo v : Nat) (h : k ≠ ix * 256 + sub) : (c.setFld ix sub hi lo v).reg k = c.reg k :=
  c.reg_wr ix sub _ h

/-- An event writes no register but the count of drops. -/
@[simp] theorem Chip.reg_eventAs (t : Instant) (code sev : Nat) (fin : Bool) (src unit org csn : Nat) (dtl : List Byte)
    (h : k ≠ 0x2B00 * 256 + 9) : (c.eventAs t code sev fin src unit org csn dtl).reg k = c.reg k := by
  unfold Chip.eventAs
  split
  · rfl
  · exact c.reg_bump _ _ h
@[simp] theorem Chip.reg_event (code sev src unit : Nat) (dtl : List Byte) (h : k ≠ 0x2B00 * 256 + 9) :
    (c.event code sev src unit dtl).reg k = c.reg k := c.reg_eventAs _ _ _ _ _ _ _ _ _ h

end

end Sys2Proof.Machine
end

section
namespace Sys2Proof.Machine

/-! ### Fields of numbers (R1) -/

/-- Replacing a field cuts a number into what stands above it, the field and what stands below. -/
theorem setFieldOf_split (w hi lo v : Nat) (h : lo ≤ hi) : setFieldOf w hi lo v =
    (w / 2 ^ (hi + 1) * 2 ^ (hi + 1 - lo) + v % 2 ^ (hi + 1 - lo)) * 2 ^ lo + w % 2 ^ lo := by
  have hp : 2 ^ (hi + 1) = 2 ^ lo * 2 ^ (hi + 1 - lo) := by rw [← Nat.pow_add]; congr 1; omega
  have hq : w / 2 ^ lo = w / 2 ^ (hi + 1) * 2 ^ (hi + 1 - lo) + w / 2 ^ lo % 2 ^ (hi + 1 - lo) := by
    rw [hp, ← Nat.div_div_eq_div_mul, Nat.div_add_mod']
  have hw : w = (w / 2 ^ (hi + 1) * 2 ^ (hi + 1 - lo) + w / 2 ^ lo % 2 ^ (hi + 1 - lo)) * 2 ^ lo + w % 2 ^ lo := by
    rw [← hq, Nat.div_add_mod']
  rw [setFieldOf, fieldOf, Nat.shiftLeft_eq, Nat.shiftLeft_eq, Nat.shiftRight_eq_div_pow]
  rw [Nat.add_mul] at hw ⊢
  omega

theorem testBit_setFieldOf_bit (w i j : Nat) (b : Bool) : (setFieldOf w i i (bit01 b)).testBit j = if j = i then b else w.testBit j := by
  have hb : bit01 b % 2 ^ 1 = b.toNat := by cases b <;> rfl
  have hs : i + 1 - i = 1 := by omega
  rw [setFieldOf_split w i i _ (Nat.le_refl i), hs, hb, Nat.mul_comm _ (2 ^ i),
    Nat.testBit_two_pow_mul_add _ (Nat.mod_lt _ (Nat.two_pow_pos i))]
  rcases Nat.lt_trichotomy j i with h | h | h
  · have hne : j ≠ i := by omega
    simp [h, hne, Nat.testBit_mod_two_pow]
  · subst h
    cases b <;> simp [Nat.testBit_zero]
  · have hne : j ≠ i := by omega
    have hlt : ¬ j < i := by omega
    obtain ⟨d, rfl⟩ : ∃ d, j = i + 1 + d := ⟨j - i - 1, by omega⟩
    have hd : i + 1 + d - i = d + 1 := by omega
    have h2 : (w / 2 ^ (i + 1) * 2 ^ 1 + b.toNat) / 2 = w / 2 ^ (i + 1) := by
      rw [Nat.pow_one, Nat.mul_comm, Nat.mul_add_div (by decide), Nat.div_eq_of_lt (Bool.toNat_lt b), Nat.add_zero]
    rw [if_neg hlt, if_neg hne, hd, Nat.testBit_succ, h2, Nat.testBit_div_two_pow, Nat.add_comm d]

/-- A field reads as set. -/
theorem fieldOf_setFieldOf (w hi lo v : Nat) (h : lo ≤ hi) : fieldOf (setFieldOf w hi lo v) hi lo = v % 2 ^ (hi + 1 - lo) := by
  rw [setFieldOf_split w hi lo v h, fieldOf, Nat.shiftRight_eq_div_pow, Nat.mul_comm _ (2 ^ lo),
    Nat.mul_add_div (Nat.two_pow_pos lo), Nat.div_eq_of_lt (Nat.mod_lt _ (Nat.two_pow_pos lo)), Nat.add_zero, Nat.mul_add_mod_self_right,
    Nat.mod_mod]

/-- A field within the 48 bits of a register is that of the number written. -/
theorem fieldOf_mod (w hi lo : Nat) (h : hi < 48) (hl : lo ≤ hi) : fieldOf (w % 2 ^ 48) hi lo = fieldOf w hi lo := by
  simp only [fieldOf, Nat.shiftRight_eq_div_pow]
  have hp : 2 ^ 48 = 2 ^ lo * 2 ^ (48 - lo) := by rw [← Nat.pow_add]; congr 1; omega
  have hd : 2 ^ (hi + 1 - lo) ∣ 2 ^ (48 - lo) := Nat.pow_dvd_pow _ (by omega)
  rw [hp, Nat.mod_mul_right_div_self, Nat.mod_mod_of_dvd _ hd]

section
variable (c : Chip)

/-- A bit of a register reads as set, and the others as before. -/
theorem Chip.bit_setBit (ix sub i j : Nat) (b : Bool) (h : j < 48) :
    (c.setBit ix sub i b).bit ix sub j = if j = i then b else c.bit ix sub j := by
  have hr : (c.setBit ix sub i b).rd ix sub = setFieldOf (c.rd ix sub) i i (bit01 b) % 2 ^ 48 := Chip.rd_wr_same ..
  rw [Chip.bit, hr, Nat.testBit_mod_two_pow, testBit_setFieldOf_bit]
  simp only [h, decide_true, Bool.true_and]
  rfl

theorem Chip.fld_setFld_same (ix sub hi lo v : Nat) (h : hi < 48) (hl : lo ≤ hi) :
    (c.setFld ix sub hi lo v).fld ix sub hi lo = v % 2 ^ (hi + 1 - lo) := by
  have hr : (c.setFld ix sub hi lo v).rd ix sub = setFieldOf (c.rd ix sub) hi lo v % 2 ^ 48 := Chip.rd_wr_same ..
  rw [Chip.fld, hr, fieldOf_mod _ _ _ h hl, fieldOf_setFieldOf _ _ _ _ hl]

end

theorem Chip.fld_of_reg {c d : Chip} {ix sub : Nat} (hi lo : Nat) (h : d.reg (ix * 256 + sub) = c.reg (ix * 256 + sub)) :
    d.fld ix sub hi lo = c.fld ix sub hi lo := congrArg (fieldOf · hi lo) (Chip.rd_of_reg h)

/-! ### The recorder -/

/-- A queue that is not full takes the record of an event. -/
theorem queue_eventAs (c : Chip) (t : Instant) (code sev : Nat) (fin : Bool) (src unit org csn : Nat) (dtl : List Byte)
    (h : c.recd.queue.length < 256) : (c.eventAs t code sev fin src unit org csn dtl).recd.queue = queueEvents c.recd.queue
      [⟨c.pairAt t, code, sev, fin, src, unit, 0, (c.snapshot code).2, (c.snapshot code).1, org, csn, dtl⟩] := by
  rw [Chip.eventAs, if_pos h]
  rfl

/-- An event only adds to the recorder's queue. -/
theorem mem_queue_eventAs (c : Chip) (t : Instant) (code sev : Nat) (fin : Bool) (src unit org csn : Nat) (dtl : List Byte) {q : EvRec}
    (h : q ∈ c.recd.queue) : q ∈ (c.eventAs t code sev fin src unit org csn dtl).recd.queue := by
  by_cases hl : c.recd.queue.length < 256
  · rw [queue_eventAs _ _ _ _ _ _ _ _ _ _ hl]
    exact (mem_queueEvents _ _ _).mpr (.inl h)
  · rw [Chip.eventAs, if_neg hl]
    exact h

theorem exists_queue_event (c : Chip) (code sev src unit : Nat) (dtl : List Byte) (h : c.recd.queue.length < 256) :
    ∃ q ∈ (c.event code sev src unit dtl).recd.queue, q.code = code ∧ q.sev = sev ∧ q.unit = unit := by
  rw [Chip.event, queue_eventAs _ _ _ _ _ _ _ _ _ _ h]
  exact ⟨_, (mem_queueEvents _ _ _).mpr (.inr List.mem_cons_self), rfl, rfl, rfl⟩

/-! ### The state of a class (R376) -/

/-- A change of registers and of the roll call alone. -/
def ChangesRollCall (c d : Chip) : Prop := ∃ regs wd, d = { c with regs := regs, wd := wd }

theorem ChangesRollCall.trans {a b c : Chip} (h : ChangesRollCall a b) (h' : ChangesRollCall b c) : ChangesRollCall a c := by
  obtain ⟨r, w, rfl⟩ := h
  obtain ⟨r', w', rfl⟩ := h'
  exact ⟨r', w', rfl⟩

theorem changesRollCall_wr (c : Chip) (ix sub v : Nat) : ChangesRollCall c (c.wr ix sub v) := ⟨_, c.wd, rfl⟩
theorem changesRollCall_modMember (c : Chip) (m : Nat) (f : Member → Member) : ChangesRollCall c (c.modMember m f) := ⟨c.regs, _, rfl⟩

theorem changesRollCall_setClState (c : Chip) (n st : Nat) : ChangesRollCall c (c.setClState n st) :=
  (((changesRollCall_wr ..).trans (changesRollCall_wr ..)).trans (changesRollCall_wr ..)).trans (changesRollCall_wr ..)
theorem changesRollCall_enrolMember (c : Chip) (m p o cl : Nat) : ChangesRollCall c (c.enrolMember m p o cl) :=
  ((((((changesRollCall_modMember ..).trans (changesRollCall_wr ..)).trans (changesRollCall_wr ..)).trans
    (changesRollCall_wr ..)).trans (changesRollCall_wr ..)).trans (changesRollCall_wr ..)).trans (changesRollCall_wr ..)
theorem changesRollCall_withdrawMember (c : Chip) (m : Nat) : ChangesRollCall c (c.withdrawMember m) :=
  (((changesRollCall_modMember ..).trans (changesRollCall_wr ..)).trans (changesRollCall_wr ..)).trans (changesRollCall_wr ..)

/-- A class changes its state, and it enters the roll call, leaves it, or neither. -/
theorem toState_cases (c : Chip) (n st : Nat) : c.toState n st = c.setClState n st ∨
    (∃ p o cl, c.toState n st = (c.setClState n st).enrolMember n p o cl) ∨ c.toState n st = (c.setClState n st).withdrawMember n := by
  simp only [Chip.toState]
  split
  · split
    · split
      · exact .inr (.inl ⟨_, _, _, rfl⟩)
      · exact .inl rfl
    · exact .inl rfl
  · split
    · exact .inr (.inr rfl)
    · exact .inl rfl

/-- Taking a class to a state changes registers and the roll call alone. -/
theorem toState_eq (c : Chip) (n st : Nat) : ∃ regs wd, c.toState n st = { c with regs := regs, wd := wd } := by
  rcases toState_cases c n st with h | ⟨p, o, cl, h⟩ | h <;> rw [h]
  · exact changesRollCall_setClState c n st
  · exact (changesRollCall_setClState c n st).trans (changesRollCall_enrolMember ..)
  · exact (changesRollCall_setClState c n st).trans (changesRollCall_withdrawMember ..)

section
variable (c : Chip) {k : Nat}

theorem reg_setClState (n st : Nat) (h8 : k ≠ (0x2210 + n) * 256 + 8) (h : k / 256 ≠ 0x2200) : (c.setClState n st).reg k = c.reg k := by
  simp (disch := omega) only [Chip.setClState, Chip.reg_setBit, Chip.reg_wr]

theorem reg_modMember (m : Nat) (f : Member → Member) : (c.modMember m f).reg k = c.reg k := rfl

theorem reg_enrolMember (m p o cl : Nat) (hm : m < 16) (h : k < 0x2C00 * 256 ∨ 0x2D00 * 256 ≤ k) :
    (c.enrolMember m p o cl).reg k = c.reg k := by
  simp (disch := omega) only [Chip.enrolMember, Chip.reg_setBit, Chip.reg_wr, reg_modMember]

theorem reg_withdrawMember (m : Nat) (hm : m < 16) (h : k < 0x2C00 * 256 ∨ 0x2D00 * 256 ≤ k) : (c.withdrawMember m).reg k = c.reg k := by
  simp (disch := omega) only [Chip.withdrawMember, Chip.reg_setBit, Chip.reg_wr, reg_modMember]

theorem reg_toState_of_setClState (n st : Nat) (hn : n < 16) (h : k < 0x2C00 * 256 ∨ 0x2D00 * 256 ≤ k) :
    (c.toState n st).reg k = (c.setClState n st).reg k := by
  rcases toState_cases c n st with ht | ⟨p, o, cl, ht⟩ | ht <;> rw [ht]
  · exact reg_enrolMember _ _ _ _ _ hn h
  · exact reg_withdrawMember _ _ hn h

/-- The registers that a class's change of state leaves: all but its own state, the lists of 0x2200, and the roll call. -/
theorem reg_toState (n st : Nat) (hn : n < 16) (h8 : k ≠ (0x2210 + n) * 256 + 8) (h2 : k / 256 ≠ 0x2200)
    (h : k < 0x2C00 * 256 ∨ 0x2D00 * 256 ≤ k) : (c.toState n st).reg k = c.reg k :=
  (reg_toState_of_setClState c n st hn h).trans (reg_setClState c n st h8 h2)

theorem clState_toState (n st : Nat) (hn : n < 16) (hst : st < 2 ^ 48) : (c.toState n st).clState n = st := by
  have h1 : (c.toState n st).reg ((0x2210 + n) * 256 + 8) = (c.setClState n st).reg ((0x2210 + n) * 256 + 8) :=
    reg_toState_of_setClState c n st hn (by omega)
  have h2 : (c.setClState n st).reg ((0x2210 + n) * 256 + 8) = (c.wr (0x2210 + n) 0x08 st).reg ((0x2210 + n) * 256 + 8) := by
    simp (disch := omega) only [Chip.setClState, Chip.reg_setBit]
  rw [Chip.clState, Chip.rd_of_reg (h1.trans h2), Chip.rd_wr_same, Nat.mod_eq_of_lt hst]

end

/-! ### Stopping a class (R27, R67, R163, R203) -/

/-- An answer to those who wait changes the dictionary's side alone. -/
theorem answerWaiting_eq (c : Chip) (id csn : Nat) (b : AnsBody) : ∃ d, c.answerWaiting id csn b = { c with dict := d } := by
  unfold Chip.answerWaiting
  refine foldl_invariant (A := fun x => ∃ d, x = { c with dict := d }) ?_ _ ⟨_, rfl⟩
  rintro x q - ⟨d, rfl⟩
  exact ⟨_, rfl⟩

theorem answersWaiting_eq (c : Chip) (l : List Queued) (b : AnsBody) :
    ∃ d, l.foldl (fun c q => c.answerWaiting (qOrig q) q.csn b) c = { c with dict := d } := by
  refine foldl_invariant (A := fun x => ∃ d, x = { c with dict := d }) ?_ _ ⟨c.dict, rfl⟩
  rintro x q - ⟨d, rfl⟩
  obtain ⟨d', h⟩ := answerWaiting_eq { c with dict := d } (qOrig q) q.csn b
  exact ⟨d', h⟩

theorem discardEdits_eq (c : Chip) (n : Nat) :
    ∃ x rs d, c.discardEdits n = { c.bumpBy 0x2500 0x07 x with regions := rs, dict := d } := by
  simp only [Chip.discardEdits]
  obtain ⟨d, h⟩ := answersWaiting_eq _ _ _
  exact ⟨_, _, d, h⟩

/-- What stopping a class at d makes of it: no cycle, no held fault, no skip; where it drove, its outputs go to their safe state at d. -/
def stoppedCls (drove : Bool) (d : Instant) (k : Cls) : Cls := { k with
  cycle := none, held := none, skipAt := none,
  safeAt := if drove then some d else k.safeAt, stopAt := if drove then heldFrom k.stopAt d else k.stopAt }

/-- The class had outputs to bring to their safe state. -/
def Chip.drove (c : Chip) (n st : Nat) : Bool := isBusy (c.clState n) || c.clState n == csLoaded || st == csStopped

theorem forAll_restWork_eq (c : Chip) (l : List Nat) : ∃ ws, c.forAll l (fun c e => c.modWork e restWork) = { c with works := ws } := by
  refine foldl_invariant (A := fun x => ∃ ws, x = { c with works := ws }) ?_ _ ⟨c.works, rfl⟩
  rintro x q - ⟨ws, rfl⟩
  exact ⟨_, rfl⟩

/-- A stop is the class's change of state on a chip whose class and works rest, and a count of the edits that go. -/
theorem stopAtInstant_eq (c : Chip) (n st : Nat) (d : Instant) : ∃ ws x rs dict, c.stopAtInstant n st d =
    { (((({ c with works := ws } : Chip).modCl n (stoppedCls (c.drove n st) d)).toState n st).bumpBy 0x2500 0x07 x) with
      regions := rs, dict := dict } := by
  obtain ⟨ws, hw⟩ := forAll_restWork_eq c (clsTeam (c.cl n))
  obtain ⟨x, rs, dict, hd⟩ := discardEdits_eq ((({ c with works := ws } : Chip).modCl n (stoppedCls (c.drove n st) d)).toState n st) n
  refine ⟨ws, x, rs, dict, ?_⟩
  rw [← hd]
  simp only [Chip.stopAtInstant, hw]
  rfl

section
variable (c : Chip) {k : Nat}

/-- The registers that a stop for a fault leaves: those below 0x2200 and those of 0x2300 and 0x2400, the count of discarded work apart. -/
theorem reg_stopAtInstant (n st : Nat) (d : Instant) (hn : n < 16) (h : k < 0x2200 * 256 ∨ 0x2300 * 256 ≤ k ∧ k < 0x2500 * 256) :
    (c.stopAtInstant n st d).reg k = c.reg k := by
  obtain ⟨ws, x, rs, dict, he⟩ := stopAtInstant_eq c n st d
  rw [he]
  exact (Chip.reg_bumpBy _ _ _ _ (by omega)).trans (reg_toState _ n st hn (by omega) (by omega) (by omega))

theorem clState_stopAtInstant (n st : Nat) (d : Instant) (hn : n < 16) (hst : st < 2 ^ 48) : (c.stopAtInstant n st d).clState n = st := by
  obtain ⟨ws, x, rs, dict, he⟩ := stopAtInstant_eq c n st d
  rw [he]
  exact (Chip.rd_of_reg (Chip.reg_bumpBy _ _ _ _ (by omega))).trans (clState_toState _ n st hn hst)

theorem cl_stopAtInstant (n st : Nat) (d : Instant) : (c.stopAtInstant n st d).cl n = stoppedCls (c.drove n st) d (c.cl n) := by
  obtain ⟨ws, x, rs, dict, he⟩ := stopAtInstant_eq c n st d
  obtain ⟨regs, wd, ht⟩ := toState_eq (({ c with works := ws } : Chip).modCl n (stoppedCls (c.drove n st) d)) n st
  rw [he, ht]
  exact Chip.cl_modCl_same ..

theorem recd_stopAtInstant (n st : Nat) (d : Instant) : (c.stopAtInstant n st d).recd = c.recd := by
  obtain ⟨ws, x, rs, dict, he⟩ := stopAtInstant_eq c n st d
  obtain ⟨regs, wd, ht⟩ := toState_eq (({ c with works := ws } : Chip).modCl n (stoppedCls (c.drove n st) d)) n st
  rw [he, ht]
  rfl

theorem stopClass_eq (n st : Nat) (g : ClsCfg) (hg : (c.cl n).cfg = some g) :
    ∃ x, c.stopClass n st = (c.stopAtInstant n st (nextDispatch g c.now)).bumpBy 0x2100 0x08 x := by
  simp only [Chip.stopClass, hg]
  exact ⟨_, rfl⟩

theorem reg_stopClass (n st : Nat) (hn : n < 16) (h8 : k ≠ 0x2100 * 256 + 8)
    (h : k < 0x2200 * 256 ∨ 0x2300 * 256 ≤ k ∧ k < 0x2500 * 256) : (c.stopClass n st).reg k = c.reg k := by
  cases hg : (c.cl n).cfg with
  | none => simp only [Chip.stopClass, hg]
  | some g =>
    obtain ⟨x, hx⟩ := stopClass_eq c n st g hg
    rw [hx]
    exact (Chip.reg_bumpBy _ _ _ _ h8).trans (reg_stopAtInstant c n st _ hn h)

theorem recd_stopClass (n st : Nat) : (c.stopClass n st).recd = c.recd := by
  cases hg : (c.cl n).cfg with
  | none => simp only [Chip.stopClass, hg]
  | some g =>
    obtain ⟨x, hx⟩ := stopClass_eq c n st g hg
    rw [hx]
    exact recd_stopAtInstant ..

theorem clState_stopClass (n st : Nat) (g : ClsCfg) (hg : (c.cl n).cfg = some g) (hn : n < 16) (hst : st < 2 ^ 48) :
    (c.stopClass n st).clState n = st := by
  obtain ⟨x, hx⟩ := stopClass_eq c n st g hg
  rw [hx]
  exact (Chip.rd_of_reg (Chip.reg_bumpBy _ _ _ _ (by omega))).trans (clState_stopAtInstant c n st _ hn hst)

/-- The fence behind the stop of a class is kept (R69). -/
def stoppedBy (st : Nat) (f : StopFence) (k : Cls) : Cls := { k with stopBy := if st = csHwFault then f :: k.stopBy else [f] }

theorem stopHw_eq (n : Nat) (f : StopFence) : c.stopHw n f =
    if c.clState n = csNone then c
    else if c.clState n = csHwFault then c.modCl n (stoppedBy (c.clState n) f)
    else ((c.modCl n (stoppedBy (c.clState n) f)).stopClass n csHwFault).event 0x0204 sevMajor 3 n [] := rfl

theorem reg_stopHw (n : Nat) (f : StopFence) (hn : n < 16) (h8 : k ≠ 0x2100 * 256 + 8)
    (h : k < 0x2200 * 256 ∨ 0x2300 * 256 ≤ k ∧ k < 0x2500 * 256) : (c.stopHw n f).reg k = c.reg k := by
  rw [stopHw_eq]
  split
  · rfl
  · split
    · rfl
    · exact (Chip.reg_event _ _ _ _ _ _ (by omega)).trans (reg_stopClass _ n _ hn h8 h)

/-- A class that is there stands in state 6 after a hardware fault stopped it (R163). -/
theorem clState_stopHw (n : Nat) (f : StopFence) (g : ClsCfg) (hg : (c.cl n).cfg = some g) (hn : n < 16) (hs : c.clState n ≠ csNone) :
    (c.stopHw n f).clState n = csHwFault := by
  rw [stopHw_eq, if_neg hs]
  split
  · next h => exact h
  · have hg' : ((c.modCl n (stoppedBy (c.clState n) f)).cl n).cfg = some g := by rw [Chip.cl_modCl_same]; exact hg
    exact (Chip.rd_of_reg (Chip.reg_event _ _ _ _ _ _ (by omega))).trans (clState_stopClass _ n _ g hg' hn (by decide))

theorem mem_queue_stopHw (n : Nat) (f : StopFence) {q : EvRec} (h : q ∈ c.recd.queue) : q ∈ (c.stopHw n f).recd.queue := by
  rw [stopHw_eq]
  split
  · exact h
  · split
    · exact h
    · refine mem_queue_eventAs _ _ _ _ _ _ _ _ _ _ ?_
      rw [recd_stopClass]
      exact h

end

/-- The class of an engine position is one of the sixteen. -/
theorem classOf_lt {c : Chip} {e n : Nat} (h : c.classOf e = some n) : n < 16 := List.mem_range.mp (List.mem_of_find?_eq_some h)

end Sys2Proof.Machine
end

section
namespace Sys2Proof.Machine

/-! ### Units after a fold over their numbers -/

theorem work_forAll_modWork_notMem (f : Work → Work) (l : List Nat) (c : Chip) (e : Nat) (h : e ∉ l) :
    (l.foldl (fun c m => c.modWork m f) c).work e = c.work e := by
  induction l generalizing c with
  | nil => rfl
  | cons m l ih =>
    simp only [List.mem_cons, not_or] at h
    rw [List.foldl_cons, ih _ h.2, Chip.work_modWork_other _ _ _ _ h.1]

theorem work_forAll_modWork_mem (f : Work → Work) (l : List Nat) (c : Chip) (e : Nat) (hd : l.Nodup) (h : e ∈ l) :
    (l.foldl (fun c m => c.modWork m f) c).work e = f (c.work e) := by
  induction l generalizing c with
  | nil => cases h
  | cons m l ih =>
    rw [List.nodup_cons] at hd
    rcases List.mem_cons.mp h with rfl | hm
    · rw [List.foldl_cons, work_forAll_modWork_notMem f l _ e hd.1, Chip.work_modWork_same]
    · have hne : e ≠ m := fun he => hd.1 (he ▸ hm)
      rw [List.foldl_cons, ih _ hd.2 hm, Chip.work_modWork_other _ _ _ _ hne]

/-- Updates of works change nothing but the works. -/
theorem forAll_modWork_eq (f : Work → Work) (l : List Nat) (c : Chip) :
    ∃ ws, l.foldl (fun c m => c.modWork m f) c = { c with works := ws } := by
  induction l generalizing c with
  | nil => exact ⟨c.works, rfl⟩
  | cons m l ih =>
    obtain ⟨ws, hw⟩ := ih (c.modWork m f)
    exact ⟨ws, hw⟩

theorem clsTeam_nodup (k : Cls) : (clsTeam k).Nodup := List.nodup_range.filter _

/-! ### Program faults (R27, R28, R108) -/

/-- The work of a position as its program fault leaves it. -/
def faultedWork (c : Chip) (f : ProgFault) (w : Work) : Work :=
  { w with bundle := emptyBundle, run := .faulted f, faultAt := c.now, atFault := w.issued,
           flights := w.flights.filter (fun g => g.due != w.issued) }

/-- The other members of the team of class n are held. -/
def Chip.heldTeam (c : Chip) (e n : Nat) (f : ProgFault) : Chip :=
  ((clsTeam (c.cl n)).filter (· != e)).foldl (fun c m => c.modWork m holdMember) (c.modWork e (faultedWork c f))

theorem heldTeam_eq (c : Chip) (e n : Nat) (f : ProgFault) : ∃ ws, c.heldTeam e n f = { c with works := ws } :=
  forAll_modWork_eq ..

/-- The held fault of a class: the one it holds, or else the one found now. -/
def holdFault (h : HeldFault) (k : Cls) : Cls := { k with held := match k.held with
  | some h => some h
  | none => some h }

theorem raise_eq (c : Chip) (e n : Nat) (f : ProgFault) (h : c.classOf e = some n) :
    c.raise e f = (c.heldTeam e n f).modCl n (holdFault ⟨e, f, c.cy n, (c.work e).arch.pc, c.now⟩) := by
  obtain ⟨ws, hw⟩ := heldTeam_eq c e n f
  have hr : c.raise e f = (c.heldTeam e n f).modCl n
      (holdFault ⟨e, f, (c.heldTeam e n f).cy n, (c.work e).arch.pc, (c.heldTeam e n f).now⟩) := by
    simp only [Chip.raise, Chip.classOf_modWork, h]
    rfl
  rw [hr, hw]
  rfl

theorem heldTeam_work_self (c : Chip) (e n : Nat) (f : ProgFault) : (c.heldTeam e n f).work e = faultedWork c f (c.work e) := by
  rw [Chip.heldTeam, work_forAll_modWork_notMem _ _ _ _ (by simp), Chip.work_modWork_same]

theorem heldTeam_work_member (c : Chip) (e n m : Nat) (f : ProgFault) (hm : m ∈ clsTeam (c.cl n)) (hne : m ≠ e) :
    (c.heldTeam e n f).work m = holdMember (c.work m) := by
  rw [Chip.heldTeam, work_forAll_modWork_mem _ _ _ _ ((clsTeam_nodup _).filter _) (by simp [hm, hne]),
    Chip.work_modWork_other _ _ _ _ hne]

theorem heldTeam_work_other (c : Chip) (e n m : Nat) (f : ProgFault) (hm : m ∉ clsTeam (c.cl n)) (hne : m ≠ e) :
    (c.heldTeam e n f).work m = c.work m := by
  rw [Chip.heldTeam, work_forAll_modWork_notMem _ _ _ _ (by simp [hm]), Chip.work_modWork_other _ _ _ _ hne]

/-! ### End of cycle (R54, R105) -/

/-- A legal `eoc` alone in its bundle ends the cycle of its member. -/
theorem gives_eoc (s : State) (o : Op) (t : Instant) (h : AloneCtl s.chip o) (hd : (s.chip.work o.eng.val).delay = 0) :
    Gives s (.eoc o t) ((s.chip.at_ t).carries o.eng.val [] (some (.endCycle t))) := by
  have hi := issueCtl_issues (s.chip.at_ t) o none (fun _ => flow (.endCycle t)) h rfl
    (fun d hd => by cases hd; exact storesCollide_none _ rfl)
  have hd' : ((s.chip.at_ t).work o.eng.val).delay = 0 := hd
  rw [if_pos hd'] at hi
  exact congrArg (fun c => Host.Outcome.next { s with chip := c }) hi

theorem memberDone_eq (c : Chip) (e n : Nat) (t : Instant) (h : c.classOf e = some n) :
    c.memberDone e t = (c.modWork e (fun w => { w with run := .done, flights := [] })).modCl n (fun k => { k with
      cycle := k.cycle.map (fun cy => { cy with
        done := cy.done + 1, eocAt := if cy.done + 1 = (clsTeam k).length then some t else cy.eocAt }) }) := by
  have hc : (c.modWork e (fun w => { w with run := .done, flights := [] })).classOf e = some n := h
  simp only [Chip.memberDone, hc]

/-- Settles O19: what a program fault holds and leaves, and what `eoc` does to its member and the cycle. -/
theorem aProgramFaultOrEocEndsTheWork : Obligations.AProgramFaultOrEocEndsTheWork := by
  unfold Obligations.AProgramFaultOrEocEndsTheWork
  refine ⟨fun c e n f hn => ?_, fun s o t n cy ho hd hn hcy => ?_⟩
  · obtain ⟨ws, hw⟩ := heldTeam_eq c e n f
    have hcl : (c.heldTeam e n f).cl n = c.cl n := by rw [hw]; rfl
    simp only [raise_eq c e n f hn]
    refine ⟨?_, ?_, ?_, fun m hm hne hr => ?_, fun m hm hne => heldTeam_work_other c e n m f hm hne, ?_, ?_, ?_, fun hh => ?_, fun m hm => ?_⟩
    · exact congrArg Work.run (heldTeam_work_self c e n f)
    · exact (congrArg Work.arch (heldTeam_work_self c e n f)).trans rfl
    · exact congrArg Work.bundle (heldTeam_work_self c e n f)
    · have hw := heldTeam_work_member c e n m f hm hne
      have hh : holdMember (c.work m) = { c.work m with run := .teamHeld, saved := .issuing } := by simp [holdMember, hr]
      rw [hh] at hw
      exact ⟨congrArg Work.run hw, congrArg Work.saved hw⟩
    · rw [hw]; rfl
    · rw [hw]; rfl
    · rw [hw]; rfl
    · simp [holdFault, hcl, hh]
    · rw [Chip.cl_modCl_other _ _ _ _ hm, hw]; rfl
  · have hn' : ((s.chip.at_ t).modWork o.eng.val (fun w => nextWork w ((s.chip.at_ t).bundleBits o.eng.val) (some (.endCycle t)))).classOf
      o.eng.val = some n := hn
    refine ⟨_, gives_eoc s o t ho hd, ?_⟩
    simp only [Chip.carries, List.foldl_nil, Chip.control, memberDone_eq _ _ _ _ hn']
    refine ⟨congrArg Work.run (Chip.work_modWork_same ..), congrArg Work.flights (Chip.work_modWork_same ..), ?_⟩
    have hc : (s.chip.at_ t).cl n = s.chip.cl n := rfl
    simp [hc, hcy]

end Sys2Proof.Machine
end

section
namespace Sys2Proof.Machine

/-! ### The result of a self-test (R165, R168, R169) -/

theorem regOf_lt {sil : Nat} (h : sil < 36) : regOf sil < 4 := by unfold regOf; split <;> omega
theorem codeOf_lt (sil : Nat) : codeOf sil < 16 := by unfold codeOf; split <;> omega

/-- The work that a silicon serves stands in the silicon's region. -/
theorem workOf_region {c : Chip} {sil e : Nat} (h : c.workOf sil = some e) : e / 8 = regOf sil := by
  obtain ⟨i, hi, rfl⟩ := List.mem_map.mp (List.mem_of_find?_eq_some h)
  have := List.mem_range.mp hi
  omega

theorem workOf_congr {c d : Chip} (h : ∀ r < 4, d.reg (0x2300 * 256 + 0x10 + r) = c.reg (0x2300 * 256 + 0x10 + r)) {sil : Nat}
    (hs : sil < 36) : d.workOf sil = c.workOf sil := by
  have hr := regOf_lt hs
  have hb : ∀ e ∈ (List.range 8).map (· + 8 * regOf sil), d.servedBy e = c.servedBy e := by
    intro e he
    obtain ⟨i, hi, rfl⟩ := List.mem_map.mp he
    have hi := List.mem_range.mp hi
    have hq : (i + 8 * regOf sil) / 8 = regOf sil := by omega
    unfold Chip.servedBy
    rw [hq]
    exact Chip.fld_of_reg _ _ (by rw [show (0x2300 * 256 + (0x10 + regOf sil)) = 0x2300 * 256 + 0x10 + regOf sil by omega]; exact h _ hr)
  exact List.find?_congr fun e he => by rw [hb e he]

/-- The chip that counts and records the failure of a test that a write asked for (R26). -/
def Chip.testFound (c : Chip) (sil : Nat) (found : Bool) : Chip :=
  if found then c.draw.engineFound sil (Config.faultSource c.free % 5) else c

/-- The fences of a test's silicon as its result sets them. -/
def Chip.testFenced (c : Chip) (sil : Nat) (pass : Bool) : Chip := (c.setBit 0x2300 0x31 sil (!pass)).setBit 0x2100 0x01 sil (!pass)

/-- The event of a test's result. -/
def Chip.testEvent (c : Chip) (unit : Nat) (pass : Bool) : Chip :=
  if pass then c.event 0x0502 sevInfo 1 unit [] else c.event 0x0503 sevMajor 1 unit []

/-- The silicon returns to its place, or its work has none. -/
def Chip.testPlaced (c : Chip) (sil : Nat) (k : TestKind) (pass : Bool) : Chip :=
  match k with
  | .asRelief => if pass then (c.setReliefSil (regOf sil) (codeOf sil)).setReliefState (regOf sil) 0 else c.setReliefState (regOf sil) 4
  | .reliefPass => c.setReliefState (regOf sil) (if pass then 0 else 4)
  | .ownPosition | .inPlace =>
    if pass then c
    else
      match c.workOf sil with
      | some e => (match (c.setServed e 15).classOf e with
          | some n => (c.setServed e 15).stopHw n (.silicon sil)
          | none => c.setServed e 15)
      | none => c

/-- The chip on which the result of a silicon's test is shown and recorded. -/
def Chip.tested (c : Chip) (sil : Nat) (k : TestKind) (asked pass : Bool) : Chip :=
  ((c.testFound sil (asked && !pass)).testFenced sil pass).testEvent (c.testUnit sil k) pass

theorem testDone_eq (c : Chip) (sil : Nat) (k : TestKind) (asked pass : Bool) :
    c.testDone sil k asked pass = (c.tested sil k asked pass).testPlaced sil k pass := rfl

section
variable (c : Chip) {k : Nat}

theorem reg_engineFound (sil src : Nat) (h5 : k ≠ 0x2100 * 256 + 5) (h9 : k ≠ 0x2B00 * 256 + 9) :
    (c.engineFound sil src).reg k = c.reg k := by
  simp (disch := omega) only [Chip.engineFound, Chip.reg_event, Chip.reg_bump]

theorem rd_engineFound (sil src : Nat) : (c.engineFound sil src).rd 0x2100 0x05 = (c.rd 0x2100 0x05 + 1) % 2 ^ 48 :=
  (Chip.rd_of_reg (Chip.reg_event _ _ _ _ _ _ (by omega))).trans (Chip.rd_bump_same ..)

theorem rd_testFound (sil : Nat) (found : Bool) :
    (c.testFound sil found).rd 0x2100 0x05 = if found then (c.rd 0x2100 0x05 + 1) % 2 ^ 48 else c.rd 0x2100 0x05 := by
  cases found
  · rfl
  · exact rd_engineFound ..

theorem reg_testEvent (unit : Nat) (pass : Bool) (h : k ≠ 0x2B00 * 256 + 9) : (c.testEvent unit pass).reg k = c.reg k := by
  unfold Chip.testEvent
  split <;> exact Chip.reg_event _ _ _ _ _ _ h

/-- The registers that the return of a silicon leaves. -/
theorem reg_testPlaced (sil : Nat) (t : TestKind) (pass : Bool) (hs : sil < 36)
    (h : k < 0x2200 * 256 ∨ 0x2300 * 256 + 0x15 ≤ k ∧ k < 0x2500 * 256) (h8 : k ≠ 0x2100 * 256 + 8) :
    (c.testPlaced sil t pass).reg k = c.reg k := by
  have hr := regOf_lt hs
  unfold Chip.testPlaced
  split
  · split
    · simp (disch := omega) only [Chip.setReliefState, Chip.setReliefSil, Chip.reg_setFld]
    · simp (disch := omega) only [Chip.setReliefState, Chip.reg_setFld]
  · simp (disch := omega) only [Chip.setReliefState, Chip.reg_setFld]
  all_goals
    split
    · rfl
    · split
      · next e he =>
        have hq := workOf_region he
        have hset : (c.setServed e 15).reg k = c.reg k := by simp (disch := omega) only [Chip.setServed, Chip.reg_setFld]
        split
        · next n hn => exact (reg_stopHw _ n _ (classOf_lt hn) h8 (by omega)).trans hset
        · exact hset
      · rfl

theorem mem_queue_testPlaced (sil : Nat) (t : TestKind) (pass : Bool) {q : EvRec} (h : q ∈ c.recd.queue) :
    q ∈ (c.testPlaced sil t pass).recd.queue := by
  unfold Chip.testPlaced
  split
  · split <;> exact h
  · exact h
  all_goals
    split
    · exact h
    · split
      · split
        · exact mem_queue_stopHw _ _ _ h
        · exact h
      · exact h

/-- Without a stop the return of a silicon changes the work map alone. -/
theorem testPlaced_keeps (sil : Nat) (t : TestKind) (pass : Bool) (h : pass = true ∨ t = .asRelief ∨ t = .reliefPass) :
    (c.testPlaced sil t pass).regions = c.regions ∧ (c.testPlaced sil t pass).works = c.works ∧ (c.testPlaced sil t pass).cls = c.cls := by
  unfold Chip.testPlaced
  split
  · split <;> simp [Chip.setReliefState, Chip.setReliefSil]
  · simp [Chip.setReliefState]
  all_goals
    have hp : pass = true := by simpa using h
    rw [if_pos hp]
    exact ⟨rfl, rfl, rfl⟩

theorem reliefState_setReliefState (r v : Nat) (hr : r < 4) (hv : v < 16) : (c.setReliefState r v).reliefState r = v := by
  have h := Chip.fld_setFld_same c 0x2300 0x14 (4 * r + 3) (4 * r) v (by omega) (by omega)
  rw [show 4 * r + 3 + 1 - 4 * r = 4 by omega, Nat.mod_eq_of_lt (by omega)] at h
  exact h

theorem reliefSil_setReliefSil (r v : Nat) (hv : v < 16) : (c.setReliefSil r v).reliefSil r = v :=
  (Chip.fld_setFld_same c 0x2300 (0x10 + r) 39 36 v (by omega) (by omega)).trans (Nat.mod_eq_of_lt hv)

end

section
variable (c : Chip) (sil : Nat) (k : TestKind) (asked pass : Bool)

theorem silFenced_tested (hs : sil < 48) : (c.tested sil k asked pass).silFenced sil = !pass := by
  refine (Chip.bit_of_reg sil (reg_testEvent _ _ _ (by omega))).trans ?_
  rw [Chip.testFenced, Chip.bit_setBit _ _ _ _ _ _ hs, if_pos rfl]

theorem failed_tested (hs : sil < 48) : ((c.tested sil k asked pass).rd 0x2300 0x31).testBit sil = !pass := by
  refine (Chip.bit_of_reg sil ((reg_testEvent _ _ _ (by omega)).trans (Chip.reg_setBit _ _ _ _ _ (by omega)))).trans ?_
  rw [Chip.bit_setBit _ _ _ _ _ _ hs, if_pos rfl]

theorem found_tested : (c.tested sil k asked pass).rd 0x2100 0x05 =
    if asked && !pass then (c.rd 0x2100 0x05 + 1) % 2 ^ 48 else c.rd 0x2100 0x05 := by
  refine Eq.trans (Chip.rd_of_reg ?_) (rd_testFound c sil _)
  refine (reg_testEvent _ _ _ (by omega)).trans ?_
  simp (disch := omega) only [Chip.testFenced, Chip.reg_setBit]

theorem tested_keeps : (c.tested sil k asked pass).regions = c.regions ∧ (c.tested sil k asked pass).works = c.works ∧
    (c.tested sil k asked pass).cls = c.cls := by
  unfold Chip.tested Chip.testEvent Chip.testFound Chip.engineFound
  split <;> split <;> simp [Chip.testFenced]

theorem queue_tested (ha : (asked && !pass) = false) (hq : c.recd.queue.length < 256) :
    ∃ q ∈ (c.tested sil k asked pass).recd.queue, q.code = (if pass then 0x0502 else 0x0503) ∧ q.unit = c.testUnit sil k := by
  have hl : ((c.testFound sil (asked && !pass)).testFenced sil pass).recd.queue.length < 256 := by rw [ha]; exact hq
  rw [Chip.tested, Chip.testEvent]
  cases pass
  · obtain ⟨q, hm, hc, -, hu⟩ := exists_queue_event _ 0x0503 sevMajor 1 (c.testUnit sil k) [] hl
    exact ⟨q, hm, hc, hu⟩
  · obtain ⟨q, hm, hc, -, hu⟩ := exists_queue_event _ 0x0502 sevInfo 1 (c.testUnit sil k) [] hl
    exact ⟨q, hm, hc, hu⟩

end

/-- The test that waits first in its region is the one that completes. -/
theorem gives_selfTestComplete (s : State) (t : Instant) (sil : Silicon) (k : TestKind) (rest : List (Nat × TestKind × Bool))
    (asked pass : Bool) (h : (s.chip.region (regOf sil.val)).tests = (sil.val, k, asked) :: rest) :
    Gives s (.selfTestComplete t sil pass)
      (((s.chip.at_ t).modRegion (regOf sil.val) (fun y => { y with tests := rest })).testDone sil.val k asked pass) := by
  show execSelfTestComplete t sil pass s = _
  simp only [execSelfTestComplete, State.onChip, h, if_true]

/-! ### Idle tests and held faults (R28, R168) -/

theorem gives_idleSelfTest (s : State) (t : Instant) (sil : Silicon) (pass : Bool) (hr : s.chip.running = true)
    (hi : ∀ e, s.chip.workOf sil.val = some e → (s.chip.work e).run = .idle ∨ (s.chip.work e).run = .done) :
    Gives s (.idleSelfTest t sil pass)
      (if pass then s.chip.at_ t else (s.chip.at_ t).draw.engineFault sil.val (Config.faultSource s.chip.free % 5)) := by
  have hidle : (match s.chip.workOf sil.val with
      | some e => decide ((s.chip.work e).run = .idle ∨ (s.chip.work e).run = .done)
      | none => true) = true := by
    cases hw : s.chip.workOf sil.val with
    | none => rfl
    | some e => exact decide_eq_true (hi e hw)
  show execIdleSelfTest t sil pass s = _
  simp only [execIdleSelfTest, State.onChip]
  rw [if_pos ⟨hr, hidle⟩]

/-- An engine fault of a silicon that serves no work is counted and fences it; a relief silicon at rest fails with it. -/
theorem engineFault_spare (c : Chip) (sil src : Nat) (hs : sil < 36) (hf : c.silFenced sil = false) (hw : c.workOf sil = none)
    (ha : (c.region (regOf sil)).attach = none) :
    (c.engineFault sil src).silFenced sil = true ∧ (c.engineFault sil src).rd 0x2100 0x05 = (c.rd 0x2100 0x05 + 1) % 2 ^ 48 ∧
    (c.reliefSil (regOf sil) = codeOf sil → (c.engineFault sil src).reliefState (regOf sil) = 4) := by
  let d := (c.engineFound sil src).setBit 0x2100 0x01 sil true
  have hr := regOf_lt hs
  have hreg : ∀ k, k ≠ 0x2100 * 256 + 1 → k ≠ 0x2100 * 256 + 5 → k ≠ 0x2B00 * 256 + 9 → d.reg k = c.reg k := fun k h1 h5 h9 =>
    (Chip.reg_setBit _ _ _ _ _ h1).trans (reg_engineFound c sil src h5 h9)
  have hwd : d.workOf sil = none := (workOf_congr (fun r hr => hreg _ (by omega) (by omega) (by omega)) hs).trans hw
  have hsil : d.reliefSil (regOf sil) = c.reliefSil (regOf sil) := Chip.fld_of_reg _ _ (hreg _ (by omega) (by omega) (by omega))
  have had : (d.region (regOf sil)).attach = none := by
    have hd : d.regions = c.regions := by simp [d, Chip.engineFound]
    rw [← ha, Chip.region, hd]; rfl
  have hfd : d.silFenced sil = true := by
    refine (Chip.bit_setBit _ _ _ _ _ _ (by omega)).trans (if_pos rfl)
  have hcd : d.rd 0x2100 0x05 = (c.rd 0x2100 0x05 + 1) % 2 ^ 48 :=
    (Chip.rd_of_reg (Chip.reg_setBit _ _ _ _ _ (by omega))).trans (rd_engineFound ..)
  have he : c.engineFault sil src = if c.reliefSil (regOf sil) = codeOf sil then
      ((d.modRegion (regOf sil) (fun x => { x with swap := none })).setReliefState (regOf sil) 4).queueTest sil .reliefPass false else d := by
    unfold Chip.engineFault
    rw [if_neg (by simp [hf])]
    simp only [d] at hwd hsil had ⊢
    simp only [hwd, hsil, had]
  rw [he]
  split
  · refine ⟨?_, ?_, fun _ => ?_⟩
    · exact (Chip.bit_of_reg _ (Chip.reg_setFld (d.modRegion _ _) _ _ _ _ _ (by omega))).trans hfd
    · exact (Chip.rd_of_reg (Chip.reg_setFld (d.modRegion _ _) _ _ _ _ _ (by omega))).trans hcd
    · exact reliefState_setReliefState (d.modRegion _ _) _ 4 hr (by omega)
  · next h => exact ⟨hfd, hcd, fun hx => absurd hx h⟩

theorem failTrial_eq (c : Chip) (t : Nat) : ∃ x, c.failTrial t = { c with targets := x } := by
  simp only [Chip.failTrial]
  split
  · exact ⟨_, rfl⟩
  · exact ⟨c.targets, rfl⟩

/-- The chip on which a held program fault has stopped its class, before its event. -/
def Chip.faultStopped (c : Chip) (n : Nat) : Chip := (c.bump 0x2100 0x06).stopClass n csProgFault

theorem programFault_eq (c : Chip) (n : Nat) (h : HeldFault) : ∃ x, c.programFault n h = { (c.faultStopped n).event 0x0201 sevMajor 3 n
    (leBytes n 1 ++ leBytes h.cy 6 ++ leBytes h.work 1 ++ leBytes h.pc 2) with targets := x } := failTrial_eq ..

/-- A program fault that stands stops its class in state 5 and is counted and recorded (R27, R28). -/
theorem programFault_stands (c : Chip) (n : Nat) (h : HeldFault) (g : ClsCfg) (hn : n < 16) (hg : (c.cl n).cfg = some g) :
    (c.programFault n h).clState n = csProgFault ∧
    (c.programFault n h).cl n = stoppedCls (c.drove n csProgFault) (nextDispatch g c.now) (c.cl n) ∧
    (c.programFault n h).rd 0x2100 0x06 = (c.rd 0x2100 0x06 + 1) % 2 ^ 48 ∧
    (c.recd.queue.length < 256 → ∃ q ∈ (c.programFault n h).recd.queue, q.code = 0x0201 ∧ q.sev = sevMajor ∧ q.unit = n) := by
  obtain ⟨x, hx⟩ := programFault_eq c n h
  rw [hx]
  refine ⟨?_, ?_, ?_, fun hq => ?_⟩
  · exact (Chip.rd_of_reg (Chip.reg_event _ _ _ _ _ _ (by omega))).trans (clState_stopClass (c.bump 0x2100 0x06) n _ g hg hn (by decide))
  · obtain ⟨y, hy⟩ := stopClass_eq (c.bump 0x2100 0x06) n csProgFault g hg
    have hd : (c.bump 0x2100 0x06).drove n csProgFault = c.drove n csProgFault := by
      have hs : (c.bump 0x2100 0x06).clState n = c.clState n := Chip.rd_of_reg (Chip.reg_bump _ _ _ (by omega))
      rw [Chip.drove, hs]; rfl
    have hcl := cl_stopAtInstant (c.bump 0x2100 0x06) n csProgFault (nextDispatch g c.now)
    rw [hd] at hcl
    show nth _ ((c.faultStopped n).event _ _ _ _ _).cls n = _
    rw [Chip.event_cls, Chip.faultStopped, hy]
    exact hcl
  · exact (Chip.rd_of_reg ((Chip.reg_event _ _ _ _ _ _ (by omega)).trans (reg_stopClass _ n _ hn (by omega) (by omega)))).trans
      (Chip.rd_bump_same ..)
  · exact exists_queue_event _ _ _ _ _ _ (by rw [Chip.faultStopped, recd_stopClass]; exact hq)

/-- Settles O27: the result of a test by its three steps (found, shown, placed), the held fault by the stop of its class. -/
theorem selfTestsAndHeldFaultsResolve : Obligations.SelfTestsAndHeldFaultsResolve := by
  unfold Obligations.SelfTestsAndHeldFaultsResolve
  intro s t sil
  have hs : sil.val < 36 := sil.isLt
  have hr := regOf_lt hs
  refine ⟨fun k rest asked pass ht => ?_, fun hrun hi => ⟨?_, fun hf hw ha => ?_⟩, fun r e hsw hd => ?_, fun n h g hh hg ht => ?_⟩
  · let b := (s.chip.at_ t).modRegion (regOf sil.val) (fun y => { y with tests := rest })
    refine ⟨_, gives_selfTestComplete s t sil k rest asked pass ht, ?_⟩
    rw [testDone_eq]
    refine ⟨fun h => ?_, fun ha hq => ?_, ?_, ?_, ?_, ?_, ?_, ?_⟩
    · obtain ⟨hpr, hpw, hpc⟩ := testPlaced_keeps (b.tested sil.val k asked pass) sil.val k pass h
      obtain ⟨htr, htw, htc⟩ := tested_keeps b sil.val k asked pass
      refine ⟨?_, hpw.trans htw, hpc.trans htc⟩
      rw [Chip.region, hpr, htr]
      exact congrArg Region.tests (Chip.region_modRegion_same (s.chip.at_ t) (regOf sil.val) _)
    · obtain ⟨q, hm, hc, hu⟩ := queue_tested b sil.val k asked pass ha hq
      exact ⟨q, mem_queue_testPlaced _ _ _ _ hm, hc, hu⟩
    · exact (Chip.bit_of_reg _ (reg_testPlaced _ _ _ _ hs (by omega) (by omega))).trans (silFenced_tested b _ _ _ _ (by omega))
    · exact (Chip.bit_of_reg _ (reg_testPlaced _ _ _ _ hs (by omega) (by omega))).trans (failed_tested b _ _ _ _ (by omega))
    · rintro rfl rfl
      refine ⟨?_, reliefState_setReliefState _ _ 0 hr (by omega)⟩
      exact (Chip.fld_of_reg _ _ (Chip.reg_setFld _ _ _ _ _ _ (by omega))).trans (reliefSil_setReliefSil _ _ _ (codeOf_lt _))
    · rintro rfl rfl
      exact reliefState_setReliefState _ _ 4 hr (by omega)
    · rintro rfl
      exact reliefState_setReliefState _ _ _ hr (by split <;> omega)
    · exact (Chip.rd_of_reg (reg_testPlaced _ _ _ _ hs (by omega) (by omega))).trans (found_tested b _ _ _ _)
  · exact gives_idleSelfTest s t sil true hrun hi
  · exact ⟨_, gives_idleSelfTest s t sil false hrun hi, engineFault_spare (s.chip.at_ t).draw _ _ hs hf hw ha⟩
  · show execPlannedSwapPrepare t r s = _
    simp only [execPlannedSwapPrepare, State.onChip, hsw, hd, if_true]
  · have hx : Gives s (.programFaultHoldExpiry t n) ((s.chip.at_ t).programFault n.val h) := by
      show execProgramFaultHoldExpiry t n s = _
      simp only [execProgramFaultHoldExpiry, State.onChip, hh, if_pos ht]
    obtain ⟨hst, hcl, hct, hq⟩ := programFault_stands (s.chip.at_ t) n.val h g n.isLt hg
    refine ⟨_, hx, hst, ?_, ?_, hct, fun hb => ?_, hq⟩
    · rw [hcl]; rfl
    · rw [hcl]; rfl
    · have hd : (s.chip.at_ t).drove n.val csProgFault = true := by
        have hb' : isBusy ((s.chip.at_ t).clState n.val) = true := hb
        rw [Chip.drove, hb']; rfl
      rw [hcl, hd]
      exact ⟨rfl, rfl⟩

end Sys2Proof.Machine
end

section
namespace Sys2Proof.Machine

/-- The thirteen weights are numbers of the type UINT48 (Table 01-9). -/
theorem ty_fabricWeight (port : Fin 13) : (entryOf 0x2100 (0x10 + port.val)).map (·.ty) = some .uint := by
  revert port; decide +kernel

theorem otherOrder_uint (ix sub : Nat) (bs : List Byte) (hi : ix < 0x3000) (ht : (entryOf ix sub).map (·.ty) = some .uint) :
    otherOrder ix sub bs = bs.reverse := by
  obtain ⟨e, he, hty⟩ := Option.map_eq_some_iff.mp ht
  have hn : ¬ 0x3000 ≤ ix := by omega
  simp [otherOrder, numWidths, hn, he, hty, turnBytes]

theorem selfTest_relief (c : Chip) (b : Nat) (h : 32 ≤ b) (hs : c.reliefState (b - 32) = 0) :
    c.selfTest b = .ok ((c.setReliefState (b - 32) 3).queueTest (silOf (b - 32) (c.reliefSil (b - 32))) .reliefPass true) := by
  simp [Chip.selfTest, h, hs]

theorem selfTest_running (c : Chip) (b n : Nat) (h : b < 32) (hn : c.classOf b = some n) (hb : isBusy (c.clState n) = true)
    (hs : c.reliefState (b / 8) = 0) :
    c.selfTest b = .ok ((c.modRegion (b / 8) (fun x => { x with swap := some (b, false) })).setReliefState (b / 8) 2) := by
  have h' : ¬ 32 ≤ b := by omega
  simp [Chip.selfTest, h', hn, hb, hs]

theorem selfTest_stopped (c : Chip) (b n : Nat) (h : b < 32) (hn : c.classOf b = some n) (hb : isBusy (c.clState n) = false)
    (ha : c.testAsked (b / 8) = false) (hv : c.servedBy b ≠ 15) (hs : c.reliefState (b / 8) = 0) :
    c.selfTest b = .ok (((c.relieve b).bump 0x2300 0x06).queueTest (silOf (b / 8) (c.servedBy b)) .asRelief true) := by
  have h' : ¬ 32 ≤ b := by omega
  simp [Chip.selfTest, h', hn, hb, ha, hv, hs]

theorem selfTest_noClass (c : Chip) (b : Nat) (h : b < 32) (hn : c.classOf b = none) (ha : c.testAsked (b / 8) = false)
    (hv : c.servedBy b ≠ 15) : c.selfTest b = .ok ((c.setBit 0x2100 0x01 (silOf (b / 8) (c.servedBy b)) true).queueTest
      (silOf (b / 8) (c.servedBy b)) .inPlace true) := by
  have h' : ¬ 32 ≤ b := by omega
  simp [Chip.selfTest, h', hn, ha, hv]

theorem releaseFences_ok (c : Chip) (v : Nat)
    (h : ∀ p < 16, v.testBit p = true → c.portFenced p = true → c.causeGone p = true) :
    c.releaseFences v = .ok (c.draw.modPower (fun x => { x with fencesDue :=
      ((List.range 16).filter (fun p => v.testBit p && c.portFenced p)).foldl (fun m p => setFieldOf m p p 1) x.fencesDue })) := by
  unfold Chip.releaseFences
  rw [if_pos]
  simp only [List.all_eq_true, List.mem_filter, List.mem_range, Bool.and_eq_true, and_imp]
  exact h

theorem setWeight_ok (c : Chip) (port : Fin 13) (v len : Nat) (hq : c.store.queue.length < 64)
    (hs : (((List.range 13).filter (· != port.val)).map (fun p => c.rd 0x2100 (0x10 + p))).sum + v ≤ 64) :
    c.setWeight port.val v len =
      .ok ((c.persist 1 0x2100 (0x10 + port.val) (leBytes v len)).wr 0x2100 (0x10 + port.val) v) := by
  unfold Chip.setWeight
  rw [if_neg (by omega), Chip.stored, if_pos (by simp [Chip.storeFree, hq]),
    otherOrder_uint _ _ _ (by omega) (ty_fabricWeight port)]
  rfl

theorem pairCommand_resynchronise (c : Chip) (t : Instant) (h : c.pairState = psStandbyReady) :
    c.pairCommand t 1 = .ok ((c.bump 0x2400 0x0D).setPair psSynchronising 0) := if_pos h
theorem pairCommand_plannedSwap (c : Chip) (t : Instant) (ha : c.pairState = psActive) (hp : c.partnerState = psStandbyReady) :
    c.pairCommand t 2 =
      .ok ((c.modPair (fun p => { p with grant := some (settingTick t), grantCause := 5 })).send (.roleGrant (settingTick t))) :=
  if_pos (by simp [Chip.partnerReady, ha, hp])
theorem pairCommand_leaveFenced (c : Chip) (t : Instant) (h : c.pairState = psFenced) (hb : c.pair.fencedBy = 0) :
    c.pairCommand t 3 = .ok (c.setPair psJoining 0) := if_pos (by simp [h, hb])
theorem pairCommand_fence (c : Chip) (t : Instant) (hf : c.pair.inForce = true) (h : c.pairState ≠ psFenced) :
    c.pairCommand t 4 =
      .ok ((if c.partnerReady then c.abdicateChip else c.setPair psFenced 0).modPair (fun p => { p with fencedBy := 0 })) :=
  if_pos ⟨hf, h⟩

/-- A chip whose partner is ready is active, so that it is not fenced. -/
theorem pairState_of_partnerReady {c : Chip} (h : c.partnerReady = true) : c.pairState ≠ psFenced := by
  simp only [Chip.partnerReady, decide_eq_true_eq] at h
  simp [h.1]

/-- A row of the pair commands: the command word is the row's, and the owner carries it out where the condition holds (Table 06-14). -/
theorem writes_of_pairWrite (s : State) (a : Acc) (v cmd : Nat) (i : Instr) (cond : Chip → Prop) (eff : Chip → Who → Chip)
    (hx : exec i s = s.onChip (fun c => c.pairWrite a v cmd)) (hv : ∀ c, cond c → fieldOf v 3 0 = cmd)
    (ho : ∀ c w, cond c → c.pairCommand a.t cmd = .ok (eff c w)) :
    Writes s a v (beBytes v a.len) (i, 0x2400, 0x20, cond, eff) := by
  intro c w ha hc
  refine writes_of_writeOwn s a v _ i _ _ cond eff (fun c _ => c.pairCommand a.t cmd) ?_ (fun c w _ => ho c w) c w ha hc
  simp only [hx, Chip.pairWrite, hv c hc, if_true]
  rfl


/-- A row of the self-test requests: what the owner gives the number written. -/
theorem writes_selfTestRequest (s : State) (a : Acc) (v : Nat) (cond : Chip → Prop) (eff : Chip → Who → Chip)
    (ho : ∀ c w, cond c → c.selfTest (fieldOf v 5 0) = .ok (eff c w)) :
    Writes s a v (beBytes v a.len) (.selfTestRequest a v, 0x2300, 0x30, cond, eff) :=
  writes_of_writeOwn s a v _ _ _ _ _ _ (fun c _ => c.selfTest (fieldOf v 5 0)) rfl (fun c w _ hc => ho c w hc)

/-- Settles O28: each row is a write of its own entry, and its owner succeeds where the row's condition holds. -/
theorem faultAndPairWritesTakeEffect : Obligations.FaultAndPairWritesTakeEffect := by
  unfold Obligations.FaultAndPairWritesTakeEffect
  intro s a v port
  simp only [List.forall_mem_cons, List.not_mem_nil, false_implies, implies_true, and_true]
  refine ⟨?_, ?_, ?_, ?_, ?_, ?_, ?_, ?_, ?_, ?_, ?_, ?_⟩
  · exact writes_selfTestRequest s a v _ _ fun c _ ⟨hb, hs⟩ => selfTest_relief c _ hb hs
  · exact writes_selfTestRequest s a v _ _ fun c _ ⟨hb, ⟨n, hn, hr⟩, hs⟩ => selfTest_running c _ n hb hn hr hs
  · exact writes_selfTestRequest s a v _ _ fun c _ ⟨hb, ⟨n, hn, hr⟩, ha, hv, hs⟩ => selfTest_stopped c _ n hb hn hr ha hv hs
  · exact writes_selfTestRequest s a v _ _ fun c _ ⟨hb, hn, ha, hv⟩ => selfTest_noClass c _ hb hn ha hv
  · exact writes_of_writeOwn s a v _ _ _ _ _ _ _ rfl fun c _ _ hc => releaseFences_ok c v hc
  · exact writes_of_writeOwn s a v _ _ _ _ _ _ _ rfl fun c _ _ hc => setWeight_ok c port v a.len hc.1 hc.2
  · exact writes_of_writeOwn s a v _ _ _ _ _ _ _ rfl fun _ _ _ _ => rfl
  · exact writes_of_pairWrite s a v 1 _ _ _ rfl (fun _ hc => hc.1) fun c _ hc => pairCommand_resynchronise c a.t hc.2
  · exact writes_of_pairWrite s a v 2 _ _ _ rfl (fun _ hc => hc.1) fun c _ hc => pairCommand_plannedSwap c a.t hc.2.1 hc.2.2
  · exact writes_of_pairWrite s a v 3 _ _ _ rfl (fun _ hc => hc.1) fun c _ hc => pairCommand_leaveFenced c a.t hc.2.1 hc.2.2
  · refine writes_of_pairWrite s a v 4 _ _ _ rfl (fun _ hc => hc.1) ?_
    rintro c w ⟨-, hf, hs, hp⟩
    simp [pairCommand_fence c a.t hf hs, hp]
  · refine writes_of_pairWrite s a v 4 _ _ _ rfl (fun _ hc => hc.1) ?_
    rintro c w ⟨-, hf, hp⟩
    simp [pairCommand_fence c a.t hf (pairState_of_partnerReady hp), hp]

end Sys2Proof.Machine
end

section
namespace Sys2Proof.Machine

/-! ### What the outputs of the die change (R57-R59, R272) -/

/-- A safe state reaches the die: its link is up, it works, and no fail action is in force. -/
def Chip.safeReaches (c : Chip) : Bool := c.field.linkUp && c.fieldAlive && !c.field.failing

theorem safeReaches_of {c : Chip} (hl : c.field.linkUp = true) (hf : c.fieldAlive = true) (hn : c.field.failing = false) :
    c.safeReaches = true := by simp [Chip.safeReaches, hl, hf, hn]

/-- The channel of a DO or AO with nothing dispatched. -/
def undispatchedDo (x : DoCh) : DoCh := { x with lastDisp := none }
def undispatchedAo (x : AoCh) : AoCh := { x with lastDisp := none }

theorem safeDo_eq (c : Chip) (n : Nat) : c.safeDo n = if c.safeReaches then
    match c.rd (0x2840 + n) 0x03 with
    | 0 => ((c.modDo n undispatchedDo).modDo n (fun x => { x with cmd := false })).forceDo n false
    | 1 => ((c.modDo n undispatchedDo).modDo n (fun x => { x with cmd := true })).forceDo n true
    | _ => c.modDo n undispatchedDo
  else c := rfl

theorem safeAo_eq (c : Chip) (o : Nat) : c.safeAo o = if c.safeReaches then
    match c.rd (0x2868 + o) 0x01 with
    | 0 => (c.modAo o undispatchedAo).applyAo o 0 false
    | 2 => (c.modAo o undispatchedAo).applyAo o (c.alarmNa o) true
    | _ => c.modAo o undispatchedAo
  else c := rfl

/-- A change of the digital outputs' channels and their status bits alone. -/
def ChangesDos (c d : Chip) : Prop := ∃ x y, d = c.modField (fun f => { f with dos := x, live := y })

theorem ChangesDos.refl (c : Chip) : ChangesDos c c := ⟨c.field.dos, c.field.live, rfl⟩
theorem ChangesDos.trans {a b c : Chip} (h : ChangesDos a b) (h' : ChangesDos b c) : ChangesDos a c := by
  obtain ⟨x, y, rfl⟩ := h
  obtain ⟨x', y', rfl⟩ := h'
  exact ⟨x', y', rfl⟩

theorem changesDos_modDo (c : Chip) (n : Nat) (f : DoCh → DoCh) : ChangesDos c (c.modDo n f) := ⟨_, c.field.live, rfl⟩
theorem changesDos_setDo (c : Chip) (n b : Nat) (v : Bool) : ChangesDos c (c.setDo n b v) := ⟨c.field.dos, _, rfl⟩
theorem changesDos_applyDo (c : Chip) (n : Nat) (l : Bool) : ChangesDos c (c.applyDo n l) :=
  (changesDos_modDo c n _).trans (((changesDos_setDo _ _ _ _).trans (changesDos_setDo _ _ _ _)).trans (changesDos_setDo _ _ _ _))
theorem changesDos_forceDo (c : Chip) (n : Nat) (l : Bool) : ChangesDos c (c.forceDo n l) := by
  unfold Chip.forceDo
  split
  · exact changesDos_modDo ..
  · exact changesDos_applyDo ..
theorem changesDos_safeDo (c : Chip) (n : Nat) : ChangesDos c (c.safeDo n) := by
  rw [safeDo_eq]
  split
  · split
    · exact ((changesDos_modDo ..).trans (changesDos_modDo ..)).trans (changesDos_forceDo ..)
    · exact ((changesDos_modDo ..).trans (changesDos_modDo ..)).trans (changesDos_forceDo ..)
    · exact changesDos_modDo ..
  · exact .refl c

/-- Status bits leave the channels. -/
theorem doc_syncDo (c : Chip) (n j : Nat) : (c.syncDo n).doc j = c.doc j := by
  simp [Chip.syncDo, Chip.setDo, Chip.setLive, Chip.doc, Chip.modField]

theorem doc_applyDo_other (c : Chip) (n j : Nat) (l : Bool) (h : j ≠ n) : (c.applyDo n l).doc j = c.doc j := by
  rw [Chip.applyDo, doc_syncDo, Chip.doc_modDo_other _ _ _ _ h]

/-- The level that a channel takes leaves what is commanded and what was dispatched. -/
theorem doc_applyDo_same (c : Chip) (n : Nat) (l : Bool) :
    ((c.applyDo n l).doc n).cmd = (c.doc n).cmd ∧ ((c.applyDo n l).doc n).lastDisp = (c.doc n).lastDisp := by
  rw [Chip.applyDo, doc_syncDo, Chip.doc_modDo_same]
  split <;> exact ⟨rfl, rfl⟩

theorem doc_forceDo_other (c : Chip) (n j : Nat) (l : Bool) (h : j ≠ n) : (c.forceDo n l).doc j = c.doc j := by
  unfold Chip.forceDo
  split
  · exact Chip.doc_modDo_other _ _ _ _ h
  · exact doc_applyDo_other _ _ _ _ h

theorem doc_forceDo_same (c : Chip) (n : Nat) (l : Bool) :
    ((c.forceDo n l).doc n).cmd = (c.doc n).cmd ∧ ((c.forceDo n l).doc n).lastDisp = (c.doc n).lastDisp := by
  unfold Chip.forceDo
  split
  · rw [Chip.doc_modDo_same]; exact ⟨rfl, rfl⟩
  · exact doc_applyDo_same ..

theorem doc_safeDo_other (c : Chip) (n j : Nat) (h : j ≠ n) : (c.safeDo n).doc j = c.doc j := by
  rw [safeDo_eq]
  split
  · split
    · rw [doc_forceDo_other _ _ _ _ h, Chip.doc_modDo_other _ _ _ _ h, Chip.doc_modDo_other _ _ _ _ h]
    · rw [doc_forceDo_other _ _ _ _ h, Chip.doc_modDo_other _ _ _ _ h, Chip.doc_modDo_other _ _ _ _ h]
    · exact Chip.doc_modDo_other _ _ _ _ h
  · rfl

/-- What a DO holds once its safe state of kind `kind` is taken: nothing dispatched, off or on commanded (R272). -/
def SafeDo (kind : Nat) (x : DoCh) : Prop := x.lastDisp = none ∧ (kind = 0 → x.cmd = false) ∧ (kind = 1 → x.cmd = true)

theorem safeDo_takes (c : Chip) (n : Nat) (h : c.safeReaches = true) : SafeDo (c.rd (0x2840 + n) 0x03) ((c.safeDo n).doc n) := by
  rw [safeDo_eq, if_pos h]
  split
  · next h0 =>
    obtain ⟨hc, hl⟩ := doc_forceDo_same ((c.modDo n undispatchedDo).modDo n (fun x => { x with cmd := false })) n false
    simp only [Chip.doc_modDo_same] at hc hl
    exact ⟨hl, fun _ => hc, fun h1 => by omega⟩
  · next h1 =>
    obtain ⟨hc, hl⟩ := doc_forceDo_same ((c.modDo n undispatchedDo).modDo n (fun x => { x with cmd := true })) n true
    simp only [Chip.doc_modDo_same] at hc hl
    exact ⟨hl, fun h0 => by omega, fun _ => hc⟩
  · next h0 h1 =>
    rw [Chip.doc_modDo_same]
    exact ⟨rfl, fun h => absurd h h0, fun h => absurd h h1⟩

/-- The safe states of a list of DOs: each takes its own. -/
theorem safeDos_take (c : Chip) (l : List Nat) (n : Nat) (hn : n ∈ l) (h : c.safeReaches = true) :
    SafeDo (c.rd (0x2840 + n) 0x03) ((l.foldl (fun c d => c.safeDo d) c).doc n) := by
  refine foldl_brings (A := ChangesDos c) (P := fun d => SafeDo (c.rd (0x2840 + n) 0x03) (d.doc n)) hn
    (fun d x hd => hd.trans (changesDos_safeDo d x)) ?_ ?_ c (.refl c)
  · rintro d ⟨x, y, rfl⟩
    exact safeDo_takes _ n h
  · intro d j ⟨x, y, hd⟩ hp
    by_cases hj : n = j
    · subst hj hd
      exact safeDo_takes _ n h
    · rwa [doc_safeDo_other d j n hj]

theorem changesDos_safeDos (c : Chip) (l : List Nat) : ChangesDos c (l.foldl (fun c d => c.safeDo d) c) :=
  foldl_invariant (A := ChangesDos c) (fun d x _ hd => hd.trans (changesDos_safeDo d x)) c (.refl c)

/-! ### Loop outputs -/

/-- A change of the loop outputs with their status bits and notifications, which writes no register but the count of merged notifications
and that of dropped events. -/
def ChangesAos (c d : Chip) : Prop :=
  (∃ regs recd ao live taken notes, d = { c with regs := regs, recd := recd, field := { c.field with
    ao := ao, live := live, taken := taken, notes := notes } }) ∧
  ∀ k, k ≠ 0x2800 * 256 + 7 → k ≠ 0x2B00 * 256 + 9 → d.reg k = c.reg k

theorem ChangesAos.refl (c : Chip) : ChangesAos c c := ⟨⟨_, _, _, _, _, _, rfl⟩, fun _ _ _ => rfl⟩
theorem ChangesAos.trans {a b c : Chip} (h : ChangesAos a b) (h' : ChangesAos b c) : ChangesAos a c := by
  obtain ⟨⟨r, q, o, v, t, n, rfl⟩, hr⟩ := h
  obtain ⟨⟨r', q', o', v', t', n', rfl⟩, hr'⟩ := h'
  exact ⟨⟨r', q', o', v', t', n', rfl⟩, fun k h7 h9 => (hr' k h7 h9).trans (hr k h7 h9)⟩

theorem ChangesAos.rd {c d : Chip} (h : ChangesAos c d) (ix sub : Nat) (h7 : ix * 256 + sub ≠ 0x2800 * 256 + 7)
    (h9 : ix * 256 + sub ≠ 0x2B00 * 256 + 9) : d.rd ix sub = c.rd ix sub := Chip.rd_of_reg (h.2 _ h7 h9)

theorem changesAos_modAo (c : Chip) (o : Nat) (f : AoCh → AoCh) : ChangesAos c (c.modAo o f) :=
  ⟨⟨c.regs, c.recd, _, c.field.live, c.field.taken, c.field.notes, rfl⟩, fun _ _ _ => rfl⟩
theorem changesAos_setAo (c : Chip) (o b : Nat) (v : Bool) : ChangesAos c (c.setAo o b v) :=
  ⟨⟨c.regs, c.recd, c.field.ao, _, c.field.taken, c.field.notes, rfl⟩, fun _ _ _ => rfl⟩
/-- A notification changes the core's records of notifications, the recorder and two counters. -/
def ChangesNotes (c d : Chip) : Prop :=
  (∃ regs recd taken notes, d = { c with regs := regs, recd := recd, field := { c.field with taken := taken, notes := notes } }) ∧
  ∀ k, k ≠ 0x2800 * 256 + 7 → k ≠ 0x2B00 * 256 + 9 → d.reg k = c.reg k

theorem ChangesNotes.trans {a b c : Chip} (h : ChangesNotes a b) (h' : ChangesNotes b c) : ChangesNotes a c := by
  obtain ⟨⟨r, q, t, n, rfl⟩, hr⟩ := h
  obtain ⟨⟨r', q', t', n', rfl⟩, hr'⟩ := h'
  exact ⟨⟨r', q', t', n', rfl⟩, fun k h7 h9 => (hr' k h7 h9).trans (hr k h7 h9)⟩

theorem changesNotes_takeNote (c : Chip) (k : Nat) (m : Bool) : ChangesNotes c (c.takeNote k m) :=
  ⟨⟨c.regs, c.recd, _, c.field.notes, rfl⟩, fun _ _ _ => rfl⟩
theorem changesNotes_notes (c : Chip) (f : NMem → NMem) : ChangesNotes c (c.modField (fun x => { x with notes := f x.notes })) :=
  ⟨⟨c.regs, c.recd, c.field.taken, _, rfl⟩, fun _ _ _ => rfl⟩
theorem changesNotes_bump (c : Chip) : ChangesNotes c (c.bump 0x2800 0x07) :=
  ⟨⟨_, c.recd, c.field.taken, c.field.notes, rfl⟩, fun _ h7 _ => c.reg_bump _ _ h7⟩
theorem changesNotes_eventAs (c : Chip) (t : Instant) (code sev : Nat) (fin : Bool) (src unit org csn : Nat) (dtl : List Byte) :
    ChangesNotes c (c.eventAs t code sev fin src unit org csn dtl) := by
  refine ⟨?_, fun _ _ h9 => c.reg_eventAs _ _ _ _ _ _ _ _ _ h9⟩
  unfold Chip.eventAs
  split
  · exact ⟨c.regs, _, c.field.taken, c.field.notes, rfl⟩
  · exact ⟨_, c.recd, c.field.taken, c.field.notes, rfl⟩

theorem changesNotes_notify (c : Chip) (code sev unit : Nat) (fin : Bool) (dtl : List Byte) :
    ChangesNotes c (c.notify code sev unit fin dtl) := by
  simp only [Chip.notify]
  split
  · split
    · exact (changesNotes_bump c).trans (changesNotes_takeNote ..)
    · exact (changesNotes_eventAs ..).trans (changesNotes_takeNote ..)
  · split
    · exact (changesNotes_bump c).trans (changesNotes_notes _ (fun x => NMem.set x _ 2))
    · exact changesNotes_notes c (fun x => NMem.set x _ 1)

theorem ChangesNotes.changesAos {c d : Chip} (h : ChangesNotes c d) : ChangesAos c d := by
  obtain ⟨⟨r, q, t, n, rfl⟩, hr⟩ := h
  exact ⟨⟨r, q, c.field.ao, c.field.live, t, n, rfl⟩, hr⟩

/-- A notification leaves the loop outputs. -/
theorem ChangesNotes.aoch {c d : Chip} (h : ChangesNotes c d) (o : Nat) : d.aoch o = c.aoch o := by
  obtain ⟨⟨r, q, t, n, rfl⟩, -⟩ := h
  rfl

/-- What `driveAo` makes of its channel before its events. -/
def drivenAo (c : Chip) (o na : Nat) (alarm : Bool) (x : AoCh) : AoCh :=
  { x with applied := na, alarm := alarm,
           delivered := if c.vMissing (aoSupply o) then 0 else if x.cpl then min x.delivered na else na,
           changedAt := if x.applied = na then x.changedAt else c.now }

/-- Driving a current sets the channel and its ALM bit; the start and the end of the alarm level are notified (R278). -/
theorem driveAo_cases (c : Chip) (o na : Nat) (alarm : Bool) : ∃ d, d = (c.modAo o (drivenAo c o na alarm)).setAo o aoALM alarm ∧
    (c.driveAo o na alarm = d ∨ ∃ fin, c.driveAo o na alarm = d.notify 0x0921 sevMinor o fin []) := by
  refine ⟨_, rfl, ?_⟩
  simp only [Chip.driveAo]
  by_cases hs : (alarm && !(c.aoch o).alarm) = true
  · exact .inr ⟨false, if_pos hs⟩
  · by_cases he : ((c.aoch o).alarm && !alarm) = true
    · exact .inr ⟨true, (if_neg hs).trans (if_pos he)⟩
    · exact .inl ((if_neg hs).trans (if_neg he))

theorem changesAos_driveAo (c : Chip) (o na : Nat) (alarm : Bool) : ChangesAos c (c.driveAo o na alarm) := by
  obtain ⟨d, hd, h⟩ := driveAo_cases c o na alarm
  have hc : ChangesAos c d := hd ▸ (changesAos_modAo ..).trans (changesAos_setAo ..)
  rcases h with h | ⟨fin, h⟩
  · rw [h]; exact hc
  · rw [h]; exact hc.trans (changesNotes_notify ..).changesAos

theorem aoch_setAo (c : Chip) (o b j : Nat) (v : Bool) : (c.setAo o b v).aoch j = c.aoch j := by
  simp [Chip.setAo, Chip.setLive, Chip.aoch, Chip.modField]

theorem aoch_driveAo (c : Chip) (o na : Nat) (alarm : Bool) (j : Nat) :
    (c.driveAo o na alarm).aoch j = (c.modAo o (drivenAo c o na alarm)).aoch j := by
  obtain ⟨d, hd, h⟩ := driveAo_cases c o na alarm
  have hc : d.aoch j = (c.modAo o (drivenAo c o na alarm)).aoch j := by rw [hd, aoch_setAo]
  rcases h with h | ⟨fin, h⟩
  · rw [h, hc]
  · rw [h, (changesNotes_notify ..).aoch, hc]

theorem changesAos_applyAo (c : Chip) (o na : Nat) (alarm : Bool) : ChangesAos c (c.applyAo o na alarm) := by
  simp only [Chip.applyAo]
  split
  · exact changesAos_modAo ..
  · exact (changesAos_modAo ..).trans (changesAos_driveAo ..)

theorem aoch_applyAo_other (c : Chip) (o na : Nat) (alarm : Bool) (j : Nat) (h : j ≠ o) : (c.applyAo o na alarm).aoch j = c.aoch j := by
  simp only [Chip.applyAo]
  split
  · exact Chip.aoch_modAo_other _ _ _ _ h
  · rw [aoch_driveAo, Chip.aoch_modAo_other _ _ _ _ h, Chip.aoch_modAo_other _ _ _ _ h]

/-- A chip that acts sources what it commands. -/
theorem aoch_applyAo_same (c : Chip) (o na : Nat) (alarm : Bool) (h : c.acts = true) :
    ((c.applyAo o na alarm).aoch o).applied = na ∧ ((c.applyAo o na alarm).aoch o).alarm = alarm ∧
    ((c.applyAo o na alarm).aoch o).lastDisp = (c.aoch o).lastDisp := by
  have hs : (c.modAo o (fun x => { x with armed := (na, alarm) })).pairState ≠ psStandbyReady := by
    simp only [Chip.acts, decide_eq_true_eq] at h
    show c.pairState ≠ psStandbyReady
    rcases h with h | h <;> rw [h] <;> decide
  simp only [Chip.applyAo, if_neg hs]
  rw [aoch_driveAo, Chip.aoch_modAo_same, Chip.aoch_modAo_same]
  exact ⟨rfl, rfl, rfl⟩

theorem changesAos_safeAo (c : Chip) (o : Nat) : ChangesAos c (c.safeAo o) := by
  rw [safeAo_eq]
  split
  · split
    · exact (changesAos_modAo ..).trans (changesAos_applyAo ..)
    · exact (changesAos_modAo ..).trans (changesAos_applyAo ..)
    · exact changesAos_modAo ..
  · exact .refl c

theorem aoch_safeAo_other (c : Chip) (o j : Nat) (h : j ≠ o) : (c.safeAo o).aoch j = c.aoch j := by
  rw [safeAo_eq]
  split
  · split
    · rw [aoch_applyAo_other _ _ _ _ _ h, Chip.aoch_modAo_other _ _ _ _ h]
    · rw [aoch_applyAo_other _ _ _ _ _ h, Chip.aoch_modAo_other _ _ _ _ h]
    · exact Chip.aoch_modAo_other _ _ _ _ h
  · rfl

/-- What an AO holds once its safe state of kind `kind` is taken: 0 mA, or its alarm level (R272, R278). -/
def SafeAo (kind na : Nat) (x : AoCh) : Prop :=
  x.lastDisp = none ∧ (kind = 0 → x.applied = 0 ∧ x.alarm = false) ∧ (kind = 2 → x.applied = na ∧ x.alarm = true)

theorem safeAo_takes (c : Chip) (o : Nat) (h : c.safeReaches = true) (ha : c.acts = true) :
    SafeAo (c.rd (0x2868 + o) 0x01) (c.alarmNa o) ((c.safeAo o).aoch o) := by
  have hl : ((c.modAo o undispatchedAo).aoch o).lastDisp = none := congrArg AoCh.lastDisp (Chip.aoch_modAo_same ..)
  rw [safeAo_eq, if_pos h]
  split
  · next h0 =>
    obtain ⟨hp, hm, hd⟩ := aoch_applyAo_same (c.modAo o undispatchedAo) o 0 false ha
    exact ⟨hd.trans hl, fun _ => ⟨hp, hm⟩, fun h2 => by omega⟩
  · next h2 =>
    obtain ⟨hp, hm, hd⟩ := aoch_applyAo_same (c.modAo o undispatchedAo) o (c.alarmNa o) true ha
    exact ⟨hd.trans hl, fun h0 => by omega, fun _ => ⟨hp, hm⟩⟩
  · next h0 h2 => exact ⟨hl, fun h => absurd h h0, fun h => absurd h h2⟩

/-- The safe states of a list of AOs: each takes its own. -/
theorem safeAos_take (c : Chip) (l : List Nat) (o : Nat) (ho : o ∈ l) (h : c.safeReaches = true) (ha : c.acts = true) :
    SafeAo (c.rd (0x2868 + o) 0x01) (c.alarmNa o) ((l.foldl (fun c o => c.safeAo o) c).aoch o) := by
  have hb : ∀ d, ChangesAos c d → SafeAo (c.rd (0x2868 + o) 0x01) (c.alarmNa o) ((d.safeAo o).aoch o) := by
    intro d hd
    have h1 := hd.rd (0x2868 + o) 0x01 (by omega) (by omega)
    have h3 := hd.rd (0x2868 + o) 0x03 (by omega) (by omega)
    have hp := hd.rd 0x2400 0x03 (by omega) (by omega)
    have hr : d.safeReaches = true := by obtain ⟨⟨_, _, _, _, _, _, rfl⟩, _⟩ := hd; exact h
    have hx := safeAo_takes d o hr ((Chip.acts_congr hp).trans ha)
    have hna : d.alarmNa o = c.alarmNa o := by simp only [Chip.alarmNa, h3]
    rwa [h1, hna] at hx
  refine foldl_brings (A := ChangesAos c) (P := fun d => SafeAo (c.rd (0x2868 + o) 0x01) (c.alarmNa o) (d.aoch o)) ho
    (fun d x hd => hd.trans (changesAos_safeAo d x)) hb ?_ c (.refl c)
  intro d j hd hp
  by_cases hj : o = j
  · exact hj ▸ hb d hd
  · rwa [aoch_safeAo_other d j o hj]

theorem changesAos_safeAos (c : Chip) (l : List Nat) : ChangesAos c (l.foldl (fun c o => c.safeAo o) c) :=
  foldl_invariant (A := ChangesAos c) (fun d x _ hd => hd.trans (changesAos_safeAo d x)) c (.refl c)

/-! ### The safe instant of a class (R32, R67) -/

/-- The chip whose class n goes to its safe outputs: what stands before its scheduled writes are dropped. -/
def Chip.safeDrive (c : Chip) (g : ClsCfg) : Chip :=
  (g.aoOut.map (·.1)).foldl (fun c o => c.safeAo o) ((g.doOut.map (·.1)).foldl (fun c d => c.safeDo d) c)

theorem safeOutputs_eq (c : Chip) (n : Nat) (g : ClsCfg) (h : (c.cl n).cfg = some g) :
    c.safeOutputs n = (c.safeDrive g).modField (fun f => { f with sched := f.sched.filter (fun x => x.cls != n) }) := by
  simp only [Chip.safeOutputs, h]
  rfl

theorem safeDrive_cls (c : Chip) (g : ClsCfg) : (c.safeDrive g).cls = c.cls := by
  obtain ⟨x, y, hd⟩ := changesDos_safeDos c (g.doOut.map (·.1))
  obtain ⟨⟨r, q, o, v, t, n, ha⟩, -⟩ := changesAos_safeAos ((g.doOut.map (·.1)).foldl (fun c d => c.safeDo d) c) (g.aoOut.map (·.1))
  rw [Chip.safeDrive, ha, hd]
  rfl

theorem safeDrive_do (c : Chip) (g : ClsCfg) (k : Nat) (hk : k ∈ g.doOut.map (·.1)) (h : c.safeReaches = true) :
    SafeDo (c.rd (0x2840 + k) 0x03) ((c.safeDrive g).doc k) := by
  obtain ⟨⟨r, q, o, v, t, n, ha⟩, -⟩ := changesAos_safeAos ((g.doOut.map (·.1)).foldl (fun c d => c.safeDo d) c) (g.aoOut.map (·.1))
  have hd : (c.safeDrive g).doc k = ((g.doOut.map (·.1)).foldl (fun c d => c.safeDo d) c).doc k := by rw [Chip.safeDrive, ha]; rfl
  rw [hd]
  exact safeDos_take c _ k hk h

theorem safeDrive_ao (c : Chip) (g : ClsCfg) (o : Nat) (ho : o ∈ g.aoOut.map (·.1)) (h : c.safeReaches = true) (ha : c.acts = true) :
    SafeAo (c.rd (0x2868 + o) 0x01) (c.alarmNa o) ((c.safeDrive g).aoch o) := by
  obtain ⟨x, y, hd⟩ := changesDos_safeDos c (g.doOut.map (·.1))
  have hx := safeAos_take ((g.doOut.map (·.1)).foldl (fun c d => c.safeDo d) c) _ o ho (by rw [hd]; exact h) (by rw [hd]; exact ha)
  have hr : ((g.doOut.map (·.1)).foldl (fun c d => c.safeDo d) c).rd (0x2868 + o) 0x01 = c.rd (0x2868 + o) 0x01 := by rw [hd]; rfl
  have hn : ((g.doOut.map (·.1)).foldl (fun c d => c.safeDo d) c).alarmNa o = c.alarmNa o := by rw [hd]; rfl
  rwa [hr, hn] at hx

/-- A class without a cycle whose safe instant has come takes its safe outputs and has nothing else to dispatch. -/
theorem gives_safe (s : State) (t : Instant) (n : Fin 16) (g : ClsCfg) (d : Instant) (hg : (s.chip.cl n.val).cfg = some g)
    (hc : (s.chip.cl n.val).cycle = none) (hs : (s.chip.cl n.val).safeAt = some d) (hd : d ≤ t) (ha : s.chip.acts = true) :
    Gives s (.dispatch t n) ((((s.chip.at_ t).modCl n.val (fun k => { k with safeAt := none })).safeDrive g).modField
      (fun f => { f with sched := f.sched.filter (fun x => x.cls != n.val) })) := by
  let b := (s.chip.at_ t).modCl n.val (fun k => { k with safeAt := none })
  have hb : b.cl n.val = { s.chip.cl n.val with safeAt := none } := Chip.cl_modCl_same ..
  have hdrives : b.drives = true := by
    have : b.acts = true := ha
    simp [Chip.drives, this]
  have hsafe : (s.chip.at_ t).takeSafe n.val t = b.safeOutputs n.val := by
    have hs' : ((s.chip.at_ t).cl n.val).safeAt = some d := hs
    simp only [Chip.takeSafe, hs', if_pos hd]
    exact if_pos hdrives
  have hcl : (b.safeOutputs n.val).cl n.val = { s.chip.cl n.val with safeAt := none } := by
    rw [safeOutputs_eq b n.val g (by rw [hb]; exact hg), ← hb]
    show nth _ (b.safeDrive g).cls _ = _
    rw [safeDrive_cls]
    rfl
  have hdisp : (b.safeOutputs n.val).dispatchCycle n.val t = b.safeOutputs n.val := by
    simp only [Chip.dispatchCycle, hcl, hc]
  have hx : s.chip.dispatchBy n.val t = b.safeOutputs n.val := by
    simp only [Chip.dispatchBy, Chip.dispatchDue, hs, hc, if_pos hd]
    rw [hsafe, hdisp]
  show Host.Outcome.next { s with chip := s.chip.dispatchBy n.val t } = _
  rw [hx, safeOutputs_eq b n.val g (by rw [hb]; exact hg)]

/-- A die that works and holds one scheduled write of a DO applies it when its time has come (R58, R59). -/
theorem gives_scheduledDo (s : State) (t : Instant) (x : Sched) (hf : s.chip.fieldAlive = true) (hs : s.chip.field.sched = [x])
    (ht : x.t ≤ t) (ho : x.ao = false) :
    Gives s (.scheduledWriteApply t) (((s.chip.at_ t).modField (fun f => { f with sched := [] })).levelDo x.ch (x.val % 2 == 1)) := by
  have hlt : ¬ t < x.t := Nat.not_lt.mpr ht
  have hm : (s.chip.at_ t).modField (fun f => { f with sched := f.sched.filter (fun x => decide (t < x.t)) }) =
      (s.chip.at_ t).modField (fun f => { f with sched := [] }) := by
    simp [Chip.modField, hs, hlt]
  show execScheduledWriteApply t s = _
  simp only [execScheduledWriteApply, State.onChip, hf, hs, ht, hm, if_true, sortBy, insertBy, List.filter_cons, List.filter_nil,
    decide_true, List.foldl_cons, List.foldl_nil, Chip.applySched, ho]
  rfl

/-- Settles O33: the safe instant by the folds over the owned outputs, the scheduled write by evaluation. -/
theorem safeStatesAndScheduledWritesApply : Obligations.SafeStatesAndScheduledWritesApply := by
  unfold Obligations.SafeStatesAndScheduledWritesApply
  refine ⟨fun s t n g d hg hc hs hd ha => ⟨_, gives_safe s t n g d hg hc hs hd ha, ?_, ?_, ?_, ?_⟩, gives_scheduledDo⟩
  · show (nth _ (Chip.safeDrive _ g).cls _).safeAt = none
    rw [safeDrive_cls]
    exact congrArg Cls.safeAt (Chip.cl_modCl_same ..)
  · intro x hx
    simpa using (List.mem_filter.mp hx).2
  · intro hl hf hn k hk _
    exact safeDrive_do _ g k hk (safeReaches_of hl hf hn)
  · intro hl hf hn o ho _
    exact safeDrive_ao _ g o ho (safeReaches_of hl hf hn) ha

end Sys2Proof.Machine
end

section
namespace Sys2Proof.Machine

/-! ### The frozen image of a class (R45-R52) -/

/-- A change of a class's image, its qualities and its mailbox headers alone. -/
def ChangesImage (k k' : Cls) : Prop := ∃ img imgQ hdrs, k' = { k with img := img, imgQ := imgQ, hdrs := hdrs }

theorem ChangesImage.refl (k : Cls) : ChangesImage k k := ⟨k.img, k.imgQ, k.hdrs, rfl⟩
theorem ChangesImage.trans {a b c : Cls} (h : ChangesImage a b) (h' : ChangesImage b c) : ChangesImage a c := by
  obtain ⟨i, q, d, rfl⟩ := h
  obtain ⟨i', q', d', rfl⟩ := h'
  exact ⟨i', q', d', rfl⟩

theorem changesImage_foldl {β : Type} {f : Cls → β → Cls} (h : ∀ k x, ChangesImage k (f k x)) (l : List β) (k : Cls) :
    ChangesImage k (l.foldl f k) := by
  induction l generalizing k with
  | nil => exact .refl k
  | cons x l ih => exact (h k x).trans (ih _)

theorem changesImage_freezePlace (sq : ItemSrc → Nat) (rst : Bool) (its : List Item) (k : Cls) (p : Place) :
    ChangesImage k (freezePlace sq rst its k p) := by
  have hk : ∀ k', ChangesImage k k' → ∀ img q, ChangesImage k { k' with img := img, imgQ := q } := by
    rintro k' ⟨i, q, d, rfl⟩ img q'
    exact ⟨img, q', d, rfl⟩
  simp only [freezePlace]
  refine hk _ ?_ _ _
  split
  · exact ⟨_, _, k.hdrs, rfl⟩
  · split
    · exact ⟨_, k.imgQ, k.hdrs, rfl⟩
    · exact .refl k

theorem changesImage_placeFrozen (its : List Item) (k : Cls) (p : Place) : ChangesImage k (placeFrozen its k p) := by
  unfold placeFrozen
  split
  · exact ⟨_, _, k.hdrs, rfl⟩
  · exact .refl k

theorem changesImage_freezeRemote (c : Chip) (its : List Item) (m : Instant) (k : Cls) (x : RemoteMod) :
    ChangesImage k (c.freezeRemote its m k x) := by
  have hk : ∀ k', ChangesImage k k' → ∀ q, ChangesImage k { k' with imgQ := q } := by
    rintro k' ⟨i, q, d, rfl⟩ q'
    exact ⟨i, q', d, rfl⟩
  simp only [Chip.freezeRemote]
  refine hk _ ?_ _
  split
  · exact ⟨_, _, k.hdrs, rfl⟩
  · exact .refl k

theorem changesImage_freezeOrphans (l : List Orphan) (m : Instant) (k : Cls) : ChangesImage k (freezeOrphans l m k) :=
  changesImage_foldl (fun _ _ => ⟨_, _, _, rfl⟩) l k

theorem changesImage_freezeOther (m : Instant) (a : Cls) (num : Nat) (k : Cls) : ChangesImage k (freezeOther m a num k) := by
  unfold freezeOther
  split
  · exact .refl k
  · exact (changesImage_foldl (fun k _ => ⟨_, _, k.hdrs, rfl⟩) _ k).trans
      (changesImage_foldl (fun k _ => ⟨k.img, k.imgQ, _, rfl⟩) _ _)

/-- The class n as a freeze leaves it. -/
def Chip.frozenCls (c : Chip) (auth : Bool) (n : Nat) (m : Instant) (its : List Item) (g : ClsCfg) : Cls :=
  let k := g.inputs.foldl (fun k p => freezePlace (if auth then c.sourceQ else fun _ => 0) (auth && c.resetSince (c.cl n).lastM) its k p)
    (c.cl n)
  let k := g.inputs.foldl (fun k p => placeFrozen its k p) k
  let k := g.remote.foldl (fun k x => c.freezeRemote its m k x) k
  let k := freezeOrphans (c.regions.flatMap (·.orphans)) m k
  (c.cls.zipIdx).foldl (fun k p => if p.2 = n then k else freezeOther m p.1 p.2 k) k

theorem changesImage_frozenCls (c : Chip) (auth : Bool) (n : Nat) (m : Instant) (its : List Item) (g : ClsCfg) :
    ChangesImage (c.cl n) (c.frozenCls auth n m its g) := by
  refine ChangesImage.trans ?_ (changesImage_foldl (fun k p => ?_) _ _)
  · refine ChangesImage.trans ?_ (changesImage_freezeOrphans ..)
    refine ChangesImage.trans ?_ (changesImage_foldl (changesImage_freezeRemote c its m) _ _)
    refine ChangesImage.trans ?_ (changesImage_foldl (changesImage_placeFrozen its) _ _)
    exact changesImage_foldl (changesImage_freezePlace _ _ its) _ _
  · split
    · exact .refl k
    · exact changesImage_freezeOther ..

/-- A change of the CAN ports and of two registers alone: RST of the supply word, 0x2800.02, and the samples lost, 0x2600.12. -/
def ChangesCan (c d : Chip) : Prop :=
  (∃ regs can, d = { c with regs := regs, net := { c.net with can := can } }) ∧
  ∀ k, k ≠ 0x2800 * 256 + 2 → k ≠ 0x2600 * 256 + 0x12 → d.reg k = c.reg k

theorem ChangesCan.refl (c : Chip) : ChangesCan c c := ⟨⟨c.regs, c.net.can, rfl⟩, fun _ _ _ => rfl⟩
theorem ChangesCan.trans {a b c : Chip} (h : ChangesCan a b) (h' : ChangesCan b c) : ChangesCan a c := by
  obtain ⟨⟨r, n, rfl⟩, hr⟩ := h
  obtain ⟨⟨r', n', rfl⟩, hr'⟩ := h'
  exact ⟨⟨r', n', rfl⟩, fun k h2 h12 => (hr' k h2 h12).trans (hr k h2 h12)⟩

theorem freeze_changesCan (c : Chip) (auth : Bool) (n : Nat) (m : Instant) (its : List Item) (g : ClsCfg) (hg : (c.cl n).cfg = some g) :
    ChangesCan (c.modCl n (fun _ => c.frozenCls auth n m its g)) (c.freeze auth n m its) := by
  simp only [Chip.freeze, hg]
  refine foldl_invariant ?_ _ (foldl_invariant ?_ _ ?_)
  · intro d i _ hd
    refine hd.trans ?_
    split
    · exact ⟨⟨_, _, rfl⟩, fun _ _ _ => rfl⟩
    · exact .refl d
  · intro d p _ hd
    refine hd.trans ?_
    split
    · exact ⟨⟨_, d.net.can, rfl⟩, fun _ _ h12 => Chip.reg_bumpBy _ _ _ _ h12⟩
    · exact .refl d
  · split
    · exact ⟨⟨_, c.net.can, rfl⟩, fun _ h2 _ => Chip.reg_setBit _ _ _ _ _ h2⟩
    · exact .refl _

theorem modCl_modCl (c : Chip) (n : Nat) (f g : Cls → Cls) : (c.modCl n f).modCl n g = c.modCl n (fun k => g (f k)) := by
  simp only [Chip.modCl, modNth_modNth]

/-- The chip on which class n has its image of muster m, and the active has sent what its partner needs for it. -/
def Chip.imageTaken (c : Chip) (n : Nat) (m : Instant) : Chip :=
  let its := (c.cl n).items.filter (fun i => before m i.stamp)
  let d := (c.modCl n (fun k => { k with items := k.items.filter (fun i => !before m i.stamp) })).freeze true n m its
  (if d.pairState = psActive then d.frozenItems n m its (c.cl n) else []).foldl (fun c i => c.send (.item n i)) d

theorem sends_eq (c : Chip) (l : List OnbexOut) : ∃ p, l.foldl (fun c f => c.send f) c = { c with pair := p } := by
  refine foldl_invariant (A := fun d => ∃ p, d = { c with pair := p }) ?_ c ⟨c.pair, rfl⟩
  rintro d f - ⟨p, rfl⟩
  unfold Chip.send
  split
  · exact ⟨_, rfl⟩
  · exact ⟨p, rfl⟩

/-- The items before the cut-off leave the port of class n with its image; nothing else of the chip but the CAN ports, the link and two
registers changes. -/
theorem imageTaken_eq (c : Chip) (n : Nat) (m : Instant) (g : ClsCfg) (hg : (c.cl n).cfg = some g) :
    (∃ img imgQ hdrs regs can p, c.imageTaken n m =
      { c.modCl n (fun k => { k with items := k.items.filter (fun i => !before m i.stamp), img := img, imgQ := imgQ, hdrs := hdrs }) with
        regs := regs, net := { c.net with can := can }, pair := p }) ∧
    ∀ k, k ≠ 0x2800 * 256 + 2 → k ≠ 0x2600 * 256 + 0x12 → (c.imageTaken n m).reg k = c.reg k := by
  let b := c.modCl n (fun k => { k with items := k.items.filter (fun i => !before m i.stamp) })
  have hb : b.cl n = { c.cl n with items := (c.cl n).items.filter (fun i => !before m i.stamp) } := Chip.cl_modCl_same ..
  obtain ⟨⟨regs, can, hf⟩, hr⟩ := freeze_changesCan b true n m ((c.cl n).items.filter (fun i => before m i.stamp)) g (by rw [hb]; exact hg)
  obtain ⟨img, imgQ, hdrs, hi⟩ := changesImage_frozenCls b true n m ((c.cl n).items.filter (fun i => before m i.stamp)) g
  obtain ⟨p, hp⟩ := sends_eq (b.freeze true n m ((c.cl n).items.filter (fun i => before m i.stamp))) _
  have hx : c.imageTaken n m = { b.freeze true n m ((c.cl n).items.filter (fun i => before m i.stamp)) with pair := p } := by
    rw [← hp, List.foldl_map]
    rfl
  refine ⟨⟨img, imgQ, hdrs, regs, can, p, ?_⟩, fun k h2 h12 => by rw [hx]; exact hr k h2 h12⟩
  have hm : b.modCl n (fun _ => b.frozenCls true n m ((c.cl n).items.filter (fun i => before m i.stamp)) g) =
      c.modCl n (fun k => { k with items := k.items.filter (fun i => !before m i.stamp), img := img, imgQ := imgQ, hdrs := hdrs }) := by
    rw [modCl_modCl]
    refine Chip.modCl_congr _ _ _ _ ?_
    rw [hi, hb]
  rw [hx, hf, hm]
  rfl

/-! ### The cycle that a muster starts (R53, R76, R137) -/

/-- The members of a team enter their cycle, each at its own entry. -/
def Chip.enterTeam (c : Chip) (g : ClsCfg) (l : List (Nat × Nat)) : Chip :=
  l.foldl (fun c q => c.modWork q.1 (fun w => enterCycle w (nth 0 g.entries q.2))) c

theorem enterTeam_eq (c : Chip) (g : ClsCfg) (l : List (Nat × Nat)) : ∃ ws, c.enterTeam g l = { c with works := ws } := by
  refine foldl_invariant (A := fun d => ∃ ws, d = { c with works := ws }) ?_ c ⟨c.works, rfl⟩
  rintro d q - ⟨ws, rfl⟩
  exact ⟨_, rfl⟩

theorem work_enterTeam_notMem (g : ClsCfg) (team : List Nat) (i : Nat) (c : Chip) (e : Nat) (h : e ∉ team) :
    (c.enterTeam g (team.zipIdx i)).work e = c.work e := by
  induction team generalizing c i with
  | nil => rfl
  | cons m l ih =>
    simp only [List.mem_cons, not_or] at h
    rw [List.zipIdx_cons]
    exact (ih (i + 1) _ h.2).trans (Chip.work_modWork_other _ _ _ _ h.1)

theorem work_enterTeam_mem (g : ClsCfg) (team : List Nat) (i k : Nat) (c : Chip) (e : Nat) (hd : team.Nodup) (h : team[k]? = some e) :
    (c.enterTeam g (team.zipIdx i)).work e = enterCycle (c.work e) (nth 0 g.entries (i + k)) := by
  induction team generalizing c i k with
  | nil => cases h
  | cons m l ih =>
    rw [List.nodup_cons] at hd
    rw [List.zipIdx_cons]
    cases k with
    | zero =>
      cases h
      exact (work_enterTeam_notMem g l (i + 1) _ _ hd.1).trans (Chip.work_modWork_same ..)
    | succ k =>
      have hne : e ≠ m := fun he => hd.1 (he ▸ List.mem_of_getElem? h)
      have hk := ih (i + 1) k (c.modWork m (fun w => enterCycle w (nth 0 g.entries i))) hd.2 h
      rw [Chip.work_modWork_other _ _ _ _ hne, show i + 1 + k = i + (k + 1) by omega] at hk
      exact hk

/-- The cycle of a class that starts at muster m. -/
def newCycle (c : Chip) (n : Nat) (m : Instant) (p : TimePair) (g : ClsCfg) : Cycle :=
  ⟨m, p, m + g.offset, c.nextCy n, 0, none, false, [], [], false, false, []⟩

/-- A class with a cycle that starts at muster m. -/
def startedCls (cy : Cycle) (m : Instant) (k : Cls) : Cls := { k with cycle := some cy, lastM := some m }

/-- The chip on which the cycle of class n has started, before the class is shown running. -/
def Chip.started (c : Chip) (n : Nat) (m : Instant) (p : TimePair) (g : ClsCfg) : Chip :=
  let d := c.enterTeam g (clsTeam (c.cl n)).zipIdx
  let d := { d with evFlight := d.evFlight.filter (fun f => !(clsTeam (c.cl n)).contains f.target) }
  ((d.modCl n (startedCls (newCycle c n m p g) m)).wr (0x2210 + n) 0x09 (c.nextCy n)).wrPair (0x2210 + n) 0x0C p

theorem startCycle_eq (c : Chip) (n : Nat) (m : Instant) (p : TimePair) (g : ClsCfg) (hg : (c.cl n).cfg = some g) :
    c.startCycle n m p = (c.started n m p g).toState n csRunning := by
  simp only [Chip.startCycle, hg]
  rfl

/-- A release that executes: the image is taken, the cycle starts, and the seal joins those of the muster. -/
theorem takeRelease_eq (c : Chip) (n : Nat) (m : Instant) : ∃ p, c.takeRelease n m =
    { (c.imageTaken n m).startCycle n m ((c.imageTaken n m).pairAt m) with pair := p } := ⟨_, rfl⟩

theorem musterClass_executes (c : Chip) (n : Nat) (m : Instant) (hc : (c.cl n).cycle = none) (he : c.executes n m = true) :
    c.musterClass n m = c.takeRelease n m := by
  simp only [Chip.executes, Bool.and_eq_true] at he
  obtain ⟨⟨⟨hr, hf⟩, -⟩, ht⟩ := he
  simp only [Chip.musterClass, hr, hc, ht, hf, Option.isNone_none, and_self, if_true]

theorem pairAt_congr {c d : Chip} (hr : d.reg (0x2A00 * 256 + 1) = c.reg (0x2A00 * 256 + 1)) (ht : d.net.tb = c.net.tb)
    (hn : d.now = c.now) (t : Instant) : d.pairAt t = c.pairAt t := by
  have h : d.rd 0x2A00 0x01 = c.rd 0x2A00 0x01 := Chip.rd_of_reg hr
  simp only [Chip.pairAt, Chip.timeFlags, h, ht, hn]

theorem nextCy_congr {c d : Chip} {n : Nat} (h8 : d.reg ((0x2210 + n) * 256 + 8) = c.reg ((0x2210 + n) * 256 + 8))
    (h9 : d.reg ((0x2210 + n) * 256 + 9) = c.reg ((0x2210 + n) * 256 + 9)) : d.nextCy n = c.nextCy n := by
  have hs : d.clState n = c.clState n := Chip.rd_of_reg h8
  have hy : d.cy n = c.cy n := Chip.rd_of_reg h9
  simp only [Chip.nextCy, hs, hy]

theorem nextCy_lt (c : Chip) (n : Nat) : c.nextCy n < 2 ^ 48 := by
  unfold Chip.nextCy
  split
  · exact Nat.mod_lt _ (by decide)
  · decide

/-- What a started cycle has changed, and what not. -/
theorem startCycle_keeps (c : Chip) (n : Nat) (m : Instant) (p : TimePair) (g : ClsCfg) (hg : (c.cl n).cfg = some g) :
    (c.startCycle n m p).cl n = startedCls (newCycle c n m p g) m (c.cl n) ∧ (∀ k ≠ n, (c.startCycle n m p).cl k = c.cl k) ∧
    (∀ e, (c.startCycle n m p).work e = (c.enterTeam g (clsTeam (c.cl n)).zipIdx).work e) ∧
    (c.startCycle n m p).evFlight = c.evFlight.filter (fun f => !(clsTeam (c.cl n)).contains f.target) ∧
    (c.startCycle n m p).dbank = c.dbank := by
  obtain ⟨regs, wd, ht⟩ := toState_eq (c.started n m p g) n csRunning
  obtain ⟨ws, hw⟩ := enterTeam_eq c g (clsTeam (c.cl n)).zipIdx
  let fl := c.evFlight.filter (fun f => !(clsTeam (c.cl n)).contains f.target)
  have hs : c.started n m p g = { ({ c with works := ws, evFlight := fl } : Chip).modCl n (startedCls (newCycle c n m p g) m) with
      regs := (c.started n m p g).regs } := by
    simp only [Chip.started, hw]
    rfl
  rw [startCycle_eq c n m p g hg, ht, hs, hw]
  exact ⟨Chip.cl_modCl_same .., fun k hk => Chip.cl_modCl_other _ _ _ _ hk, fun _ => rfl, rfl, rfl⟩

theorem rdPair_of_reg {c d : Chip} {ix sub : Nat} (h : d.reg (ix * 256 + sub) = c.reg (ix * 256 + sub))
    (h1 : d.reg (0x1000000 + ix * 256 + sub) = c.reg (0x1000000 + ix * 256 + sub)) : d.rdPair ix sub = c.rdPair ix sub :=
  congrArg₂ TimePair.mk h h1

theorem started_eq (c : Chip) (n : Nat) (m : Instant) (p : TimePair) (g : ClsCfg) :
    ∃ d : Chip, c.started n m p g = (d.wr (0x2210 + n) 0x09 (c.nextCy n)).wrPair (0x2210 + n) 0x0C p := ⟨_, rfl⟩

/-- The registers of a class whose cycle has started (Table 02-11). -/
theorem startCycle_regs (c : Chip) (n : Nat) (m : Instant) (p : TimePair) (g : ClsCfg) (hg : (c.cl n).cfg = some g) (hn : n < 16) :
    (c.startCycle n m p).clState n = csRunning ∧ (c.startCycle n m p).cy n = c.nextCy n ∧
    (c.startCycle n m p).rdPair (0x2210 + n) 0x0C = p := by
  obtain ⟨d, hd⟩ := started_eq c n m p g
  rw [startCycle_eq c n m p g hg, hd]
  refine ⟨clState_toState _ n _ hn (by decide), ?_, ?_⟩
  · have hkept := (reg_toState ((d.wr (0x2210 + n) 0x09 (c.nextCy n)).wrPair (0x2210 + n) 0x0C p) n csRunning
      (k := (0x2210 + n) * 256 + 9) hn (by omega) (by omega) (by omega)).trans (Chip.reg_wrPair _ _ _ _ (by omega) (by omega))
    rw [Chip.cy, Chip.rd_of_reg hkept, Chip.rd_wr_same, Nat.mod_eq_of_lt (nextCy_lt c n)]
  · refine Eq.trans ?_ (Chip.rdPair_wrPair_same (d.wr (0x2210 + n) 0x09 (c.nextCy n)) (0x2210 + n) 0x0C p)
    exact rdPair_of_reg (reg_toState _ n csRunning hn (by omega) (by omega) (by omega))
      (reg_toState _ n csRunning hn (by omega) (by omega) (by omega))

/-! ### Skipped releases and items (R31, R46, R49, R60) -/

theorem countSkip_eq (c : Chip) (n : Nat) (t : Instant) : c.countSkip n t = c ∨
    c.countSkip n t = (c.bump (0x2210 + n) 0x0B).modCl n (fun k => { k with skipAt := none }) := by
  unfold Chip.countSkip
  split
  · split
    · exact .inr rfl
    · exact .inl rfl
  · exact .inl rfl

theorem pair_countSkips (c : Chip) (t : Instant) (l : List Nat) : (l.foldl (fun c n => c.countSkip n t) c).pair = c.pair := by
  refine foldl_keeps (·.pair) (fun d n _ => ?_) c
  rcases countSkip_eq d n t with h | h <;> rw [h]
  rfl

theorem copyShared_of_notCopying (c : Chip) (h : c.pair.copying = false) : c.copyShared = c := by
  simp only [Chip.copyShared]
  rw [if_neg]
  simp [h]

theorem dispatchAll_of_notDue (c : Chip) (t : Instant) (h : ∀ n < 16, ∀ u, c.dispatchDue n = some u → t < u) : c.dispatchAll t = c := by
  have hf : ((List.range 16).filterMap (fun n => (c.dispatchDue n).map (fun d => (d, n)))).filter (fun p => decide (p.1 ≤ t)) = [] := by
    rw [List.filter_eq_nil_iff]
    intro p hp
    obtain ⟨n, hn, hm⟩ := List.mem_filterMap.mp hp
    obtain ⟨u, hu, rfl⟩ := Option.map_eq_some_iff.mp hm
    have := h n (List.mem_range.mp hn) u hu
    simpa using this
  simp only [Chip.dispatchAll, hf]
  rfl

/-- An item as it waits at the port of a class: late where a muster that its stamp assigns it to has been frozen (R49). -/
def lateItem (k : Cls) (i : Item) : Item := { i with late := (match k.lastM with
  | some l => before l i.stamp
  | none => false) }

/-- A class that an item has reached. -/
def reached (i : Item) (k : Cls) : Cls := { k with items := k.items ++ [lateItem k i] }

/-- Where an item that arrives at class n goes: to its port, or, where its region is fenced, nowhere. -/
def Chip.arriveOrDrop (c : Chip) (i : Item) (n : Nat) : Chip :=
  if c.bit 0x2100 0x02 (8 + clsRegion (c.cl n)) then c.bump 0x2100 0x08 else c.arrive n i

/-- What an arrived item brings about besides: the count of late items with its event. -/
def Chip.lateCounted (c : Chip) (n : Nat) (late : Bool) : Chip :=
  if late && c.acts then (c.bump 0x2200 0x09).event 0x0205 sevMinor 3 n [] else c

/-- The active streams an item to its partner. -/
def Chip.streamed (c : Chip) (n : Nat) (i : Item) : Chip := if c.pairState = psActive then c.send (.item n i) else c

theorem arrive_eq (c : Chip) (n : Nat) (i : Item) : c.arrive n i =
    ((c.modCl n (reached i)).lateCounted n (lateItem (c.cl n) i).late).streamed n (lateItem (c.cl n) i) := by
  rw [← Chip.modCl_congr c n (fun k => { k with items := k.items ++ [lateItem (c.cl n) i] }) (reached i) rfl]
  rfl

theorem lateCounted_keeps (c : Chip) (n : Nat) (late : Bool) : (c.lateCounted n late).cls = c.cls ∧ (c.lateCounted n late).works = c.works ∧
    (c.lateCounted n late).crossing = c.crossing ∧ (c.lateCounted n late).reg (0x2100 * 256 + 2) = c.reg (0x2100 * 256 + 2) := by
  unfold Chip.lateCounted
  split
  · simp (disch := omega) only [Chip.event_cls, Chip.event_works, Chip.event_crossing, Chip.reg_event, Chip.reg_bump, Chip.bump_cls,
      Chip.bump_works, Chip.bump_crossing, and_self]
  · exact ⟨rfl, rfl, rfl, rfl⟩

theorem streamed_eq (c : Chip) (n : Nat) (i : Item) : ∃ p, c.streamed n i = { c with pair := p } := by
  unfold Chip.streamed Chip.send
  split
  · split
    · exact ⟨_, rfl⟩
    · exact ⟨c.pair, rfl⟩
  · exact ⟨c.pair, rfl⟩

theorem arrive_keeps (c : Chip) (n : Nat) (i : Item) : (c.arrive n i).cl n = reached i (c.cl n) ∧
    (∀ k ≠ n, (c.arrive n i).cl k = c.cl k) ∧ (c.arrive n i).works = c.works ∧ (c.arrive n i).crossing = c.crossing ∧
    (c.arrive n i).reg (0x2100 * 256 + 2) = c.reg (0x2100 * 256 + 2) := by
  obtain ⟨hc, hw, hx, hr⟩ := lateCounted_keeps (c.modCl n (reached i)) n (lateItem (c.cl n) i).late
  obtain ⟨p, hp⟩ := streamed_eq ((c.modCl n (reached i)).lateCounted n (lateItem (c.cl n) i).late) n (lateItem (c.cl n) i)
  rw [arrive_eq, hp]
  refine ⟨?_, fun k hk => ?_, hw, hx, hr⟩
  · exact (congrArg (nth Cls.reset · n) hc).trans (Chip.cl_modCl_same ..)
  · exact (congrArg (nth Cls.reset · k) hc).trans (Chip.cl_modCl_other _ _ _ _ hk)

theorem arriveOrDrop_keeps (c : Chip) (i : Item) (n : Nat) :
    (c.arriveOrDrop i n).cl n = (if c.bit 0x2100 0x02 (8 + clsRegion (c.cl n)) = false then reached i (c.cl n) else c.cl n) ∧
    (∀ k ≠ n, (c.arriveOrDrop i n).cl k = c.cl k) ∧ (c.arriveOrDrop i n).works = c.works ∧ (c.arriveOrDrop i n).crossing = c.crossing ∧
    (c.arriveOrDrop i n).reg (0x2100 * 256 + 2) = c.reg (0x2100 * 256 + 2) := by
  obtain ⟨hs, ho, hw, hx, hr⟩ := arrive_keeps c n i
  unfold Chip.arriveOrDrop
  by_cases hf : c.bit 0x2100 0x02 (8 + clsRegion (c.cl n)) = true
  · rw [if_pos hf, hf]
    exact ⟨rfl, fun _ _ => rfl, rfl, rfl, Chip.reg_bump _ _ _ (by omega)⟩
  · rw [if_neg hf, if_pos (by simpa using hf)]
    exact ⟨hs, ho, hw, hx, hr⟩

/-- Class n after an item has come for the classes of a list: the item waits at its port where its region is not fenced. -/
theorem arrivals_keep (i : Item) (l : List Nat) (hd : l.Nodup) (c : Chip) :
    (l.foldl (fun c n => c.arriveOrDrop i n) c).works = c.works ∧ (l.foldl (fun c n => c.arriveOrDrop i n) c).crossing = c.crossing ∧
    ∀ n, (l.foldl (fun c n => c.arriveOrDrop i n) c).cl n =
      if n ∈ l ∧ c.bit 0x2100 0x02 (8 + clsRegion (c.cl n)) = false then reached i (c.cl n) else c.cl n := by
  induction l generalizing c with
  | nil => exact ⟨rfl, rfl, fun n => by simp⟩
  | cons x l ih =>
    rw [List.nodup_cons] at hd
    obtain ⟨hw, hx, hc⟩ := ih hd.2 (c.arriveOrDrop i x)
    obtain ⟨hsame, hother, hw', hx', hr⟩ := arriveOrDrop_keeps c i x
    refine ⟨hw.trans hw', hx.trans hx', fun n => ?_⟩
    rw [List.foldl_cons, hc n, Chip.bit_of_reg _ hr]
    by_cases hn : n = x
    · subst hn
      simp only [hd.1, false_and, if_false, List.mem_cons_self, true_and, hsame]
    · rw [hother n hn]
      simp only [List.mem_cons, hn, false_or]

theorem execItemArrival_eq (s : State) (t : Instant) (k p : Nat) (i : Item) (h : s.chip.crossing[k]? = some (p, i)) (ht : i.stamp ≤ t) :
    Gives s (.itemArrival t k) (((List.range 16).filter (fun n => consumes (s.chip.cl n) i.src)).foldl (fun c n => c.arriveOrDrop i n)
      { s.chip.at_ t with crossing := s.chip.crossing.eraseIdx k }) := by
  have he : exec (.itemArrival t k) s = execItemArrival t k s := rfl
  rw [Gives, he]
  simp only [execItemArrival, State.onChip, h, if_pos ht]
  rfl

/-! ### The muster of a class that executes its release (R45, R53, R76) -/

/-- The chip on which class n has taken its image of m, and started its cycle. -/
def Chip.cycleStarted (c : Chip) (n : Nat) (m : Instant) : Chip := (c.imageTaken n m).startCycle n m ((c.imageTaken n m).pairAt m)

/-- The next cycle number and the time pair of a muster are those of the chip before the image is taken. -/
theorem imageTaken_times (c : Chip) (n : Nat) (m : Instant) (g : ClsCfg) (hg : (c.cl n).cfg = some g) (hn : n < 16) :
    (c.imageTaken n m).nextCy n = c.nextCy n ∧ (c.imageTaken n m).pairAt m = c.pairAt m := by
  obtain ⟨⟨img, imgQ, hdrs, regs, can, p, he⟩, hr⟩ := imageTaken_eq c n m g hg
  refine ⟨nextCy_congr (hr _ (by omega) (by omega)) (hr _ (by omega) (by omega)),
    pairAt_congr (hr _ (by omega) (by omega)) (congrArg (·.net.tb) he) ((congrArg Chip.now he).trans rfl) m⟩

/-- Class n with its cycle of muster m and its items from m on. -/
theorem cycleStarted_cl (c : Chip) (n : Nat) (m : Instant) (g : ClsCfg) (hg : (c.cl n).cfg = some g) (hn : n < 16) :
    ((c.cycleStarted n m).cl n).cycle = some (newCycle c n m (c.pairAt m) g) ∧ ((c.cycleStarted n m).cl n).lastM = some m ∧
    ((c.cycleStarted n m).cl n).items = (c.cl n).items.filter (fun i => !before m i.stamp) ∧
    ∀ k ≠ n, (c.cycleStarted n m).cl k = c.cl k := by
  obtain ⟨hcy, hp⟩ := imageTaken_times c n m g hg hn
  obtain ⟨⟨img, imgQ, hdrs, regs, can, p, he⟩, -⟩ := imageTaken_eq c n m g hg
  have hcl : (c.imageTaken n m).cl n =
      { c.cl n with items := (c.cl n).items.filter (fun i => !before m i.stamp), img := img, imgQ := imgQ, hdrs := hdrs } := by
    rw [he]
    exact Chip.cl_modCl_same ..
  have ho : ∀ k ≠ n, (c.imageTaken n m).cl k = c.cl k := fun k hk => by
    rw [he]
    exact Chip.cl_modCl_other _ _ _ _ hk
  obtain ⟨hk, hko, -⟩ := startCycle_keeps (c.imageTaken n m) n m (c.pairAt m) g (by rw [hcl]; exact hg)
  have hnew : newCycle (c.imageTaken n m) n m (c.pairAt m) g = newCycle c n m (c.pairAt m) g := by simp only [newCycle, hcy]
  rw [Chip.cycleStarted, hp, hk, hnew, hcl]
  exact ⟨rfl, rfl, rfl, fun k hne => (hko k hne).trans (ho k hne)⟩

/-- The members of the team enter; no event flies to them any more; D-space stays. -/
theorem cycleStarted_team (c : Chip) (n : Nat) (m : Instant) (g : ClsCfg) (hg : (c.cl n).cfg = some g) :
    (∀ e ∉ clsTeam (c.cl n), (c.cycleStarted n m).work e = c.work e) ∧
    (∀ k e, (clsTeam (c.cl n))[k]? = some e → (clsTeam (c.cl n)).Nodup →
      (c.cycleStarted n m).work e = enterCycle (c.work e) (nth 0 g.entries k)) ∧
    (∀ f ∈ (c.cycleStarted n m).evFlight, f.target ∉ clsTeam (c.cl n)) ∧ (c.cycleStarted n m).dbank = c.dbank := by
  obtain ⟨⟨img, imgQ, hdrs, regs, can, p, he⟩, -⟩ := imageTaken_eq c n m g hg
  have hcl : (c.imageTaken n m).cl n =
      { c.cl n with items := (c.cl n).items.filter (fun i => !before m i.stamp), img := img, imgQ := imgQ, hdrs := hdrs } := by
    rw [he]
    exact Chip.cl_modCl_same ..
  have hteam : clsTeam ((c.imageTaken n m).cl n) = clsTeam (c.cl n) := by rw [hcl]; rfl
  have hwork : ∀ e, (c.imageTaken n m).work e = c.work e := fun e => by rw [he]; rfl
  obtain ⟨-, -, hw, hf, hd⟩ := startCycle_keeps (c.imageTaken n m) n m ((c.imageTaken n m).pairAt m) g (by rw [hcl]; exact hg)
  rw [hteam] at hw hf
  refine ⟨fun e hm => ?_, fun k e hk hnd => ?_, fun f hm => ?_, ?_⟩
  · exact (hw e).trans ((work_enterTeam_notMem g _ 0 _ e hm).trans (hwork e))
  · have hin := work_enterTeam_mem g _ 0 k (c.imageTaken n m) e hnd hk
    rw [hwork, Nat.zero_add] at hin
    exact (hw e).trans hin
  · rw [Chip.cycleStarted, hf, List.mem_filter] at hm
    simpa using hm.2
  · rw [Chip.cycleStarted, hd, he]
    rfl

theorem cycleStarted_regs (c : Chip) (n : Nat) (m : Instant) (g : ClsCfg) (hg : (c.cl n).cfg = some g) (hn : n < 16) :
    (c.cycleStarted n m).clState n = csRunning ∧ (c.cycleStarted n m).cy n = c.nextCy n ∧
    (c.cycleStarted n m).rdPair (0x2210 + n) 0x0C = c.pairAt m := by
  obtain ⟨hcy, hp⟩ := imageTaken_times c n m g hg hn
  obtain ⟨⟨img, imgQ, hdrs, regs, can, p, he⟩, -⟩ := imageTaken_eq c n m g hg
  have hcfg : ((c.imageTaken n m).cl n).cfg = some g := by
    rw [he]
    exact (congrArg Cls.cfg (Chip.cl_modCl_same ..)).trans hg
  obtain ⟨hst, hc, hpair⟩ := startCycle_regs (c.imageTaken n m) n m ((c.imageTaken n m).pairAt m) g hcfg hn
  exact ⟨hst, hc.trans hcy, hpair.trans hp⟩

theorem musterClass_eq_cycleStarted (c : Chip) (n : Nat) (m : Instant) (hc : (c.cl n).cycle = none) (he : c.executes n m = true) :
    ∃ p, c.musterClass n m = { c.cycleStarted n m with pair := p } := by
  obtain ⟨p, hp⟩ := takeRelease_eq c n m
  exact ⟨p, (musterClass_executes c n m hc he).trans hp⟩

/-! ### What the commands of a tick come to -/

/-- The releases that overruns skip, passing at t. -/
def Chip.skipped (c : Chip) (t : Instant) : Chip := c.forAll (List.range 16) (fun c n => c.countSkip n t)

theorem exec_tickBoundary (s : State) (t : Instant) (ht : isTick t = true) (hc : s.chip.pair.copying = false) :
    Gives s (.tickBoundary t) ((s.chip.at_ t).skipped t) := by
  have he : exec (.tickBoundary t) s = execTickBoundary t s := rfl
  have hk : ((s.chip.at_ t).skipped t).pair.copying = false := by
    rw [Chip.skipped, Chip.forAll, pair_countSkips]
    exact hc
  rw [Gives, he]
  simp only [execTickBoundary, State.onChip, if_pos ht]
  exact congrArg (fun d => Host.Outcome.next { s with chip := d }) (copyShared_of_notCopying _ hk)

theorem musterAll_of_acts (c : Chip) (t : Instant) (ha : (((c.dispatchAll t).at_ t).skipped t).acts = true) :
    c.musterAll t = ((List.range 16).foldl (fun c n => c.musterClass n t)
      ((List.range 4).foldl (fun c r => c.applyEdits r t) (((c.dispatchAll t).at_ t).skipped t))).sendSeals := by
  simp only [Chip.skipped] at ha
  simp only [Chip.musterAll, Chip.skipped]
  rw [if_pos ha]
  rfl

theorem exec_muster (s : State) (t : Instant) (ht : isTick t = true) (ha : (((s.chip.dispatchAll t).at_ t).skipped t).acts = true) :
    Gives s (.muster t) ((List.range 16).foldl (fun c n => c.musterClass n t)
      ((List.range 4).foldl (fun c r => c.applyEdits r t) (((s.chip.dispatchAll t).at_ t).skipped t))).sendSeals := by
  have he : exec (.muster t) s = execMuster t s := rfl
  rw [Gives, he]
  simp only [execMuster, State.onChip, if_pos ht]
  exact congrArg (fun d => Host.Outcome.next { s with chip := d }) (musterAll_of_acts s.chip t ha)

/-- A skipped release that passes is counted once. -/
theorem countSkip_passed (d : Chip) (n : Nat) (t u : Instant) (hs : (d.cl n).skipAt = some u) (hu : u ≤ t)
    (hx : d.switchesAt (clsRegion (d.cl n)) u = false) :
    (d.countSkip n t).rd (0x2210 + n) 0x0B = (d.rd (0x2210 + n) 0x0B + 1) % 2 ^ 48 ∧ ((d.countSkip n t).cl n).skipAt = none := by
  have he : d.countSkip n t = (d.bump (0x2210 + n) 0x0B).modCl n (fun k => { k with skipAt := none }) := by
    simp only [Chip.countSkip, hs, if_pos (And.intro hu hx)]
  rw [he]
  exact ⟨Chip.rd_wr_same .., congrArg Cls.skipAt (Chip.cl_modCl_same ..)⟩

/-- What comes of an item at a die link's end. -/
theorem exec_itemArrival (s : State) (t : Instant) (k p : Nat) (i : Item) (h : s.chip.crossing[k]? = some (p, i)) (ht : i.stamp ≤ t) :
    ∃ c', Gives s (.itemArrival t k) c' ∧ c'.crossing = s.chip.crossing.eraseIdx k ∧ c'.works = s.chip.works ∧
      ∀ n < 16, if consumes (s.chip.cl n) i.src = true ∧ s.chip.bit 0x2100 0x02 (8 + clsRegion (s.chip.cl n)) = false then
          (c'.cl n).items = (s.chip.cl n).items ++ [lateItem (s.chip.cl n) i]
        else c'.cl n = s.chip.cl n := by
  obtain ⟨hw, hx, hc⟩ := arrivals_keep i ((List.range 16).filter (fun n => consumes (s.chip.cl n) i.src))
    (List.nodup_range.filter _) { s.chip.at_ t with crossing := s.chip.crossing.eraseIdx k }
  refine ⟨_, execItemArrival_eq s t k p i h ht, hx, hw, fun n hn => ?_⟩
  have hm : n ∈ (List.range 16).filter (fun n => consumes (s.chip.cl n) i.src) ↔ consumes (s.chip.cl n) i.src = true := by
    simp only [List.mem_filter, List.mem_range, hn, true_and]
  have hcn := (hc n).trans (if_congr (and_congr hm Iff.rfl) rfl rfl)
  by_cases hp : consumes (s.chip.cl n) i.src = true ∧ s.chip.bit 0x2100 0x02 (8 + clsRegion (s.chip.cl n)) = false
  · rw [if_pos hp]
    exact congrArg Cls.items (hcn.trans (if_pos hp))
  · rw [if_neg hp]
    exact hcn.trans (if_neg hp)

/-- Settles O29: the muster of a class takes its image, which changes that class alone, and starts the cycle; the commands of a tick and
of an item are folds over the classes. -/
theorem aMusterStartsTheCyclesThatAreDue : Obligations.AMusterStartsTheCyclesThatAreDue := by
  unfold Obligations.AMusterStartsTheCyclesThatAreDue
  refine ⟨fun c n m g hn hg hc he => ?_, fun s t => ⟨exec_tickBoundary s t, exec_muster s t, dispatchAll_of_notDue s.chip t,
    fun d n u => countSkip_passed d n t u, fun k p i h ht _ => exec_itemArrival s t k p i h ht⟩⟩
  obtain ⟨p, hm⟩ := musterClass_eq_cycleStarted c n m hc he
  obtain ⟨hcy, hl, hi, ho⟩ := cycleStarted_cl c n m g hg hn
  obtain ⟨hout, hin, hf, hd⟩ := cycleStarted_team c n m g hg
  obtain ⟨hst, hcyn, hpair⟩ := cycleStarted_regs c n m g hg hn
  rw [hm]
  refine ⟨⟨_, hcy, rfl, rfl, rfl, rfl, rfl, rfl, rfl, rfl, rfl⟩, hst, hcyn, hpair, hl, hi, hout, fun k e hk hnd => ?_, hf, hd, ho⟩
  have hw : ({ c.cycleStarted n m with pair := p } : Chip).work e = enterCycle (c.work e) (nth 0 g.entries k) := hin k e hk hnd
  rw [hw]
  exact ⟨rfl, rfl, rfl, rfl, rfl⟩

end Sys2Proof.Machine
end

section
namespace Sys2Proof.Machine

/-! ### The CAN ports at a fence (R309) -/

theorem settleWire_eq (c : Chip) (k : Nat) (u : Instant) :
    ∃ free can, c.settleWire k u = { c with free := free, net := { c.net with can := can } } := by
  simp only [Chip.settleWire]
  generalize (if (c.canp k).wire.isNone && c.canSends k then c.canMayRun k u else []) = l
  split
  · exact ⟨c.free, c.net.can, rfl⟩
  · split
    · exact ⟨_, _, rfl⟩
    · exact ⟨_, c.net.can, rfl⟩

/-- A change of the CAN ports' state, and of the registers of port k, alone. -/
def ChangesCanPort (k : Nat) (c d : Chip) : Prop :=
  (∃ regs can, d = { c with regs := regs, net := { c.net with can := can } }) ∧ ∀ j, j / 256 ≠ 0x2920 + k → d.reg j = c.reg j

theorem ChangesCanPort.refl (k : Nat) (c : Chip) : ChangesCanPort k c c := ⟨⟨c.regs, c.net.can, rfl⟩, fun _ _ => rfl⟩
theorem ChangesCanPort.trans {k : Nat} {a b c : Chip} (h : ChangesCanPort k a b) (h' : ChangesCanPort k b c) : ChangesCanPort k a c := by
  obtain ⟨⟨r, n, rfl⟩, hr⟩ := h
  obtain ⟨⟨r', n', rfl⟩, hr'⟩ := h'
  exact ⟨⟨r', n', rfl⟩, fun j hj => (hr' j hj).trans (hr j hj)⟩

theorem changesCanPort_modCan (k : Nat) (c : Chip) (f : CanPort → CanPort) : ChangesCanPort k c (c.modCan k f) :=
  ⟨⟨c.regs, _, rfl⟩, fun _ _ => rfl⟩
theorem changesCanPort_wr (k : Nat) (c : Chip) (sub v : Nat) (h : sub < 256) : ChangesCanPort k c (c.wr (0x2920 + k) sub v) :=
  ⟨⟨_, c.net.can, rfl⟩, fun _ hj => Chip.reg_wr _ _ _ _ (by omega)⟩
theorem changesCanPort_dropQueue (k : Nat) (c : Chip) : ChangesCanPort k c (c.dropQueue k) :=
  (changesCanPort_wr k c 0x0C _ (by decide)).trans (changesCanPort_modCan k _ _)

theorem syncCan_changes (c : Chip) (k : Nat) : ChangesCanPort k c (c.syncCan k) := by
  simp only [Chip.syncCan]
  refine ChangesCanPort.trans (.trans ?_ (changesCanPort_wr k _ 0x07 _ (by decide))) (changesCanPort_modCan k _ _)
  split
  · exact .refl k c
  · exact changesCanPort_dropQueue k c

/-! ### A fenced port (R31-R37) -/

/-- What one more fence of port p has changed: the port is fenced and no end of its fence is due; of the power's state, no more; classes,
works, recorder and the count of faults stand as before; the field and sense dies have lost their link. -/
structure Fences (c d : Chip) (p : Nat) : Prop where
  fenced : ∀ q < 48, d.portFenced q = if q = p then true else c.portFenced q
  due : ∀ q, d.power.fencesDue.testBit q = if q = p then false else c.power.fencesDue.testBit q
  cls : d.cls = c.cls
  works : d.works = c.works
  recd : d.recd = c.recd
  reg : ∀ k, k ≠ 0x2100 * 256 + 3 → k ≠ 0x2100 * 256 + 8 → k ≠ 0x2800 * 256 + 1 → k / 256 < 0x2920 ∨ 0x2924 ≤ k / 256 → d.reg k = c.reg k
  field : p = 0 → d.field.linkUp = false ∧ d.rd 0x2800 0x01 = 3
  sense : p = 1 → d.meas.senseLost = true

/-- The CAN port behind bit p before and after its fence. -/
def Chip.settledPort (c : Chip) (p : Nat) : Chip := if 10 ≤ p ∧ p < 14 then c.settleWire (p - 10) c.now else c
def Chip.syncedPort (c : Chip) (p : Nat) : Chip := if 10 ≤ p ∧ p < 14 then c.syncCan (p - 10) else c

/-- The bit of port p is set, what crosses from it is gone. -/
def Chip.portClosed (c : Chip) (p : Nat) : Chip :=
  (((({ c with crossing := c.crossing.filter (fun i => i.1 != p) } : Chip).bumpBy 0x2100 0x08
    ((c.crossing.filter (fun i => i.1 == p)).length + (if 10 ≤ p ∧ p < 14 then c.canQueued (p - 10) else 0))).setBit 0x2100 0x03 p true).modPower
    (fun x => { x with fencesDue := setFieldOf x.fencesDue p p 0 }))

/-- The die behind port p has lost its link. -/
def Chip.dieLost (c : Chip) (p : Nat) : Chip :=
  if p = 0 then (c.modField (fun f => { f with linkUp := false })).wr 0x2800 0x01 3
  else if p = 1 then c.modMeas (fun m => { m with senseLost := true, lostAt := c.now }) else c

theorem fencePort_eq (c : Chip) (p : Nat) : c.fencePort p = (((c.settledPort p).portClosed p).dieLost p).syncedPort p := rfl

theorem settledPort_eq (c : Chip) (p : Nat) : ∃ free can, c.settledPort p = { c with free := free, net := { c.net with can := can } } := by
  unfold Chip.settledPort
  split
  · exact settleWire_eq ..
  · exact ⟨c.free, c.net.can, rfl⟩

theorem syncedPort_eq (c : Chip) (p : Nat) : (∃ regs can, c.syncedPort p = { c with regs := regs, net := { c.net with can := can } }) ∧
    ∀ j, j / 256 < 0x2920 ∨ 0x2924 ≤ j / 256 → (c.syncedPort p).reg j = c.reg j := by
  unfold Chip.syncedPort
  split
  · exact ⟨(syncCan_changes c _).1, fun j hj => (syncCan_changes c _).2 j (by omega)⟩
  · exact ⟨⟨c.regs, c.net.can, rfl⟩, fun _ _ => rfl⟩

theorem portClosed_fences (c : Chip) (p : Nat) :
    (∀ q < 48, (c.portClosed p).portFenced q = if q = p then true else c.portFenced q) ∧
    (∀ q, (c.portClosed p).power.fencesDue.testBit q = if q = p then false else c.power.fencesDue.testBit q) ∧
    ∀ k, k ≠ 0x2100 * 256 + 3 → k ≠ 0x2100 * 256 + 8 → (c.portClosed p).reg k = c.reg k := by
  refine ⟨fun q hq => ?_, fun q => testBit_setFieldOf_bit _ _ _ false, fun k h3 h8 => ?_⟩
  · refine (Chip.bit_setBit _ 0x2100 0x03 p q true hq).trans ?_
    rw [Chip.bit_of_reg q (Chip.reg_bumpBy _ _ _ _ (by omega))]
    rfl
  · exact (Chip.reg_setBit _ _ _ _ _ h3).trans (Chip.reg_bumpBy _ _ _ _ h8)

theorem dieLost_keeps (c : Chip) (p : Nat) : (∃ regs meas field, c.dieLost p = { c with regs := regs, meas := meas, field := field }) ∧
    (∀ k, k ≠ 0x2800 * 256 + 1 → (c.dieLost p).reg k = c.reg k) ∧
    (p = 0 → (c.dieLost p).field.linkUp = false ∧ (c.dieLost p).rd 0x2800 0x01 = 3) ∧ (p = 1 → (c.dieLost p).meas.senseLost = true) := by
  unfold Chip.dieLost
  split
  · exact ⟨⟨_, c.meas, _, rfl⟩, fun k h => Chip.reg_wr _ _ _ _ h, fun _ => ⟨rfl, Chip.rd_wr_same ..⟩, fun h => by omega⟩
  · next h0 =>
    split
    · exact ⟨⟨c.regs, _, c.field, rfl⟩, fun _ _ => rfl, fun h => absurd h h0, fun _ => rfl⟩
    · next h1 => exact ⟨⟨c.regs, c.meas, c.field, rfl⟩, fun _ _ => rfl, fun h => absurd h h0, fun h => absurd h h1⟩

theorem fencePort_fences (c : Chip) (p : Nat) : Fences c (c.fencePort p) p := by
  obtain ⟨free, can, hs⟩ := settledPort_eq c p
  obtain ⟨hf, hd, hr⟩ := portClosed_fences (c.settledPort p) p
  obtain ⟨⟨regs, meas, field, hl⟩, hlr, h0, h1⟩ := dieLost_keeps ((c.settledPort p).portClosed p) p
  obtain ⟨⟨regs', can', hy⟩, hyr⟩ := syncedPort_eq (((c.settledPort p).portClosed p).dieLost p) p
  have hbits : ∀ q, (c.settledPort p).portFenced q = c.portFenced q := fun q => by rw [hs]; rfl
  have hdue : (c.settledPort p).power = c.power := by rw [hs]
  have hreg : (c.settledPort p).reg = c.reg := by rw [hs]
  rw [fencePort_eq]
  constructor
  case fenced =>
    intro q hq
    rw [← hbits, ← hf q hq]
    exact Chip.bit_of_reg q ((hyr _ (by omega)).trans (hlr _ (by omega)))
  case due =>
    intro q
    rw [← hdue, ← hd q, hy, hl]
  case cls => rw [hy, hl, hs]; rfl
  case works => rw [hy, hl, hs]; rfl
  case recd => rw [hy, hl, hs]; rfl
  case reg =>
    intro k h3 h8 h1 hk
    rw [hyr k hk, hlr k h1, hr k h3 h8, hreg]
  case field =>
    intro h
    refine ⟨?_, (Chip.rd_of_reg (hyr _ (by omega))).trans (h0 h).2⟩
    rw [hy]
    exact (h0 h).1
  case sense =>
    intro h
    rw [hy]
    exact h1 h

/-! ### A fault of a die or port (R26, R33) -/

theorem markCause_eq (c : Chip) (p : Nat) (k : PortCause) :
    ∃ x y, c.markCause p k = { c with power := { c.power with linkLost := x, supplyOut := y } } := by
  cases k with
  | link => exact ⟨setFieldOf c.power.linkLost p p 1, c.power.supplyOut, rfl⟩
  | supply => exact ⟨c.power.linkLost, setFieldOf c.power.supplyOut p p 1, rfl⟩
  | other =>
    by_cases h : p ≤ 1
    · exact ⟨c.power.linkLost, setFieldOf c.power.supplyOut p p 1, if_pos h⟩
    · exact ⟨c.power.linkLost, c.power.supplyOut, if_neg h⟩

/-- A marked cause and a fence: what the fence alone brings about. -/
theorem markedFence_fences (c : Chip) (p : Nat) (k : PortCause) : Fences c ((c.markCause p k).fencePort p) p := by
  have hf := fencePort_fences (c.markCause p k) p
  obtain ⟨x, y, hm⟩ := markCause_eq c p k
  rw [hm] at hf ⊢
  exact ⟨hf.fenced, hf.due, hf.cls, hf.works, hf.recd, hf.reg, hf.field, hf.sense⟩

/-- Port p is fenced for one fault more, and classes and works go on. -/
def FencedBy (c d : Chip) (p : Nat) : Prop :=
  d.portFenced p = true ∧ d.rd 0x2100 0x05 = (c.rd 0x2100 0x05 + 1) % 2 ^ 48 ∧ d.power.fencesDue.testBit p = false ∧ (∀ n, d.cl n = c.cl n) ∧
  d.works = c.works ∧ (p = 0 → d.field.linkUp = false ∧ d.rd 0x2800 0x01 = 3) ∧ (p = 1 → d.meas.senseLost = true)

theorem FencedBy.of_eq {b c d : Chip} {p : Nat} (h : FencedBy c d p) (hc : c.cls = b.cls) (hw : c.works = b.works)
    (h5 : c.rd 0x2100 0x05 = b.rd 0x2100 0x05) : FencedBy b d p := by
  obtain ⟨hf, hr, hd, hcl, hwk, h0, h1⟩ := h
  exact ⟨hf, by rw [hr, h5], hd, fun n => (hcl n).trans (congrArg (nth Cls.reset · n) hc), hwk.trans hw, h0, h1⟩

/-- The fault counted and recorded, before its port is fenced. -/
def Chip.dieFaultFound (c : Chip) (unit : Nat) : Chip := (c.bump 0x2100 0x05).event 0x0113 sevMajor 0 unit []

theorem rd_dieFaultFound (c : Chip) (unit : Nat) : (c.dieFaultFound unit).rd 0x2100 0x05 = (c.rd 0x2100 0x05 + 1) % 2 ^ 48 :=
  (Chip.rd_of_reg (Chip.reg_event _ _ _ _ _ _ (by omega))).trans (Chip.rd_wr_same ..)

theorem portFault_eq (c : Chip) (p : Nat) (k : PortCause) (h3 : p ≠ 3) :
    c.portFault p k = ((c.dieFaultFound (dieUnit p)).markCause p k).fencePort p := if_neg h3

theorem portFault_fencedBy (c : Chip) (p : Nat) (k : PortCause) (h3 : p ≠ 3) (hp : p < 16) : FencedBy c (c.portFault p k) p := by
  have hf := markedFence_fences (c.dieFaultFound (dieUnit p)) p k
  rw [portFault_eq c p k h3]
  refine ⟨by rw [hf.fenced p (by omega), if_pos rfl], ?_, by rw [hf.due p, if_pos rfl], fun n => ?_, ?_, hf.field, hf.sense⟩
  · rw [Chip.rd_of_reg (hf.reg _ (by omega) (by omega) (by omega) (by omega)), rd_dieFaultFound]
  · exact congrArg (nth Cls.reset · n) (hf.cls.trans (Chip.event_cls ..))
  · exact hf.works.trans (Chip.event_works ..)

theorem portsFault_fencedBy (c : Chip) (unit : Nat) (k : PortCause) (l : List Nat) (p : Nat) (hp : p ∈ l) (hl : ∀ q ∈ l, q < 16)
    (h0 : 0 ∉ l) (h1 : 1 ∉ l) : FencedBy c (c.portsFault unit k l) p := by
  let fences (d : Chip) : Chip := l.foldl (fun c p => (c.markCause p k).fencePort p) d
  have hkeep : (fences c).cls = c.cls ∧ (fences c).works = c.works ∧ (fences c).reg (0x2100 * 256 + 5) = c.reg (0x2100 * 256 + 5) := by
    refine foldl_invariant (A := fun d => d.cls = c.cls ∧ d.works = c.works ∧ d.reg (0x2100 * 256 + 5) = c.reg (0x2100 * 256 + 5))
      (fun d q _ hd => ?_) c ⟨rfl, rfl, rfl⟩
    have hf := markedFence_fences d q k
    exact ⟨hf.cls.trans hd.1, hf.works.trans hd.2.1, (hf.reg _ (by omega) (by omega) (by omega) (by omega)).trans hd.2.2⟩
  have hfence : (fences c).portFenced p = true ∧ (fences c).power.fencesDue.testBit p = false := by
    refine foldl_brings (A := fun _ => True) (P := fun d => d.portFenced p = true ∧ d.power.fencesDue.testBit p = false) hp
      (fun _ _ _ => trivial) (fun d _ => ?_) (fun d q _ hd => ?_) c trivial
    · have hf := markedFence_fences d p k
      have hp16 := hl p hp
      exact ⟨by rw [hf.fenced p (by omega), if_pos rfl], by rw [hf.due p, if_pos rfl]⟩
    · have hf := markedFence_fences d q k
      have hp16 := hl p hp
      rw [hf.fenced p (by omega), hf.due p]
      split
      · exact ⟨rfl, rfl⟩
      · exact hd
  have hd : c.portsFault unit k l = (fences c).dieFaultFound unit := rfl
  obtain ⟨hc, hw, h5⟩ := hkeep
  rw [hd]
  refine ⟨?_, ?_, ?_, fun n => ?_, ?_, fun h => absurd (h ▸ hp) h0, fun h => absurd (h ▸ hp) h1⟩
  · exact (Chip.bit_of_reg p ((Chip.reg_event _ _ _ _ _ _ (by omega)).trans (Chip.reg_bump _ _ _ (by omega)))).trans hfence.1
  · rw [rd_dieFaultFound, Chip.rd_of_reg h5]
  · rw [Chip.dieFaultFound, Chip.event_power]
    exact hfence.2
  · exact congrArg (nth Cls.reset · n) ((Chip.event_cls ..).trans hc)
  · exact (Chip.event_works ..).trans hw

/-- A lost field link leaves classes, works and the count of faults (R278). -/
theorem dropParallel_keeps (c : Chip) : c.dropParallel.cls = c.cls ∧ c.dropParallel.works = c.works ∧
    c.dropParallel.reg (0x2100 * 256 + 5) = c.reg (0x2100 * 256 + 5) := by
  refine foldl_invariant (A := fun d => d.cls = c.cls ∧ d.works = c.works ∧ d.reg (0x2100 * 256 + 5) = c.reg (0x2100 * 256 + 5))
    (fun d o _ hd => ?_) c ⟨rfl, rfl, rfl⟩
  obtain ⟨⟨r, q, a, v, t, n, he⟩, hr⟩ := changesAos_driveAo d o 0 false
  have hreg := hr (0x2100 * 256 + 5) (by omega) (by omega)
  refine ⟨?_, ?_, hreg.trans hd.2.2⟩
  · exact (congrArg Chip.cls he).trans hd.1
  · exact (congrArg Chip.works he).trans hd.2.1

end Sys2Proof.Machine
end

section
namespace Sys2Proof.Machine

/-! ### The registers that a write of the flash leaves (R347-R361)

The flash controller writes the registers of the parameter store (0x2D00) and of the recorder (0x2B00) alone; those of the supplies
lie beyond. -/

section
variable {k : Nat} (hk : 0x2E00 * 256 ≤ k) (c : Chip)

theorem reg_modStoreAt (ident : Bool) (f : Store → Store) : (c.modStoreAt ident f).reg k = c.reg k := by
  unfold Chip.modStoreAt
  split <;> rfl

theorem reg_openSpace {ident half : Bool} {n i off : Nat} {d : Chip} (h : c.openSpace ident half n = some (d, i, off)) :
    d.reg k = c.reg k := by
  simp only [Chip.openSpace] at h
  split at h
  · cases h
    exact reg_modStoreAt c ident _
  · cases h

theorem reg_putCopy (ident half : Bool) (i off : Nat) (bs : List Byte) (cut : Option (Bool × Nat)) :
    (c.putCopy ident half i off bs cut).reg k = c.reg k := by
  simp only [Chip.putCopy]
  split
  · rfl
  · exact reg_modStoreAt _ ident _

theorem reg_addRecord (ident : Bool) (r : PRec) : (c.addRecord ident r).reg k = c.reg k := reg_modStoreAt c ident _

theorem reg_openSlot {cut : Option Nat} {i j : Nat} {d : Chip} (h : c.openSlot cut = some (d, i, j)) : d.reg k = c.reg k := by
  unfold Chip.openSlot at h
  split at h
  · cases h
    rfl
  · cases h

theorem reg_placeRecord {r : EvRec} {d : Chip} (h : c.placeRecord r = some d) : d.reg k = c.reg k := by
  unfold Chip.placeRecord at h
  split at h
  · next ho =>
    cases h
    have hr := reg_openSlot (k := k) c ho
    exact hr
  · cases h

theorem reg_recopy {ident half : Bool} {r : PRec} {cut : Option (Bool × Nat)} {d : Chip} (h : c.recopy ident half r cut = some d) :
    d.reg k = c.reg k := by
  simp only [Chip.recopy] at h
  split at h
  · next ho =>
    cases h
    split
    · exact (reg_putCopy _ ident half _ _ _ cut).trans (reg_openSpace c ho)
    · exact (reg_modStoreAt _ ident _).trans ((reg_putCopy _ ident half _ _ _ cut).trans (reg_openSpace c ho))
  · cases h

theorem reg_getD {o : Option Chip} (h : ∀ d, o = some d → d.reg k = c.reg k) : (o.getD c).reg k = c.reg k := by
  cases o with
  | none => rfl
  | some d => exact h d rfl

theorem reg_planRecorder : c.planRecorder.reg k = c.reg k := by
  simp only [Chip.planRecorder]
  split
  · rfl
  · split <;> rfl

theorem reg_cutHeader (ident half : Bool) (n done : Nat) : (c.cutHeader ident half n done).reg k = c.reg k := by
  simp only [Chip.cutHeader]
  split
  · split
    · exact reg_modStoreAt c ident _
    · rfl
  · rfl

theorem reg_cutSlot (bs : List Byte) (cut : FlashCut) : (c.cutSlot bs cut).reg k = c.reg k := by
  simp only [Chip.cutSlot]
  split
  · next ho =>
    have hr := reg_openSlot (k := k) c ho
    exact hr
  · rfl

theorem reg_cutCapture (done : Nat) : (c.cutCapture done).reg k = c.reg k := by
  simp only [Chip.cutCapture]
  split
  · split
    · split <;> rfl
    · rfl
  · rfl

include hk

theorem reg_countRecord (ident : Bool) : (c.countRecord ident).reg k = c.reg k := by
  unfold Chip.countRecord
  split
  · rfl
  · exact Chip.reg_bump _ _ _ (by omega)

theorem reg_syncStore : c.syncStore.reg k = c.reg k := by
  simp only [Chip.syncStore]
  split
  · refine (Chip.reg_event _ _ _ _ _ _ (by omega)).trans ?_
    exact (Chip.reg_wr _ _ _ _ (by omega)).trans ((Chip.reg_wr _ _ _ _ (by omega)).trans (Chip.reg_wr _ _ _ _ (by omega)))
  · exact (Chip.reg_wr _ _ _ _ (by omega)).trans ((Chip.reg_wr _ _ _ _ (by omega)).trans (Chip.reg_wr _ _ _ _ (by omega)))

theorem reg_putRecord {knd ix sub : Nat} {pay : List Byte} {d : Chip} (h : c.putRecord knd ix sub pay = some d) : d.reg k = c.reg k := by
  simp only [Chip.putRecord] at h
  split at h
  · cases h
  · next c1 i oa h1 =>
    split at h
    · cases h
    · next c2 j ob h2 =>
      cases h
      calc _ = c2.reg k := by
            rw [reg_syncStore hk, reg_countRecord hk, reg_addRecord, reg_putCopy, reg_putCopy]
        _ = c1.reg k := reg_openSpace c1 h2
        _ = c.reg k := reg_openSpace c h1

theorem reg_takeQueued : c.takeQueued.reg k = c.reg k := Chip.reg_wr _ _ _ _ (by omega)

theorem reg_cutRecord (knd ix sub : Nat) (pay : List Byte) (cut : FlashCut) : (c.cutRecord knd ix sub pay cut).1.reg k = c.reg k := by
  simp only [Chip.cutRecord]
  split
  · split
    · next h => exact reg_putRecord hk c h
    · rfl
  · split
    · rfl
    · split
      · rfl
      · next c1 i oa h1 =>
        split
        · exact (reg_modStoreAt _ _ _).trans ((reg_putCopy ..).trans (reg_openSpace c h1))
        · have hone : ∀ r, (((c1.putCopy (isIdent knd) false i oa r none).addRecord (isIdent knd)
              ⟨knd, ix, sub, ((c1.storeAt (isIdent knd)).rsn + 1) % 2 ^ 48, pay, true, false, i, 0, oa, 0⟩).countRecord (isIdent knd)).reg k =
              c.reg k := fun r => by
            rw [reg_countRecord hk, reg_addRecord, reg_putCopy, reg_openSpace c h1]
          split
          · exact hone _
          · split
            · next h2 => exact (reg_putCopy ..).trans ((reg_openSpace _ h2).trans (hone _))
            · exact hone _

theorem reg_makeWay (sev : Nat) : (c.makeWay sev).1.reg k = c.reg k := by
  unfold Chip.makeWay
  split
  · split
    · exact Chip.reg_bump _ _ _ (by omega)
    · rfl
  · rfl
  · rfl

theorem reg_performClear (r : EvRec) (hlt : k < 0x1000000) : (c.performClear r).reg k = c.reg k := by
  simp only [Chip.performClear]
  split
  · exact Chip.reg_wrPair _ _ _ _ (by omega) (by omega)
  · rfl

theorem reg_syncRecorder : c.syncRecorder.reg k = c.reg k := by
  simp only [Chip.syncRecorder]
  exact (Chip.reg_wr _ _ _ _ (by omega)).trans ((Chip.reg_wr _ _ _ _ (by omega)).trans
    ((Chip.reg_wr _ _ _ _ (by omega)).trans (Chip.reg_wr _ _ _ _ (by omega))))

theorem reg_writeEvent (hlt : k < 0x1000000) : c.writeEvent.reg k = c.reg k := by
  simp only [Chip.writeEvent]
  split
  · split
    · rw [reg_syncRecorder hk, reg_planRecorder, reg_performClear hk _ _ hlt]
      refine (reg_getD _ fun d hd => reg_placeRecord _ hd).trans ?_
      exact reg_makeWay hk c _
    · exact (Chip.reg_bump _ _ _ (by omega)).trans (reg_makeWay hk c _)
  · rfl

theorem reg_cutEvent (cut : FlashCut) (hlt : k < 0x1000000) : (c.cutEvent cut).reg k = c.reg k := by
  simp only [Chip.cutEvent]
  split
  · split
    · exact reg_writeEvent hk c hlt
    · split
      · exact (reg_cutSlot ..).trans (reg_makeWay hk c _)
      · rfl
  · rfl

theorem reg_cutVoid (bits : Nat) : (c.cutVoid bits).reg k = c.reg k := by
  simp only [Chip.cutVoid]
  split
  · split
    · split
      · split
        · exact Chip.reg_bump _ _ _ (by omega)
        · rfl
      · rfl
    · rfl
  · rfl

theorem reg_retire (area : FlashArea) (i : Nat) (cut : Option Nat) : (c.retire area i cut).reg k = c.reg k := by
  simp only [Chip.retire]
  split
  · rfl
  · split
    · split
      · exact reg_modStoreAt _ _ _
      · exact (Chip.reg_bump _ _ _ (by omega)).trans (reg_modStoreAt _ _ _)
    · rfl

theorem reg_doItem {w : FlashWork} {d : Chip} (h : c.doItem w = some d) : d.reg k = c.reg k := by
  cases w with
  | copy area rsn =>
    simp only [Chip.doItem] at h
    split at h
    · split at h
      · exact reg_recopy c h
      · cases h; rfl
    · cases h; rfl
  | repair ident rsn =>
    simp only [Chip.doItem] at h
    split at h
    · obtain ⟨c1, h1, rfl⟩ := Option.map_eq_some_iff.mp h
      exact (Chip.reg_event _ _ _ _ _ _ (by omega)).trans ((Chip.reg_bump _ _ _ (by omega)).trans (reg_recopy c h1))
    · cases h; rfl
  | slot seq =>
    simp only [Chip.doItem] at h
    split at h
    · exact reg_placeRecord c h
    · cases h; rfl
  | retire area i =>
    simp only [Chip.doItem] at h
    split at h
    · cases h
    · cases h
      exact reg_retire hk c area i none

theorem reg_doAll (l : List FlashWork) : (c.doAll l).reg k = c.reg k := by
  refine foldl_keeps (fun d => d.reg k) (fun d w _ => ?_) _
  split
  · next h => exact reg_doItem hk d h
  · rfl

theorem reg_cutWork (n : Nat) (cut : FlashCut) : (c.cutWork n cut).reg k = c.reg k := by
  simp only [Chip.cutWork]
  have hdone := reg_doAll hk c (c.die.work.take n)
  refine Eq.trans ?_ hdone
  split
  · split
    · split
      · exact reg_getD _ fun d hd => reg_recopy _ hd
      · rfl
    · rfl
  · split
    · exact reg_getD _ fun d hd => reg_recopy _ hd
    · rfl
  · split
    · split
      · exact reg_getD _ fun d hd => reg_placeRecord _ hd
      · exact reg_cutSlot ..
    · rfl
  · exact reg_retire hk _ _ _ _
  · rfl

theorem reg_cutWrite (cut : Option (FlashWrite × FlashCut)) (hlt : k < 0x1000000) : (c.cutWrite cut).reg k = c.reg k := by
  unfold Chip.cutWrite
  split
  · exact reg_cutEvent hk c _ hlt
  · exact reg_cutVoid hk c _
  · exact reg_cutCapture c _
  · exact reg_cutWork hk c _ _
  · split
    · simp only
      split
      · exact (reg_takeQueued hk _).trans (reg_cutRecord hk c _ _ _ _ _)
      · exact reg_cutRecord hk c _ _ _ _ _
    · rfl
  · split
    · exact reg_cutHeader c _ _ _ _
    · rfl
  · rfl

theorem reg_eraseSector (area : FlashArea) (i : Nat) : (c.eraseSector area i).reg k = c.reg k := by
  simp only [Chip.eraseSector]
  split
  · exact (reg_syncStore hk _).trans (reg_modStoreAt _ _ _)
  · rfl

theorem reg_cutErase (e : Option (FlashArea × Fin 128 × Bool)) : (c.cutErase e).reg k = c.reg k := by
  simp only [Chip.cutErase]
  split
  · split
    · split
      · exact reg_eraseSector hk c _ _
      · split
        · exact reg_modStoreAt _ _ _
        · rfl
    · rfl
  · rfl

/-- A flash die that loses its supply leaves the registers beyond those of the store. -/
theorem reg_flashLost (cut : Option (FlashWrite × FlashCut)) (e : Option (FlashArea × Fin 128 × Bool)) (hlt : k < 0x1000000) :
    (c.flashLost cut e).reg k = c.reg k := by
  have hcut : (if c.flashOn then c.cutWrite cut else c).reg k = c.reg k := by
    split
    · exact reg_cutWrite hk c cut hlt
    · rfl
  have herase : ∀ d : Chip, (if d.flashSupplied then d.cutErase e else d).reg k = d.reg k := fun d => by
    split
    · exact reg_cutErase hk d e
    · rfl
  exact (reg_syncRecorder hk _).trans ((herase _).trans hcut)

end

/-- No event record waits at a flash die that has lost its supply (R358). -/
theorem queue_flashLost (c : Chip) (cut : Option (FlashWrite × FlashCut)) (e : Option (FlashArea × Fin 128 × Bool)) :
    (c.flashLost cut e).recd.queue = [] := rfl

end Sys2Proof.Machine
end

section
namespace Sys2Proof.Machine

/-! ### The end of a fence (R35, R440) -/

/-- What stands of the fences: their bits, the power's state, and the field link. -/
def Chip.fenceState (c : Chip) : Word × Power × Bool := (c.reg (0x2100 * 256 + 3), c.power, c.field.linkUp)

theorem fenceState_congr {c d : Chip} (hr : d.reg (0x2100 * 256 + 3) = c.reg (0x2100 * 256 + 3)) (hp : d.power = c.power)
    (hl : d.field.linkUp = c.field.linkUp) : d.fenceState = c.fenceState := by
  rw [Chip.fenceState, Chip.fenceState, hr, hp, hl]

section
variable (c : Chip)

theorem fenceState_wr (ix sub v : Nat) (h : ix * 256 + sub ≠ 0x2100 * 256 + 3) : (c.wr ix sub v).fenceState = c.fenceState :=
  fenceState_congr (Chip.reg_wr _ _ _ _ h.symm) rfl rfl

theorem fenceState_wrPair (ix sub : Nat) (p : TimePair) (h : 0x2100 * 256 + 3 ≠ ix * 256 + sub)
    (h1 : 0x2100 * 256 + 3 ≠ 0x1000000 + ix * 256 + sub) : (c.wrPair ix sub p).fenceState = c.fenceState :=
  fenceState_congr (Chip.reg_wrPair _ _ _ _ h h1) rfl rfl

theorem fenceState_modPair (f : Pair → Pair) : (c.modPair f).fenceState = c.fenceState := rfl

theorem fenceState_eventAs (t : Instant) (code sev : Nat) (fin : Bool) (src unit org csn : Nat) (dtl : List Byte) :
    (c.eventAs t code sev fin src unit org csn dtl).fenceState = c.fenceState :=
  fenceState_congr (Chip.reg_eventAs _ _ _ _ _ _ _ _ _ _ (by omega)) (Chip.eventAs_power ..) (by rw [Chip.eventAs_field])

theorem fenceState_pushItem (i : Item) : (c.pushItem i).fenceState = c.fenceState := by
  unfold Chip.pushItem Chip.pushFrom
  split <;> rfl

theorem fenceState_pushField (i : Item) : (c.pushField i).fenceState = c.fenceState := by
  unfold Chip.pushField
  split
  · exact fenceState_pushItem c i
  · rfl

theorem fenceState_releaseNotes : c.releaseNotes.fenceState = c.fenceState :=
  (foldl_keeps Chip.fenceState (fun d n _ => fenceState_eventAs d d.now (n.1 / 2048) (n.1 / 128 % 16) (n.1 / 64 % 2 == 1) 5 (n.1 % 64) 0 0 [])
    (c.modField (fun f => { f with notes := [] }))).trans rfl

theorem fenceState_pushRecord (d : Nat) (t : Instant) : (c.pushRecord d t).fenceState = c.fenceState := by
  simp only [Chip.pushRecord]
  split
  · exact (fenceState_pushItem _ _).trans (fenceState_pushItem _ _)
  · rfl

theorem fenceState_pushLatch (d : Nat) (l : Instant × Nat × BitVec 32 × Nat) : (c.pushLatch d l).fenceState = c.fenceState := by
  simp only [Chip.pushLatch]
  split
  · rw [fenceState_pushItem, fenceState_pushItem, fenceState_wr _ _ _ _ (by omega), fenceState_wr _ _ _ _ (by omega)]
  · rfl

theorem fenceState_pushConversion (a : Nat) (x : Instant × Word × Nat) : (c.pushConversion a x).fenceState = c.fenceState := by
  unfold Chip.pushConversion
  split
  · rw [fenceState_pushItem, fenceState_wr _ _ _ _ (by omega)]
  · rfl

end

/-- The field port as it opens: the link is up, before the die's state is read. -/
def Chip.fieldLinked (c : Chip) (t : Instant) (reset : Bool) : Chip :=
  (c.modField (fun f => { f with
    linkUp := true, events := [], discAt := if reset then t else f.discAt, deliver := if reset then allOutputs else f.deliver })).wr 0x2800 0x01 2

/-- A field die in reset stays behind its closed port; else the port opens, and the fences stand as they do. -/
theorem fenceState_openField (c : Chip) (t : Instant) : (c.openField t).fenceState =
    (c.reg (0x2100 * 256 + 3), c.power, if c.field.inReset then c.field.linkUp else true) := by
  simp only [Chip.openField]
  split
  · exact fenceState_wr _ _ _ _ (by omega)
  · generalize (match c.field.resetAt with | some r => decide (c.field.discAt ≤ r) | none => false) = reset
    have hlinked : (c.fieldLinked t reset).fenceState = (c.reg (0x2100 * 256 + 3), c.power, true) := fenceState_wr _ _ _ _ (by omega)
    refine Eq.trans ?_ hlinked
    refine (fenceState_pushField _ _).trans ?_
    refine (foldl_keeps Chip.fenceState (fun d a _ => foldl_keeps Chip.fenceState (fun d x _ => fenceState_pushConversion d a x) d) _).trans ?_
    refine (foldl_keeps Chip.fenceState (fun d i _ => foldl_keeps Chip.fenceState (fun d l _ => fenceState_pushLatch d i l) d) _).trans ?_
    refine (fenceState_pushField _ _).trans ?_
    refine (foldl_keeps Chip.fenceState (fun d i _ => ?_) _).trans ?_
    · split
      · split
        · exact fenceState_pushRecord ..
        · rfl
      · rfl
    refine (foldl_keeps Chip.fenceState (fun d x _ => fenceState_eventAs d ..) _).trans ?_
    exact fenceState_releaseNotes _

/-! ### The Onbex port opens (R176, Table 06-2) -/

section
variable (c : Chip)

theorem fenceState_settleWires (l : List Nat) : (c.forAll l (fun c k => c.settleWire k c.now)).fenceState = c.fenceState := by
  refine foldl_keeps Chip.fenceState (fun d k _ => ?_) c
  obtain ⟨free, can, h⟩ := settleWire_eq d k d.now
  rw [h]
  rfl

theorem fenceState_syncCan (k : Nat) : (c.syncCan k).fenceState = c.fenceState := by
  obtain ⟨⟨regs, can, h⟩, hr⟩ := syncCan_changes c k
  exact fenceState_congr (hr _ (by omega)) (by rw [h]) (by rw [h])

theorem fenceState_send (f : OnbexOut) : (c.send f).fenceState = c.fenceState := by
  unfold Chip.send
  split <;> rfl

theorem fenceState_abortUpdate (t reason : Nat) : (c.abortUpdate t reason).fenceState = c.fenceState := by
  simp only [Chip.abortUpdate, Chip.setBankState, Chip.setFld]
  refine (fenceState_wr _ _ _ _ (by omega)).trans ?_
  rw [fenceState_wr _ _ _ _ (by omega), fenceState_wr _ _ _ _ (by omega), fenceState_wr _ _ _ _ (by omega)]

theorem fenceState_abortUpdates (reason : Nat) : (c.abortUpdates reason).fenceState = c.fenceState := by
  refine foldl_keeps Chip.fenceState (fun d t _ => ?_) c
  simp only
  split
  · exact fenceState_abortUpdate ..
  · rfl

theorem fenceState_toState (n st : Nat) (hn : n < 16) : (c.toState n st).fenceState = c.fenceState := by
  obtain ⟨regs, wd, h⟩ := toState_eq c n st
  exact fenceState_congr (reg_toState c n st hn (by omega) (by omega) (by omega)) (by rw [h]) (by rw [h])

theorem fenceState_restClasses : c.restClasses.fenceState = c.fenceState := by
  refine foldl_keeps Chip.fenceState (fun d n hn => ?_) c
  obtain ⟨ws, hw⟩ := forAll_restWork_eq d (clsTeam (d.cl n))
  simp only [hw]
  split
  · exact fenceState_toState _ n _ (List.mem_range.mp hn)
  · rfl

theorem ChangesAos.fenceState {c d : Chip} (h : ChangesAos c d) : d.fenceState = c.fenceState := by
  obtain ⟨⟨r, q, a, v, t, n, rfl⟩, hr⟩ := h
  exact fenceState_congr (hr _ (by omega) (by omega)) rfl rfl

theorem ChangesDos.fenceState {c d : Chip} (h : ChangesDos c d) : d.fenceState = c.fenceState := by
  obtain ⟨x, y, rfl⟩ := h
  rfl

theorem fenceState_releaseOutputs : c.releaseOutputs.fenceState = c.fenceState := by
  simp only [Chip.releaseOutputs]
  split
  · refine (foldl_keeps Chip.fenceState (fun d o _ => ?_) _).trans (foldl_keeps Chip.fenceState (fun d n _ => ?_) _)
    · exact ((changesAos_modAo ..).trans (changesAos_applyAo ..)).fenceState
    · exact ((changesDos_modDo ..).trans (changesDos_forceDo ..)).fenceState
  · rfl

theorem fenceState_setTb (st : Nat) : (c.setTb st).fenceState = c.fenceState := fenceState_wr _ _ _ _ (by omega)

theorem fenceState_ownTime : c.ownTime.fenceState = c.fenceState := by
  unfold Chip.ownTime
  split
  · exact fenceState_setTb c 2
  · exact (fenceState_wr _ _ _ _ (by omega)).trans (fenceState_setTb c 3)

theorem fenceState_ite {p : Prop} [Decidable p] {d e : Chip} (hd : d.fenceState = c.fenceState) (he : e.fenceState = c.fenceState) :
    (if p then d else e).fenceState = c.fenceState := by
  split
  · exact hd
  · exact he

/-- A change of the pair state leaves the fences of the ports. -/
theorem fenceState_setPair (st cause : Nat) : (c.setPair st cause).fenceState = c.fenceState := by
  simp only [Chip.setPair]
  refine (fenceState_ite _ (fenceState_send _ _) (fenceState_ite _ (fenceState_send _ _) rfl)).trans ?_
  refine (foldl_keeps Chip.fenceState (fun d k _ => fenceState_syncCan d k) _).trans ?_
  refine (fenceState_ite _ (fenceState_setTb _ _) (fenceState_ite _ (fenceState_ite _ (fenceState_ownTime _) (fenceState_setTb _ _)) rfl)).trans ?_
  refine (fenceState_ite _ rfl ((fenceState_restClasses _).trans (fenceState_releaseOutputs _))).trans ?_
  refine (fenceState_modPair _ _).trans ?_
  refine (fenceState_ite _ rfl ((fenceState_wrPair _ _ _ _ (by omega) (by omega)).trans (fenceState_wr _ _ _ _ (by omega)))).trans ?_
  refine (fenceState_ite _ (fenceState_abortUpdates _ _) rfl).trans ?_
  exact (fenceState_wr _ _ _ _ (by omega)).trans (fenceState_settleWires c _)

theorem fenceState_onbexBack : c.onbexBack.fenceState = c.fenceState := by
  simp only [Chip.onbexBack]
  exact fenceState_ite _ (fenceState_setPair _ _ _) (fenceState_ite _ (fenceState_send _ _) rfl)

end

/-! ### The commands (Table 01-6, Table 01-7) -/

theorem gives_of_onChip {s : State} {i : Instr} {f : Chip → Chip} {c' : Chip} (he : exec i s = s.onChip f) (hf : f s.chip = c') : Gives s i c' := by
  rw [Gives, he, State.onChip, hf]

/-- On a chip that runs, a hardware fault is taken as it is found. -/
theorem gives_hardwareFault (s : State) (t : Instant) (f : HwFault) (hr : s.chip.running = true) :
    Gives s (.hardwareFault t f) ((s.chip.at_ t).hardFault f) :=
  gives_of_onChip (f := fun c => if c.running then (c.at_ t).hardFault f else c) rfl (if_pos hr)

/-- What a fault of one clock does to the chip. -/
def Chip.clockLost (c : Chip) (k : Clock) : Chip :=
  match k with
  | .eclk | .fclk | .kclk | .ref25 => c.coreFault 0
  | .mclk => c.portFault 15 .other
  | .nclk => c.portsFault 0 .other etherBits
  | .cclk => c.portsFault 0 .other canBits
  | .oclk => c.portFault 14 .other
  | .fdclk => c.portFault 0 .other
  | .sdclk => c.portFault 1 .other
  | .pclk | .lfclk => (c.bump 0x2100 0x05).event 0x0113 sevMajor 0 0 []

theorem gives_clockFault (s : State) (t : Instant) (k : Clock) (p : PortBit) (hr : s.chip.running = true) :
    Gives s (.clockFault t k p) ((s.chip.at_ t).clockLost k) :=
  gives_of_onChip (f := fun c => if c.running then (c.at_ t).clockLost k else c) (by cases k <;> rfl) (if_pos hr)

/-- The bit of a die in Table 01-12. -/
def diePort : Die → Nat
  | .field => 0
  | .sense => 1

theorem gives_dieLinkLoss (s : State) (t : Instant) (d : Die) (hr : s.chip.running = true) :
    ∃ c', Gives s (.dieLinkLoss t d) c' ∧ FencedBy s.chip c' (diePort d) := by
  cases d with
  | field =>
    obtain ⟨hc, hw, h5⟩ := dropParallel_keeps (s.chip.at_ t)
    have hf := portFault_fencedBy (s.chip.at_ t).dropParallel 0 .link (by decide) (by decide)
    exact ⟨_, gives_of_onChip rfl (if_pos hr), hf.of_eq hc hw (Chip.rd_of_reg h5)⟩
  | sense =>
    have hf := portFault_fencedBy (s.chip.at_ t) 1 .link (by decide) (by decide)
    exact ⟨_, gives_of_onChip rfl (if_pos hr), hf.of_eq rfl rfl rfl⟩

/-- A die link that is back makes the end of the die's fence due, and no other. -/
theorem gives_dieLinkRegained (s : State) (t : Instant) (d : Die) (hr : s.chip.running = true) (hf : s.chip.portFenced (diePort d) = true) :
    ∃ c', Gives s (.dieLinkRegained t d) c' ∧ c' = { s.chip with now := t, power := c'.power } ∧
      ∀ q, c'.power.fencesDue.testBit q = if q = diePort d then true else s.chip.power.fencesDue.testBit q := by
  refine ⟨(s.chip.at_ t).modPower (fun x => { x with
    fencesDue := setFieldOf x.fencesDue (diePort d) (diePort d) 1, linkLost := setFieldOf x.linkLost (diePort d) (diePort d) 0 }), ?_, rfl,
    fun q => testBit_setFieldOf_bit _ _ _ true⟩
  cases d with
  | field => exact gives_of_onChip rfl (if_pos ⟨hr, hf⟩)
  | sense => exact gives_of_onChip rfl (if_pos ⟨hr, hf⟩)

/-! ### Banks and scrubbing (R15, Table 05-7) -/

theorem canAbdicate_congr {c d : Chip} (h3 : d.reg (0x2400 * 256 + 3) = c.reg (0x2400 * 256 + 3))
    (h4 : d.reg (0x2400 * 256 + 4) = c.reg (0x2400 * 256 + 4)) : d.canAbdicate = c.canAbdicate := by
  have hp : d.pairState = c.pairState := Chip.rd_of_reg h3
  have hq : d.partnerState = c.partnerState := Chip.rd_of_reg h4
  simp only [Chip.canAbdicate, Chip.partnerReady, hp, hq]

/-- The bank fence of position e, before the class with a member there stops. -/
def Chip.bankFenced (c : Chip) (e : Nat) (k : BankKind) : Chip :=
  (((((c.bump 0x2100 0x05).event 0x0111 sevMajor 0 e []).setBit 0x2100 0x02 (12 + e) true).setBit 0x2100 0x02 (e / 4) true).modRegion (e / 8)
    (fun x => { x with banks := (e, k) :: x.banks }))

theorem bankFault_eq (c : Chip) (e : Nat) (k : BankKind) (ha : c.canAbdicate = false) (hb : (e, k) ∉ (c.region (e / 8)).banks) :
    c.bankFault e k = match (c.bankFenced e k).classOf e with
      | some n => (c.bankFenced e k).stopHw n (.bank e k)
      | none => c.bankFenced e k := by
  have hk : ((c.bump 0x2100 0x05).event 0x0111 sevMajor 0 e []).canAbdicate = false := by
    rw [← ha]
    exact canAbdicate_congr ((Chip.reg_event _ _ _ _ _ _ (by omega)).trans (Chip.reg_bump _ _ _ (by omega)))
      ((Chip.reg_event _ _ _ _ _ _ (by omega)).trans (Chip.reg_bump _ _ _ (by omega)))
  simp only [Chip.bankFault, List.contains_iff_mem, if_neg hb, hk, Bool.false_eq_true, if_false]
  rfl

/-- The registers of a bank's fence. -/
theorem bankFenced_regs (c : Chip) (e : Nat) (k : BankKind) (he : e < 32) : (c.bankFenced e k).bit 0x2100 0x02 (12 + e) = true ∧
    (c.bankFenced e k).rd 0x2100 0x05 = (c.rd 0x2100 0x05 + 1) % 2 ^ 48 ∧ (c.bankFenced e k).cls = c.cls ∧
    ∀ n, (c.bankFenced e k).clState n = c.clState n := by
  let d := (c.bump 0x2100 0x05).event 0x0111 sevMajor 0 e []
  have hrd : d.rd 0x2100 0x05 = (c.rd 0x2100 0x05 + 1) % 2 ^ 48 :=
    (Chip.rd_of_reg (Chip.reg_event _ _ _ _ _ _ (by omega))).trans (Chip.rd_wr_same ..)
  have hset : ∀ j, j ≠ 0x2100 * 256 + 2 → (c.bankFenced e k).reg j = d.reg j := fun j hj =>
    (Chip.reg_setBit _ _ _ _ _ hj).trans (Chip.reg_setBit _ _ _ _ _ hj)
  refine ⟨?_, (Chip.rd_of_reg (hset _ (by omega))).trans hrd, Chip.event_cls .., fun n => ?_⟩
  · refine (Chip.bit_setBit _ 0x2100 0x02 (e / 4) (12 + e) true (by omega)).trans ?_
    rw [if_neg (by omega), Chip.bit_setBit _ _ _ _ _ _ (by omega), if_pos rfl]
  · exact Chip.rd_of_reg ((hset _ (by omega)).trans ((Chip.reg_event _ _ _ _ _ _ (by omega)).trans (Chip.reg_bump _ _ _ (by omega))))

/-- A bank of position e is fenced for one fault more, and the class of the position stands stopped. -/
def BankFenced (c d : Chip) (e : Nat) : Prop :=
  d.bit 0x2100 0x02 (12 + e) = true ∧ d.rd 0x2100 0x05 = (c.rd 0x2100 0x05 + 1) % 2 ^ 48 ∧
  ∀ n, c.classOf e = some n → (c.cl n).cfg.isSome = true → c.clState n ≠ csNone → d.clState n = csHwFault

theorem classOf_congr {c d : Chip} (h : d.cls = c.cls) (e : Nat) : d.classOf e = c.classOf e := by simp only [Chip.classOf, Chip.cl, h]

theorem bankFault_fences (c : Chip) (e : Nat) (k : BankKind) (he : e < 32) (ha : c.canAbdicate = false)
    (hb : (e, k) ∉ (c.region (e / 8)).banks) : BankFenced c (c.bankFault e k) e := by
  obtain ⟨hbit, hrd, hcls, hst⟩ := bankFenced_regs c e k he
  rw [bankFault_eq c e k ha hb, classOf_congr hcls]
  cases hn : c.classOf e with
  | none => exact ⟨hbit, hrd, fun n h => by rw [hn] at h; cases h⟩
  | some n =>
    have hlt := classOf_lt hn
    refine ⟨?_, ?_, fun m h hcfg hs => ?_⟩
    · exact (Chip.bit_of_reg _ (reg_stopHw _ n _ hlt (by omega) (by omega))).trans hbit
    · exact (Chip.rd_of_reg (reg_stopHw _ n _ hlt (by omega) (by omega))).trans hrd
    · rw [hn] at h
      cases h
      obtain ⟨g, hg⟩ := Option.isSome_iff_exists.mp hcfg
      have hg' : ((c.bankFenced e k).cl n).cfg = some g := by rw [Chip.cl, hcls]; exact hg
      exact clState_stopHw _ n _ g hg' hlt (by rw [hst]; exact hs)

/-- What a scrubbing read finds does to the chip. -/
def Chip.scrubbed (c : Chip) (a : ScrubAt) (e : Ecc) : Chip :=
  match e with
  | .clean => c
  | .corrected w => (c.scrubWrite a w).bump 0x2100 0x07
  | .uncorrectable => (match a with
    | .iBank p _ => c.bankFault p.val .instr
    | .dBank p _ => c.bankFault p.val .data
    | .region r _ => c.regionFault r.val)

theorem gives_scrub (s : State) (t : Instant) (a : ScrubAt) (e : Ecc) (hr : s.chip.running = true) :
    Gives s (.scrub t a e) (if s.chip.scrubs a then (s.chip.at_ t).scrubbed a e else s.chip) := by
  refine gives_of_onChip (f := fun c => if c.running && c.scrubs a then (c.at_ t).scrubbed a e else c) ?_ ?_
  · cases e <;> rfl
  · simp only [hr, Bool.true_and]

/-- Scrubbing reaches a bank that is not fenced. -/
theorem scrubs_dBank (c : Chip) (e : Fin 32) (a : BitVec 15) :
    c.scrubs (.dBank e a) = true ↔ (e.val, BankKind.data) ∉ (c.region (e.val / 8)).banks := by
  rw [← List.contains_iff_mem, Bool.not_eq_true, ← Bool.not_eq_true']
  rfl
theorem scrubs_iBank (c : Chip) (e : Fin 32) (a : BitVec 14) :
    c.scrubs (.iBank e a) = true ↔ (e.val, BankKind.instr) ∉ (c.region (e.val / 8)).banks := by
  rw [← List.contains_iff_mem, Bool.not_eq_true, ← Bool.not_eq_true']
  rfl

theorem dWord_modDbank_set (c : Chip) (e a k b : Nat) (v : Word) :
    (c.modDbank e (fun m => WMem.set m a v)).dWord k b = if k = e ∧ b = a then v else c.dWord k b := by
  by_cases hk : k = e
  · subst hk
    rw [Chip.dWord, Chip.dbank_modDbank_same]
    by_cases hb : b = a
    · subst hb
      rw [WMem.get_set_same, if_pos ⟨rfl, rfl⟩]
    · rw [WMem.get_set_other _ _ _ _ hb, if_neg fun h => hb h.2]
      rfl
  · rw [Chip.dWord, Chip.dbank_modDbank_other _ _ _ _ hk, if_neg fun h => hk h.1]
    rfl

/-- A corrected word of a data bank is written back and counted. -/
theorem gives_scrubCorrected (s : State) (t : Instant) (e : Fin 32) (a : BitVec 15) (w : Nat) (hr : s.chip.running = true)
    (hb : (e.val, BankKind.data) ∉ (s.chip.region (e.val / 8)).banks) : ∃ c', Gives s (.scrub t (.dBank e a) (.corrected w)) c' ∧
      c' = { s.chip with now := t, regs := c'.regs, dbank := c'.dbank } ∧ c'.rd 0x2100 0x07 = (s.chip.rd 0x2100 0x07 + 1) % 2 ^ 48 ∧
      ∀ k b, c'.dWord k b = if k = e.val ∧ b = a.toNat then toWord w else s.chip.dWord k b := by
  have hg := gives_scrub s t (.dBank e a) (.corrected w) hr
  rw [if_pos ((scrubs_dBank s.chip e _).mpr hb)] at hg
  refine ⟨_, hg, rfl, Chip.rd_wr_same .., fun k b => ?_⟩
  exact dWord_modDbank_set (s.chip.at_ t) e.val a.toNat k b (toWord w)

/-! ### The flash die's supply (R358, R402) -/

theorem gives_flashTrip (s : State) (t : Instant) (cut : Option (FlashWrite × FlashCut)) (er : Option (FlashArea × Fin 128 × Bool))
    (hr : s.chip.running = true) :
    Gives s (.supplyMonitorTrip ⟨t, cut, er⟩ 11) (((s.chip.at_ t).flashLost cut er).portFault 2 .supply) :=
  gives_of_onChip rfl (if_pos hr)

/-- Of the events before the fault of the flash die none is left; its own is the only one that waits. -/
theorem flashFault_keeps (c : Chip) (cut : Option (FlashWrite × FlashCut)) (er : Option (FlashArea × Fin 128 × Bool)) :
    ((c.flashLost cut er).portFault 2 .supply).portFenced 2 = true ∧
    ((c.flashLost cut er).portFault 2 .supply).rd 0x2F00 0x0A = c.rd 0x2F00 0x0A ∧
    ∃ r, ((c.flashLost cut er).portFault 2 .supply).recd.queue = [r] ∧ r.code = 0x0113 ∧ r.unit = 4 := by
  have hf := markedFence_fences ((c.flashLost cut er).dieFaultFound 4) 2 .supply
  have he : (c.flashLost cut er).portFault 2 .supply = ((((c.flashLost cut er).dieFaultFound 4).markCause 2 .supply).fencePort 2) :=
    portFault_eq _ 2 .supply (by decide)
  have hq : ((c.flashLost cut er).bump 0x2100 0x05).recd.queue = [] := queue_flashLost c cut er
  rw [he]
  refine ⟨by rw [hf.fenced 2 (by decide), if_pos rfl], Chip.rd_of_reg ?_, ?_⟩
  · refine (hf.reg _ (by omega) (by omega) (by omega) (by omega)).trans ?_
    refine (Chip.reg_event _ _ _ _ _ _ (by omega)).trans ((Chip.reg_bump _ _ _ (by omega)).trans ?_)
    exact reg_flashLost (by omega) c cut er (by omega)
  · rw [hf.recd, Chip.dieFaultFound, Chip.event, queue_eventAs _ _ _ _ _ _ _ _ _ _ (by rw [hq]; decide), hq]
    exact ⟨_, rfl, rfl, rfl⟩

/-! ### FENCE_END -/

/-- The bit of port p clears, and the end of its fence is due no more. -/
def Chip.fenceLifted (c : Chip) (t : Instant) (p : Nat) : Chip :=
  ((c.at_ t).setBit 0x2100 0x03 p false).modPower
    (fun x => { x with fencesDue := setFieldOf x.fencesDue p p 0, supplyOut := setFieldOf x.supplyOut p p 0 })

/-- What stands behind port p begins again. -/
def Chip.dieBack (c : Chip) (t : Instant) (p : Nat) : Chip :=
  if p = 0 then c.openField t
  else if p = 1 then c.modMeas (fun m => { m with senseLost := false, chans := m.chans.map (fun x => { x with recent := [] }) })
  else if p = 15 then c.modMeas (fun m => { m with
    chans := m.chans.map (fun x => { x with recent := [] }),
    sets := m.sets.map (fun x => { x with n0 := none, len := 0, samples := [], hist := [], fresh := true }) }) else c

/-- The CAN or Onbex port opens. -/
def Chip.portBack (c : Chip) (p : Nat) : Chip :=
  if 10 ≤ p ∧ p < 14 then c.syncCan (p - 10) else if p = 14 ∧ c.bit 0x2400 0x0A 0 = true then c.onbexBack else c

/-- The instant is a muster boundary of every running class that uses port p. -/
def Chip.usersReleased (c : Chip) (t : Instant) (p : Nat) : Bool :=
  ((List.range 16).filter (fun n => isBusy (c.clState n) && c.usesPort n p)).all (fun n => match (c.cl n).cfg with
    | some g => cfgReleased g (tickNo t)
    | none => true)

theorem usersReleased_of {c : Chip} {t : Instant} {p : Nat} (h : ∀ n, n < 16 → isBusy (c.clState n) = true → c.usesPort n p = true →
    ∀ g, (c.cl n).cfg = some g → cfgReleased g (tickNo t) = true) : c.usersReleased t p = true := by
  refine List.all_eq_true.mpr fun n hn => ?_
  obtain ⟨hr, hu⟩ := List.mem_filter.mp hn
  obtain ⟨hbusy, huse⟩ := Bool.and_eq_true_iff.mp hu
  split
  · next g hg => exact h n (List.mem_range.mp hr) hbusy huse g hg
  · rfl

theorem gives_fenceEnd (s : State) (t : Instant) (p : PortBit) (ht : isTick t = true) (hf : s.chip.portFenced p.val = true)
    (hd : s.chip.power.fencesDue.testBit p.val = true) (hu : s.chip.usersReleased t p.val = true) :
    Gives s (.fenceEnd t p) (((s.chip.fenceLifted t p.val).dieBack t p.val).portBack p.val) :=
  gives_of_onChip rfl (if_pos ⟨hd, hf, ht, hu⟩)

theorem fenceState_portBack (c : Chip) (p : Nat) : (c.portBack p).fenceState = c.fenceState := by
  unfold Chip.portBack
  split
  · exact fenceState_syncCan ..
  · split
    · exact fenceState_onbexBack c
    · rfl

/-- A die that begins again leaves the bits of the fences; the field link is up where the die is not in reset. -/
theorem fenceState_dieBack (c : Chip) (t : Instant) (p : Nat) : (c.dieBack t p).fenceState =
    (c.reg (0x2100 * 256 + 3), c.power, if p = 0 ∧ c.field.inReset = false then true else c.field.linkUp) := by
  unfold Chip.dieBack
  by_cases h0 : p = 0
  · rw [if_pos h0, fenceState_openField]
    cases hr : c.field.inReset <;> simp [h0]
  · rw [if_neg h0]
    split
    · simp [Chip.fenceState, h0, Chip.reg]
    · split <;> simp [Chip.fenceState, h0, Chip.reg]

theorem fenceLifted_bits (c : Chip) (t : Instant) (p : Nat) (hp : p < 48) : (c.fenceLifted t p).portFenced p = false ∧
    (c.fenceLifted t p).power.fencesDue.testBit p = false :=
  ⟨(Chip.bit_setBit _ 0x2100 0x03 p p false hp).trans (if_pos rfl), (testBit_setFieldOf_bit _ _ _ false).trans (if_pos rfl)⟩

/-- After the end of a fence the port is open. -/
theorem fenceEnd_opens (c : Chip) (t : Instant) (p : Nat) (hp : p < 48) :
    let d := ((c.fenceLifted t p).dieBack t p).portBack p
    d.portFenced p = false ∧ d.power.fencesDue.testBit p = false ∧ (p = 0 → c.field.inReset = false → d.field.linkUp = true) ∧
    (p = 1 → d.meas.senseLost = false) := by
  obtain ⟨hf, hd⟩ := fenceLifted_bits c t p hp
  have hs := (fenceState_portBack ((c.fenceLifted t p).dieBack t p) p).trans (fenceState_dieBack (c.fenceLifted t p) t p)
  simp only [Chip.fenceState, Prod.mk.injEq] at hs
  obtain ⟨hreg, hpow, hlink⟩ := hs
  refine ⟨(Chip.bit_of_reg p hreg).trans hf, by rw [hpow]; exact hd, fun h0 hr => ?_, fun h1 => ?_⟩
  · rw [hlink]
    exact if_pos ⟨h0, hr⟩
  · subst h1
    rfl

/-- Settles O25: a fault of a die or port is counted, recorded and fences it; of a bank, it also stops the class; scrubbing writes back what it
corrects; and an ended fence opens its port. -/
theorem hardwareFaultsFenceTheirFunction : Obligations.HardwareFaultsFenceTheirFunction := by
  unfold Obligations.HardwareFaultsFenceTheirFunction
  intro s t hr
  refine ⟨fun p h3 => ⟨?_, fun h4 h10 => ?_, fun h10 h14 => ?_, ?_, ?_, ?_, ?_⟩, ?_, ?_, fun e ha hb => ?_, fun a => ⟨fun hs => ?_, fun hs x => ?_⟩,
    fun e a w => gives_scrubCorrected s t e a w hr, fun d cut er hd => ?_, fun p ht hf hd hu => ?_⟩
  · exact ⟨_, gives_hardwareFault s t (.port p) hr, portFault_fencedBy (s.chip.at_ t) p.val .other h3 p.isLt⟩
  · exact ⟨_, gives_clockFault s t .nclk p hr, portsFault_fencedBy (s.chip.at_ t) 0 .other etherBits p.val
      (by simp only [etherBits, List.mem_cons, List.not_mem_nil]; omega) (by decide) (by decide) (by decide)⟩
  · exact ⟨_, gives_clockFault s t .cclk p hr, portsFault_fencedBy (s.chip.at_ t) 0 .other canBits p.val
      (by simp only [canBits, List.mem_cons, List.not_mem_nil]; omega) (by decide) (by decide) (by decide)⟩
  · exact fun _ => ⟨_, gives_clockFault s t .mclk p hr, portFault_fencedBy (s.chip.at_ t) 15 .other (by decide) (by decide)⟩
  · exact fun _ => ⟨_, gives_clockFault s t .oclk p hr, portFault_fencedBy (s.chip.at_ t) 14 .other (by decide) (by decide)⟩
  · exact fun _ => ⟨_, gives_clockFault s t .fdclk p hr, portFault_fencedBy (s.chip.at_ t) 0 .other (by decide) (by decide)⟩
  · exact fun _ => ⟨_, gives_clockFault s t .sdclk p hr, portFault_fencedBy (s.chip.at_ t) 1 .other (by decide) (by decide)⟩
  · intro d
    cases d with
    | field => exact gives_dieLinkLoss s t .field hr
    | sense => exact gives_dieLinkLoss s t .sense hr
  · intro d hf
    cases d with
    | field =>
      obtain ⟨c', hg, hc, hb⟩ := gives_dieLinkRegained s t .field hr hf
      exact ⟨c', hg, hc, hb 0, fun q hq => (hb q).trans (if_neg hq)⟩
    | sense =>
      obtain ⟨c', hg, hc, hb⟩ := gives_dieLinkRegained s t .sense hr hf
      exact ⟨c', hg, hc, hb 1, fun q hq => (hb q).trans (if_neg hq)⟩
  · have hbank : ∀ k, BankFenced s.chip ((s.chip.at_ t).bankFault e.val k) e.val := fun k =>
      bankFault_fences (s.chip.at_ t) e.val k e.isLt ha (hb k)
    have hscrub : ∀ a, s.chip.scrubs a = true → Gives s (.scrub t a .uncorrectable) ((s.chip.at_ t).scrubbed a .uncorrectable) := fun a hs => by
      have hg := gives_scrub s t a .uncorrectable hr
      rwa [if_pos hs] at hg
    simp only [List.forall_mem_cons]
    exact ⟨⟨_, gives_hardwareFault s t (.iBank e) hr, hbank .instr⟩, ⟨_, gives_hardwareFault s t (.dBank e) hr, hbank .data⟩,
      ⟨_, gives_hardwareFault s t (.undoBuffer e) hr, hbank .undo⟩, ⟨_, hscrub _ ((scrubs_iBank s.chip e 0).mpr (hb .instr)), hbank .instr⟩,
      ⟨_, hscrub _ ((scrubs_dBank s.chip e 0).mpr (hb .data)), hbank .data⟩, fun i hi => absurd hi List.not_mem_nil⟩
  · have hg := gives_scrub s t a .clean hr
    rwa [if_pos hs] at hg
  · have hg := gives_scrub s t a x hr
    rwa [if_neg (by rw [hs]; decide)] at hg
  · obtain rfl : d = 11 := Fin.ext hd
    exact ⟨_, gives_flashTrip s t cut er hr, flashFault_keeps (s.chip.at_ t) cut er⟩
  · obtain ⟨hopen, hdue, hlink, hsense⟩ := fenceEnd_opens s.chip t p.val (by omega)
    exact ⟨_, gives_fenceEnd s t p ht hf hd (usersReleased_of hu), hopen, hdue, fun h0 => hlink (congrArg Fin.val h0),
      fun h1 => hsense (congrArg Fin.val h1)⟩

end Sys2Proof.Machine
end

section
namespace Sys2Proof.Machine

/-! ### The form of a work (R83, R84, R91, R103) -/

/-- What `EnginesFormed` asks of one work. -/
def WorkFormed (w : Work) : Prop :=
  WMem.wf w.arch.g = true ∧ NMem.wf w.flags = true ∧ w.arch.rung.length ≤ 16 ∧ w.arch.ret.length ≤ 8 ∧ w.arch.loops.length ≤ 2 ∧ w.delay ≤ 2

theorem workFormed_reset : WorkFormed Work.reset := by unfold WorkFormed; decide

/-- The form looks at registers, flags, stacks and delay bundles alone. -/
theorem WorkFormed.congr {w w' : Work} (h : WorkFormed w) (ha : w'.arch = w.arch) (hf : w'.flags = w.flags) (hd : w'.delay = w.delay) :
    WorkFormed w' := by
  unfold WorkFormed
  rw [ha, hf, hd]
  exact h

theorem WorkFormed.setFlag {w : Work} (h : WorkFormed w) (ev v : Nat) : WorkFormed { w with flags := NMem.set w.flags ev v } :=
  ⟨h.1, NMem.wf_set _ _ _ h.2.1, h.2.2⟩

/-- Going round a hardware loop opens no level. -/
theorem length_loopNext (pc : Nat) (l : List LoopLvl) : (loopNext pc l).1.length ≤ l.length := by
  induction l with
  | nil => exact Nat.le_refl 0
  | cons x l ih =>
    unfold loopNext
    split
    · split
      · exact Nat.le_refl _
      · exact Nat.le_succ_of_le ih
    · exact Nat.le_refl _

theorem workFormed_seqPc {w : Work} (h : WorkFormed w) : WorkFormed { w with arch := seqPc w.arch } := by
  obtain ⟨hg, hf, hrung, hret, hloops, hd⟩ := h
  exact ⟨hg, hf, hrung, hret, (length_loopNext _ _).trans hloops, hd⟩

/-- Issue goes on within the stacks' depths: `call` keeps 8 return addresses, `loop` two levels, and a branch opens two delay bundles. -/
theorem workFormed_nextPc {w : Work} (ctl : Option Ctl) (h : WorkFormed w) : WorkFormed (nextPc w ctl) := by
  obtain ⟨hg, hf, hrung, hret, hloops, hd⟩ := workFormed_seqPc h
  have hw := h.2.2
  unfold nextPc
  dsimp only
  split
  · split
    · split
      · exact ⟨hg, hf, hrung, hret, hw.2.2.1, Nat.zero_le _⟩
      · exact ⟨hg, hf, hrung, hret, hloops, (Nat.sub_le _ _).trans hd⟩
    · exact ⟨hg, hf, hrung, hret, hloops, (Nat.sub_le _ _).trans hd⟩
  · split
    · exact ⟨hg, hf, hrung, hret, hloops, Nat.le_refl _⟩
    · exact ⟨hg, hf, hrung, List.length_take_le _ _, hloops, Nat.le_refl _⟩
    · exact ⟨hg, hf, hrung, hret, hloops, Nat.le_refl _⟩
    · exact ⟨hg, hf, hrung, List.length_tail.trans_le ((Nat.sub_le _ _).trans hret), hloops, Nat.le_refl _⟩
    · exact ⟨hg, hf, hrung, hret, hloops, Nat.le_refl _⟩
    · split
      · exact ⟨hg, hf, hrung, hret, hw.2.2.1, hd⟩
      · exact ⟨hg, hf, hrung, hret, List.length_take_le _ _, hd⟩
    · exact ⟨hg, hf, hrung, hret, hloops, hd⟩

/-- What a landing result leaves of the architectural state, the file of general registers staying canonical. -/
theorem landOne_keeps (a : Arch) (f : Flight) : (WMem.wf a.g = true → WMem.wf (landOne a f).g = true) ∧ (landOne a f).rung = a.rung ∧
    (landOne a f).ret = a.ret ∧ (landOne a f).loops = a.loops ∧ (landOne a f).pc = a.pc := by
  unfold landOne
  split
  · exact ⟨WMem.wf_set _ _ _, rfl, rfl, rfl, rfl⟩
  · exact ⟨id, rfl, rfl, rfl, rfl⟩
  · exact ⟨id, rfl, rfl, rfl, rfl⟩

theorem landAll_keeps (l : List Flight) (a : Arch) : (WMem.wf a.g = true → WMem.wf (l.foldl landOne a).g = true) ∧
    (l.foldl landOne a).rung = a.rung ∧ (l.foldl landOne a).ret = a.ret ∧ (l.foldl landOne a).loops = a.loops ∧
    (l.foldl landOne a).pc = a.pc := by
  induction l generalizing a with
  | nil => exact ⟨id, rfl, rfl, rfl, rfl⟩
  | cons f l ih =>
    obtain ⟨hg, hrung, hret, hloops, hpc⟩ := landOne_keeps a f
    obtain ⟨ig, irung, iret, iloops, ipc⟩ := ih (landOne a f)
    exact ⟨ig ∘ hg, irung.trans hrung, iret.trans hret, iloops.trans hloops, ipc.trans hpc⟩

theorem workFormed_land {w : Work} (i : Nat) (h : WorkFormed w) : WorkFormed (land w i) := by
  obtain ⟨hg, hf, hrung, hret, hloops, hd⟩ := h
  obtain ⟨kg, krung, kret, kloops, -⟩ := landAll_keeps ((dueAt w.flights i).filter (fun f => !meets w.flights f)) w.arch
  unfold WorkFormed land
  exact ⟨kg hg, hf, krung ▸ hrung, kret ▸ hret, kloops ▸ hloops, hd⟩

theorem workFormed_nextWork {w : Work} (pcw : Nat) (ctl : Option Ctl) (h : WorkFormed w) : WorkFormed (nextWork w pcw ctl) :=
  workFormed_land _ ((workFormed_nextPc ctl (w := { w with
    arch := { w.arch with sig := Config.sigStep w.arch.sig pcw }, ended := some w.arch.pc }) h).congr rfl rfl rfl)

theorem workFormed_holdMember {w : Work} (h : WorkFormed w) : WorkFormed (holdMember w) := by
  unfold holdMember
  split <;> exact h

theorem workFormed_joinBundle {w : Work} (g legal : Bool) (q : Option Ctl) (r : Except ProgFault Did) (h : WorkFormed w) :
    WorkFormed (joinBundle w g legal q r) := by
  unfold joinBundle
  split
  · exact h
  · split
    · split <;> exact h
    · exact h

/-! ### The form of engines and memories under the updates of the chip -/

/-- What holds of every unit and of a unit at reset, and an update keeps, holds of every unit after it. -/
theorem forall_mem_modNth {α : Type} {P : α → Prop} {d : α} {f : α → α} (hd : P d) (hf : ∀ x, P x → P (f x)) {l : List α}
    (hl : ∀ x ∈ l, P x) (i : Nat) : ∀ x ∈ modNth d f l i, P x := by
  induction i generalizing l with
  | zero => cases l <;> simp_all [modNth]
  | succ i ih =>
    cases l with
    | nil => exact List.forall_mem_cons.mpr ⟨hd, ih hl⟩
    | cons x l => exact List.forall_mem_cons.mpr ⟨(List.forall_mem_cons.mp hl).1, ih (List.forall_mem_cons.mp hl).2⟩

/-- The form looks at the registers, the memories and the works alone. -/
theorem EnginesFormed.congr {c d : Chip} (h : EnginesFormed c) (hr : d.regs = c.regs) (hd : d.dbank = c.dbank) (hi : d.ibank = c.ibank)
    (hg : d.regions = c.regions) (hw : d.works = c.works) : EnginesFormed d := by
  unfold EnginesFormed
  rw [hr, hd, hi, hg, hw]
  exact h

section
variable {c : Chip} (h : EnginesFormed c)
include h

theorem EnginesFormed.modWork (e : Nat) {f : Work → Work} (hf : ∀ w, WorkFormed w → WorkFormed (f w)) : EnginesFormed (c.modWork e f) := by
  obtain ⟨hr, hd, hi, hg, hw⟩ := h
  exact ⟨hr, hd, hi, hg, forall_mem_modNth workFormed_reset hf hw e⟩

theorem EnginesFormed.addUndo (e : Nat) (u : Undo) : EnginesFormed (c.modWork e (fun w => addUndo w u)) := h.modWork e fun _ hw => hw

theorem EnginesFormed.storeD (e a : Nat) (v : Word) : EnginesFormed (c.modDbank e (fun m => WMem.set m a v)) := by
  obtain ⟨hr, hd, hi, hg, hw⟩ := h
  exact ⟨hr, forall_mem_modNth (P := fun m => WMem.wf m = true) rfl (fun m => WMem.wf_set m a v) hd e, hi, hg, hw⟩

theorem EnginesFormed.storeG (r a : Nat) (v : Word) : EnginesFormed (c.modRegion r (fun x => { x with gmem := WMem.set x.gmem a v })) := by
  obtain ⟨hr, hd, hi, hg, hw⟩ := h
  exact ⟨hr, hd, hi, forall_mem_modNth (P := fun (x : Region) => WMem.wf x.gmem = true) rfl (fun x => WMem.wf_set x.gmem a v) hg r, hw⟩

theorem EnginesFormed.bump (ix sub : Nat) : EnginesFormed (c.bump ix sub) := ⟨Sparse.wf_set _ _ _ _ h.1, h.2⟩

theorem EnginesFormed.modCl (n : Nat) (f : Cls → Cls) : EnginesFormed (c.modCl n f) := h

theorem EnginesFormed.effect (e : Nat) (f : Eff) : EnginesFormed (c.effect e f) := by
  cases f with
  | res d k v => exact h.modWork e fun _ hw => hw
  | dmem a v =>
    unfold Chip.effect
    dsimp only
    split
    · exact h.storeD e a v
    · exact (h.storeD e a v).addUndo e _
  | gmem a v =>
    have hs := (h.storeG (e / 8) a v).modWork e (f := fun w => { w with lastGst := some w.issued }) fun _ hw => hw
    unfold Chip.effect
    dsimp only
    split
    · exact hs
    · exact hs.addUndo e _
  | io a v =>
    unfold Chip.effect
    dsimp only
    split
    · exact h.modCl _ _
    · exact (h.modCl _ _).addUndo e _
  | mbMark off =>
    unfold Chip.effect
    dsimp only
    split
    · split
      · exact h
      · exact (h.modCl _ _).addUndo e _
    · exact h
  | sched | rcl | cnf => exact h.modCl _ _
  | push =>
    exact h.modWork e fun w ⟨hg, hf, _, hrest⟩ => ⟨hg, hf, List.length_take_le _ _, hrest⟩
  | pop =>
    exact h.modWork e fun w ⟨hg, hf, hr, hrest⟩ => ⟨hg, hf, List.length_tail.trans_le ((Nat.sub_le _ _).trans hr), hrest⟩
  | sev t ev mask =>
    have hu := h.addUndo e (.sent ev mask)
    unfold Chip.effect
    dsimp only
    split
    · split
      · exact hu.modWork e fun _ hw => hw
      · exact (hu.bump 0x2300 0x0C).congr rfl rfl rfl rfl rfl
    · exact hu.congr rfl rfl rfl rfl rfl
  | clev ev => exact h.modWork e fun w hw => hw.setFlag ev 0

theorem EnginesFormed.memberDone (e : Nat) (t : Instant) : EnginesFormed (c.memberDone e t) := by
  have hd := h.modWork e (f := fun w => { w with run := .done, flights := [] }) fun _ hw => hw
  unfold Chip.memberDone
  dsimp only
  split
  · exact hd
  · exact hd.modCl _ _

theorem EnginesFormed.control (e : Nat) (ctl : Option Ctl) : EnginesFormed (c.control e ctl) := by
  unfold Chip.control
  split
  · exact h.memberDone e _
  · split
    · exact h.modWork e fun w hw => hw.setFlag _ 0
    · exact h.modWork e fun _ hw => hw
  · split
    · exact h
    · exact h.modWork e fun _ hw => hw
  · exact h

theorem EnginesFormed.carries (e : Nat) (l : List Eff) (ctl : Option Ctl) : EnginesFormed (c.carries e l ctl) :=
  ((foldl_invariant (A := EnginesFormed) (fun _ f _ hc => hc.effect e f) c h).modWork e fun _ hw => workFormed_nextWork _ ctl hw).control e ctl

theorem EnginesFormed.raise (e : Nat) (f : ProgFault) : EnginesFormed (c.raise e f) := by
  have hf : EnginesFormed (c.modWork e (faultedWork c f)) := h.modWork e fun _ hw => hw
  cases hn : c.classOf e with
  | none =>
    simp only [Chip.raise, Chip.classOf_modWork, hn]
    exact hf
  | some n =>
    rw [raise_eq c e n f hn]
    exact (foldl_invariant (A := EnginesFormed) (fun _ m _ hc => hc.modWork m fun _ hw => workFormed_holdMember hw) _ hf).modCl _ _

/-- A bundle that issues keeps the form: it mismatches, faults, or carries out its effects. -/
theorem EnginesFormed.commit (e : Nat) : EnginesFormed (c.commit e) := by
  by_cases hs : c.signatureOk e = true
  · cases hf : bundleFault (c.work e) with
    | none => exact commit_ok c e hs hf ▸ h.carries e _ _
    | some f => exact commit_fault c e f hs hf ▸ h.raise e f
  · rw [Chip.commit, if_pos (Bool.not_eq_true _ ▸ hs)]
    exact h.modWork e fun _ hw => hw

theorem EnginesFormed.issueAs (e : Nat) (sl : Slot) (last : Bool) {f : Work → Work} (hf : ∀ w, WorkFormed w → WorkFormed (f w)) :
    EnginesFormed (c.issueAs e sl last f) := by
  have hj := h.modWork e (f := fun w => f (slotTaken sl w)) fun w hw => hf (slotTaken sl w) hw
  unfold Chip.issueAs
  split
  · split
    · exact hj.commit e
    · exact hj
  · exact h

end

/-- The instant of an operation is all it changes before it issues. -/
theorem timed_eq (c : Chip) (i : Instr) : ∃ t, c.timed i = c.at_ t := by
  unfold Chip.timed
  split
  · exact ⟨_, rfl⟩
  · exact ⟨_, rfl⟩
  · exact ⟨_, rfl⟩
  · exact ⟨_, rfl⟩
  · exact ⟨c.now, rfl⟩

theorem EnginesFormed.timed {c : Chip} (h : EnginesFormed c) (i : Instr) : EnginesFormed (c.timed i) := by
  obtain ⟨t, ht⟩ := timed_eq c i
  rw [ht]
  exact h

/-- The meaning of an operation keeps the form. -/
theorem engineOp_keeps_formed (s : State) (i : Instr) (hi : i.ofEngine = true) (h : EnginesFormed s.chip) :
    ∃ c', Gives s i c' ∧ EnginesFormed c' := by
  unfold Instr.ofEngine at hi
  split at hi
  · exact ⟨_, rfl, h.issueAs _ _ _ fun _ hw => hw⟩
  · refine ⟨_, rfl, h.issueAs _ _ _ fun w hw => ?_⟩
    split <;> exact hw
  · refine ⟨_, rfl, ?_⟩
    dsimp only
    split
    · exact h.issueAs _ _ _ fun _ hw => workFormed_joinBundle _ _ _ _ hw
    · exact h
  · obtain ⟨o, ho⟩ := Option.isSome_iff_exists.mp hi
    obtain ⟨run, hg⟩ := joins s i o ho
    exact ⟨_, hg, (h.timed i).issueAs _ _ _ fun _ hw => workFormed_joinBundle _ _ _ _ hw⟩

/-- Settles O59: an operation joins its bundle, and a bundle that issues carries out effects that each keep the form, or faults. -/
theorem engineOperationsKeepTheFormOfEngines : Obligations.EngineOperationsKeepTheFormOfEngines := by
  unfold Obligations.EngineOperationsKeepTheFormOfEngines
  intro s s' i q hq hi hf hs
  obtain ⟨c', hg, hc'⟩ := engineOp_keeps_formed { s with pending := q } i hi hf
  have hstep : step s = exec i { s with pending := q } := by simp only [step, hq]
  rw [hstep, hg] at hs
  cases hs
  exact hc'

end Sys2Proof.Machine
end

section
namespace Sys2Proof.Machine

/-! ### Fields of an encoded operation (Tables 03-6, 03-7) -/

/-- A field that begins above the low part of a concatenation is a field of its high part. -/
theorem extract_above {n l s k : Nat} (x : BitVec n) (y : BitVec l) : BitVec.extractLsb' (s + l) k (x ++ y) = BitVec.extractLsb' s k x := by
  rw [BitVec.extractLsb'_append_eq_of_le (Nat.le_add_left l s), Nat.add_sub_cancel]

/-- The lowest bit of the high part of a concatenation. -/
theorem getLsbD_above {n l s : Nat} (x : BitVec n) (y : BitVec l) : (x ++ y).getLsbD (s + l) = x.getLsbD s := by
  rw [BitVec.getLsbD_append, if_neg (by omega), Nat.add_sub_cancel]

section
variable (o : Op) (opc : BitVec 7) (x : BitVec 20)

/-! Guard and opcode stand above the operand fields, which make up the low 20 bits whatever the form. -/

theorem fPg_head : fPg (o.pg ++ BitVec.ofBool o.pi ++ opc ++ x) = o.pg :=
  (extract_above (s := 8) _ x).trans <| (extract_above (s := 1) _ opc).trans <| (extract_above (s := 0) _ _).trans BitVec.extractLsb'_eq_self
theorem fPi_head : fPi (o.pg ++ BitVec.ofBool o.pi ++ opc ++ x) = o.pi :=
  (getLsbD_above (s := 7) _ x).trans <| (getLsbD_above (s := 0) _ opc).trans <| by
    rw [BitVec.getLsbD_append]; simp
theorem fOpc_head : fOpc (o.pg ++ BitVec.ofBool o.pi ++ opc ++ x) = opc :=
  (extract_above (s := 0) _ x).trans BitVec.extractLsb'_append_eq_right
theorem opOf_head : opOf o.eng o.last (o.pg ++ BitVec.ofBool o.pi ++ opc ++ x) = o := by
  unfold opOf
  rw [fPg_head, fPi_head]

end

section
variable (o : Op) (opc : BitVec 7) (d a b : RegNo) (m : BitVec 2) (i : BitVec 8) (t : BitVec 14) (k : BitVec 6)

theorem mkX_eq : mkX o opc t k = o.pg ++ BitVec.ofBool o.pi ++ opc ++ (t ++ k) := BitVec.append_assoc.trans (BitVec.cast_eq _ _)
theorem mkI_eq : mkI o opc d a i = o.pg ++ BitVec.ofBool o.pi ++ opc ++ (d ++ a ++ i) := by
  have hda : (o.pg ++ BitVec.ofBool o.pi ++ opc ++ d ++ a : BitVec 24) = o.pg ++ BitVec.ofBool o.pi ++ opc ++ (d ++ a) :=
    BitVec.append_assoc.trans (BitVec.cast_eq _ _)
  exact (congrArg (· ++ i) hda).trans (BitVec.append_assoc.trans (BitVec.cast_eq _ _))
theorem mkR_eq : mkR o opc d a b m = mkI o opc d a (b ++ m) := BitVec.append_assoc.trans (BitVec.cast_eq _ _)

@[simp] theorem fOpc_mkX : fOpc (mkX o opc t k) = opc := mkX_eq o opc t k ▸ fOpc_head o opc _
@[simp] theorem opOf_mkX : opOf o.eng o.last (mkX o opc t k) = o := mkX_eq o opc t k ▸ opOf_head o opc _
@[simp] theorem xw_mkX : xw (mkX o opc t k) = t := (extract_above (s := 0) _ k).trans BitVec.extractLsb'_append_eq_right
@[simp] theorem xb_mkX : xb (mkX o opc t k) = k := BitVec.extractLsb'_append_eq_right
@[simp] theorem fOpc_mkI : fOpc (mkI o opc d a i) = opc := mkI_eq o opc d a i ▸ fOpc_head o opc _
@[simp] theorem opOf_mkI : opOf o.eng o.last (mkI o opc d a i) = o := mkI_eq o opc d a i ▸ opOf_head o opc _
@[simp] theorem fd_mkI : fd (mkI o opc d a i) = d :=
  (extract_above (s := 6) _ i).trans <| (extract_above (s := 0) _ a).trans BitVec.extractLsb'_append_eq_right
@[simp] theorem fa_mkI : fa (mkI o opc d a i) = a := (extract_above (s := 0) _ i).trans BitVec.extractLsb'_append_eq_right
@[simp] theorem fi_mkI : fi (mkI o opc d a i) = i := BitVec.extractLsb'_append_eq_right

@[simp] theorem fOpc_mkR : fOpc (mkR o opc d a b m) = opc := mkR_eq o opc d a b m ▸ fOpc_mkI o opc d a _
@[simp] theorem opOf_mkR : opOf o.eng o.last (mkR o opc d a b m) = o := mkR_eq o opc d a b m ▸ opOf_mkI o opc d a _
@[simp] theorem fd_mkR : fd (mkR o opc d a b m) = d := mkR_eq o opc d a b m ▸ fd_mkI o opc d a _
@[simp] theorem fa_mkR : fa (mkR o opc d a b m) = a := mkR_eq o opc d a b m ▸ fa_mkI o opc d a _
@[simp] theorem fb_mkR : fb (mkR o opc d a b m) = b := (extract_above (s := 0) _ m).trans BitVec.extractLsb'_append_eq_right
@[simp] theorem fm_mkR : fm (mkR o opc d a b m) = m := BitVec.extractLsb'_append_eq_right

end

/-! ### Decoding an encoded operation, slot by slot (R85-R99) -/

/-- An operation has a word in its slot, and its engine's decoder finds it again under the opcode of that word. -/
def Decodes (i : Instr) (o : Op) (d : Bool) : Prop :=
  ∃ sl w, encodeOp i = some (sl, w) ∧ decodeOpcode o.eng o.last d (carried i) sl w = some i

/-- Every guarded operation decodes: by slot, form and profile page, its opcode is the one under which the tables list it. -/
theorem decodes_of_op (i : Instr) (o : Op) (d : Bool) (h : i.op = some o) (hf : formOk i = true)
    (hp : ∀ p, profileOnly i = some p → p = d) : Decodes i o d := by
  cases i with
  | ldBa _ x | ldnBa _ x | andBa _ x | andnBa _ x | orBa _ x | ornBa _ x | xorBa _ x | outBit _ x | outnBit _ x | setBit _ x | rstBit _ x =>
    cases h
    cases x <;> exact ⟨_, _, rfl, by unfold decodeOpcode decB; rw [fOpc_mkX]; exact congrArg some (by simp)⟩
  | red | fed =>
    cases h
    exact ⟨_, _, rfl, by unfold decodeOpcode decB; rw [fOpc_mkX]; exact congrArg some (by simp)⟩
  | push | popa | popo | notba | ba2p | p2ba | andp | orp | ton | tof | tp | ctu | ctd | cld =>
    cases h
    exact ⟨_, _, rfl, by unfold decodeOpcode decB; rw [fOpc_mkR]; exact congrArg some (by simp)⟩
  | add _ _ _ x | sub _ _ _ x | and _ _ _ x | or _ _ _ x | xor _ _ _ x | shl _ _ _ x | shr _ _ _ x | sar _ _ _ x | rol _ _ _ x | ror _ _ _ x
  | ins _ _ _ x | cmpEq _ _ _ x | cmpNe _ _ _ x | cmpLt _ _ _ x | cmpLe _ _ _ x | cmpLtu _ _ _ x | mul _ _ _ x =>
    cases h
    cases x with
    | reg => exact ⟨_, _, rfl, by unfold decodeOpcode decA; rw [fOpc_mkR]; exact congrArg some (by simp)⟩
    | imm => exact ⟨_, _, rfl, by unfold decodeOpcode decA; rw [fOpc_mkI]; exact congrArg some (by simp)⟩
  | min _ _ _ x m | max _ _ _ x m | ext _ _ _ x m =>
    cases h
    cases x with
    | reg => exact ⟨_, _, rfl, by unfold decodeOpcode decA; rw [fOpc_mkR]; exact congrArg some (by simp)⟩
    | imm =>
      have hm : m = 0 := eq_of_beq hf
      subst hm
      exact ⟨_, _, rfl, by unfold decodeOpcode decA; rw [fOpc_mkI]; exact congrArg some (by simp)⟩
  | mov | cmpGt | cmpGe | cmpGtu =>
    cases h
    exact ⟨_, _, rfl, by unfold decodeOpcode decA; rw [fOpc_mkI]; exact congrArg some (by simp)⟩
  | andn | adds | subs | sel | abs | not | cnt | clz | mfs | cmpLeu | cmpF | cmpD | mulh | mulhU | div | divU | rem | remU | fadd | fsub | fmul
  | fdiv | fmin | fmax | fabs | fneg | cvtFi | cvtIf | dadd | dsub | dmul | ddiv | dmin | dmax | dabs | dneg | cvtDi | cvtId | cvtSd | cvtDs =>
    cases h
    exact ⟨_, _, rfl, by unfold decodeOpcode decA; rw [fOpc_mkR]; exact congrArg some (by simp [carried])⟩
  | tadd | tsub | tcmpLt | tcmpLe | tcmpEq =>
    cases h
    cases hp _ rfl
    exact ⟨_, _, rfl, by unfold decodeOpcode decAE; rw [fOpc_mkR]; exact congrArg some (by simp)⟩
  | badd | bsub | bcy | bbw | bdaj | b2d | d2b =>
    cases h
    cases hp _ rfl
    exact ⟨_, _, rfl, by unfold decodeOpcode decAD; rw [fOpc_mkR]; exact congrArg some (by simp)⟩
  | bshl _ _ _ x | bshr _ _ _ x =>
    cases h
    cases hp _ rfl
    cases x with
    | reg => exact ⟨_, _, rfl, by unfold decodeOpcode decAD; rw [fOpc_mkR]; exact congrArg some (by simp)⟩
    | imm => exact ⟨_, _, rfl, by unfold decodeOpcode decAD; rw [fOpc_mkI]; exact congrArg some (by simp)⟩
  | ldD _ _ _ x | stD _ _ _ x | ldG _ _ _ x | stG _ _ _ x | ldi _ _ _ x | inW _ _ _ x | outW _ _ _ x | mbput _ _ _ x | mbget _ _ _ x =>
    cases h
    cases x with
    | reg => exact ⟨_, _, rfl, by unfold decodeOpcode decM; rw [fOpc_mkR]; exact congrArg some (by simp)⟩
    | imm => exact ⟨_, _, rfl, by unfold decodeOpcode decM; rw [fOpc_mkI]; exact congrArg some (by simp)⟩
  | inX | mbhdr =>
    cases h
    exact ⟨_, _, rfl, by unfold decodeOpcode decM; rw [fOpc_mkI]; exact congrArg some (by simp)⟩
  | inB | outB | sow =>
    cases h
    exact ⟨_, _, rfl, by unfold decodeOpcode decM; rw [fOpc_mkR]; exact congrArg some (by simp)⟩
  | br _ x | call _ x =>
    cases h
    cases x with
    | bundle => exact ⟨_, _, rfl, by unfold decodeOpcode decC; rw [fOpc_mkX]; exact congrArg some (by simp)⟩
    | reg => exact ⟨_, _, rfl, by unfold decodeOpcode decC; rw [fOpc_mkR]; exact congrArg some (by simp)⟩
  | loop _ _ x =>
    cases h
    cases x <;> exact ⟨_, _, rfl, by unfold decodeOpcode decC; rw [fOpc_mkX]; exact congrArg some (by simp)⟩
  | ret | eoc | rcl | cnf =>
    cases h
    exact ⟨_, _, rfl, by unfold decodeOpcode decC; rw [fOpc_mkR]; exact congrArg some (by simp [carried])⟩
  | wfe | sev | clev | wtu =>
    cases h
    cases hp _ rfl
    exact ⟨_, _, rfl, by unfold decodeOpcode decCE; rw [fOpc_mkI]; exact congrArg some (by simp [carried])⟩
  | dmv =>
    cases h
    cases hp _ rfl
    exact ⟨_, _, rfl, by unfold decodeOpcode decCD; rw [fOpc_mkR]; exact congrArg some (by simp)⟩
  | _ => cases h

theorem decodeOp_of_decodeOpcode {e : Fin 32} {last d : Bool} {t : Instant} {sl : Slot} {w : BitVec 32} {i : Instr}
    (h : decodeOpcode e last d t sl w = some i) (hl : operandsLegal i = true) : decodeOp e last d t sl w = some i := by
  simp only [decodeOp, h, hl, if_true]

/-- The decoder of its engine's profile gives a legal operation back from its word (R87). -/
theorem decodeOp_encodeOp (i : Instr) (o : Op) (d : Bool) (h : i.op = some o) (hl : operandsLegal i = true) (hf : formOk i = true)
    (hp : ∀ p, profileOnly i = some p → p = d) :
    ∃ sl w, encodeOp i = some (sl, w) ∧ decodeOp o.eng o.last d (carried i) sl w = some i := by
  obtain ⟨sl, w, he, hd⟩ := decodes_of_op i o d h hf hp
  exact ⟨sl, w, he, decodeOp_of_decodeOpcode hd hl⟩

/-! ### The long immediate (R89, R90) -/

/-- The word of a long immediate: its high nibble where the predicate of a guard stands, its kind as PI, the rest in opcode and operands. -/
def immWord (sx : Bool) (x : BitVec 28) : BitVec 32 :=
  x.extractLsb' 24 4 ++ BitVec.ofBool sx ++ (0b110 : BitVec 3) ++ x.extractLsb' 20 4 ++ x.extractLsb' 0 20

section
variable (sx : Bool) (x : BitVec 28)

theorem immWord_eq (o : Op) (hg : o.pg = x.extractLsb' 24 4) (hi : o.pi = sx) :
    immWord sx x = o.pg ++ BitVec.ofBool o.pi ++ ((0b110 : BitVec 3) ++ x.extractLsb' 20 4 : BitVec 7) ++ x.extractLsb' 0 20 := by
  rw [hg, hi]
  exact congrArg (· ++ x.extractLsb' 0 20) (BitVec.append_assoc.trans (BitVec.cast_eq _ _))

theorem page_immWord : (fOpc (immWord sx x)).toNat / 16 = 6 := by
  have hlow : (x.extractLsb' 20 4).toNat < 2 ^ 4 := (x.extractLsb' 20 4).isLt
  rw [immWord_eq sx x ⟨0, _, sx, false⟩ rfl rfl, fOpc_head, BitVec.toNat_append, ← Nat.shiftLeft_add_eq_or_of_lt hlow]
  show (6 <<< 4 + (x.extractLsb' 20 4).toNat) / 16 = 6
  omega

theorem fPi_immWord : fPi (immWord sx x) = sx := by
  rw [immWord_eq sx x ⟨0, _, sx, false⟩ rfl rfl]
  exact fPi_head ⟨0, _, sx, false⟩ _ _

/-- The three parts of the immediate, put together again. -/
theorem value_immWord : (immWord sx x).extractLsb' 28 4 ++ (immWord sx x).extractLsb' 20 4 ++ (immWord sx x).extractLsb' 0 20 = x := by
  have high : (immWord sx x).extractLsb' 28 4 = x.extractLsb' 24 4 := by
    rw [immWord_eq sx x ⟨0, _, sx, false⟩ rfl rfl]
    exact fPg_head ⟨0, _, sx, false⟩ _ _
  have mid : (immWord sx x).extractLsb' 20 4 = x.extractLsb' 20 4 := (extract_above (s := 0) _ _).trans BitVec.extractLsb'_append_eq_right
  have low : (immWord sx x).extractLsb' 0 20 = x.extractLsb' 0 20 := BitVec.extractLsb'_append_eq_right
  rw [high, mid, low]
  refine (congrArg (· ++ x.extractLsb' 0 20) (BitVec.extractLsb'_append_extractLsb'_eq_extractLsb' rfl)).trans ?_
  exact (BitVec.extractLsb'_append_extractLsb'_eq_extractLsb' rfl).trans BitVec.extractLsb'_eq_self

end

theorem decodeOp_encodeOp_imm (e : Fin 32) (last sx d : Bool) (x : BitVec 28) (t : Instant) :
    ∃ w, encodeOp (.imm e last sx x) = some (.c, w) ∧ decodeOp e last d t .c w = some (.imm e last sx x) := by
  refine ⟨immWord sx x, rfl, decodeOp_of_decodeOpcode ?_ rfl⟩
  unfold decodeOpcode
  dsimp only
  rw [if_pos (page_immWord sx x), fPi_immWord, value_immWord]

/-- Settles O60: every operation is found again under the opcode of its own word, so two that share a word are one. -/
theorem decodeOfEncodeIsTheOperation : Obligations.DecodeOfEncodeIsTheOperation := by
  unfold Obligations.DecodeOfEncodeIsTheOperation
  refine ⟨decodeOp_encodeOp, decodeOp_encodeOp_imm, fun i j o p d hi hj he hlast ht li lj fi fj pi pj h => ?_⟩
  obtain ⟨sl, w, hei, hdi⟩ := decodeOp_encodeOp i o d hi li fi pi
  obtain ⟨sl', w', hej, hdj⟩ := decodeOp_encodeOp j p d hj lj fj pj
  obtain ⟨rfl, rfl⟩ := Prod.mk.inj (Option.some.inj (hei.symm.trans (h.trans hej)))
  rw [he, hlast, ht] at hdi
  exact Option.some.inj (hdi.symm.trans hdj)

end Sys2Proof.Machine
end

section
namespace Sys2Proof.Machine

/-! ### Saturation, minimum and maximum (Table 04-6) -/

theorem toInt_ofIntWord {z : Int} (hl : -(2 ^ 47) ≤ z) (hu : z < 2 ^ 47) : (ofIntWord z).toInt = z :=
  BitVec.toInt_ofInt_eq_self (by decide) hl hu

theorem toNat_ofIntWord {z : Int} (hl : 0 ≤ z) (hu : z < 2 ^ 48) : (ofIntWord z).toNat = z.toNat := by
  simp only [ofIntWord, BitVec.toNat_ofInt]
  rw [Int.emod_eq_of_lt hl (by exact_mod_cast hu)]

theorem toInt_range (a : Word) : -(2 ^ 47) ≤ a.toInt ∧ a.toInt < 2 ^ 47 := ⟨BitVec.le_toInt a, BitVec.toInt_lt⟩

/-- Signed saturation clamps to the signed 48-bit range, unsigned saturation to the unsigned one. -/
theorem toInt_satS (z : Int) : (satS z).toInt = max (-(2 ^ 47)) (min (2 ^ 47 - 1) z) := by
  unfold satS
  split
  · rw [toInt_ofIntWord (by omega) (by omega)]; omega
  · split
    · rw [toInt_ofIntWord (by omega) (by omega)]; omega
    · rw [toInt_ofIntWord (by omega) (by omega)]; omega

theorem toNat_satU (z : Int) : (satU z).toNat = min (2 ^ 48 - 1) z.toNat := by
  unfold satU
  split
  · rw [toNat_ofIntWord (by omega) (by omega)]; omega
  · split
    · rw [Int.toNat_of_nonpos (by omega)]; rfl
    · rw [toNat_ofIntWord (by omega) (by omega)]; omega

theorem toInt_minW (a b : Word) : (minW false a b).toInt = min a.toInt b.toInt := by
  simp only [minW, Bool.false_eq_true, if_false]
  split <;> omega
theorem toInt_maxW (a b : Word) : (maxW false a b).toInt = max a.toInt b.toInt := by
  simp only [maxW, Bool.false_eq_true, if_false]
  split <;> omega
theorem toNat_minW (a b : Word) : (minW true a b).toNat = min a.toNat b.toNat := by
  simp only [minW, if_true]
  split <;> omega
theorem toNat_maxW (a b : Word) : (maxW true a b).toNat = max a.toNat b.toNat := by
  simp only [maxW, if_true]
  split <;> omega

theorem toInt_absW (a : Word) : (absW a).toInt = min (2 ^ 47 - 1) |a.toInt| := by
  have habs : (if a.toInt < 0 then -a.toInt else a.toInt) = |a.toInt| := by
    split
    · rw [abs_of_neg ‹_›]
    · rw [abs_of_nonneg (by omega)]
  have := abs_nonneg a.toInt
  rw [absW, habs, toInt_satS]
  omega

/-! ### Leading zeros, shifts and fields (Table 04-6, R119) -/

/-- The bits above the leading 1 are 0, and there is one unless all 48 are 0. -/
theorem leadZeros_spec (a : Word) : leadZeros a ≤ 48 ∧ (∀ j, 48 - leadZeros a ≤ j → a.getLsbD j = false) ∧
    (leadZeros a < 48 → a.getLsbD (47 - leadZeros a) = true) := by
  unfold leadZeros
  split
  next h => simp [h]
  next h =>
    have hn : a.toNat ≠ 0 := fun h0 => h (BitVec.eq_of_toNat_eq h0)
    have hlog : a.toNat.log2 < 48 := (Nat.log2_lt hn).mpr a.isLt
    refine ⟨by omega, fun j hj => ?_, fun _ => ?_⟩
    · exact Nat.testBit_lt_two_pow ((Nat.log2_lt hn).mp (by omega))
    · have he : 47 - (47 - a.toNat.log2) = a.toNat.log2 := by omega
      rw [he]
      exact Nat.testBit_log2 hn

/-- `clz` counts the zeros above the leading 1, all 48 of zero. -/
theorem leadZeros_iff (a : Word) (i : Nat) :
    leadZeros a = i ↔ (i ≤ 48 ∧ (∀ j, 48 - i ≤ j → a.getLsbD j = false) ∧ (i < 48 → a.getLsbD (47 - i) = true)) := by
  constructor
  · rintro rfl
    exact leadZeros_spec a
  · intro h
    obtain ⟨hle, hz, ho⟩ := leadZeros_spec a
    obtain ⟨hle', hz', ho'⟩ := h
    rcases Nat.lt_trichotomy (leadZeros a) i with hlt | heq | hgt
    · exact absurd ((hz' (47 - leadZeros a) (by omega)).symm.trans (ho (by omega))) Bool.false_ne_true
    · exact heq
    · exact absurd ((hz (47 - i) (by omega)).symm.trans (ho' (by omega))) Bool.false_ne_true

/-- A shift by 48 or more leaves no bit but copies of the sign. -/
theorem shifts_out (a b : Word) (h : 48 ≤ amount b) : shlW a b = 0 ∧ shrW a b = 0 ∧ sarW a b = if a.getLsbD 47 then -1 else 0 := by
  refine ⟨BitVec.shiftLeft_eq_zero h, BitVec.ushiftRight_eq_zero h, ?_⟩
  refine BitVec.eq_of_getLsbD_eq fun i hi => ?_
  have hmsb : (sarW a b).getLsbD i = a.getLsbD 47 := by
    rw [sarW, BitVec.getLsbD_sshiftRight, if_neg (by omega), decide_eq_false (by omega), BitVec.msb_eq_getLsbD_last]
    rfl
  rw [hmsb]
  cases a.getLsbD 47
  · rw [if_neg Bool.false_ne_true, BitVec.ofNat_eq_ofNat, BitVec.getLsbD_zero]
  · rw [if_pos rfl, BitVec.ofNat_eq_ofNat, BitVec.neg_one_eq_allOnes, BitVec.getLsbD_allOnes, decide_eq_true hi]

theorem getLsbD_toWord (n i : Nat) (h : i < 48) : (toWord n).getLsbD i = n.testBit i := by
  rw [toWord, BitVec.getLsbD_ofNat, decide_eq_true h, Bool.true_and]

/-- A number reads within a field as what was put there, and outside it as before (R1). -/
theorem testBit_setFieldOf (w hi lo v j : Nat) (h : lo ≤ hi) :
    (setFieldOf w hi lo v).testBit j = if lo ≤ j ∧ j ≤ hi then v.testBit (j - lo) else w.testBit j := by
  rw [setFieldOf_split w hi lo v h, Nat.mul_comm _ (2 ^ lo), Nat.testBit_two_pow_mul_add _ (Nat.mod_lt _ (Nat.two_pow_pos lo))]
  by_cases hlo : j < lo
  · rw [if_pos hlo, if_neg (by omega), Nat.testBit_mod_two_pow, decide_eq_true hlo, Bool.true_and]
  · rw [if_neg hlo, Nat.mul_comm, Nat.testBit_two_pow_mul_add _ (Nat.mod_lt _ (Nat.two_pow_pos _))]
    by_cases hhi : j ≤ hi
    · have hj : j - lo < hi + 1 - lo := by omega
      rw [if_pos hj, if_pos ⟨by omega, hhi⟩, Nat.testBit_mod_two_pow, decide_eq_true hj, Bool.true_and]
    · have hj : hi + 1 + (j - lo - (hi + 1 - lo)) = j := by omega
      rw [if_neg (by omega), if_neg (by omega), Nat.testBit_div_two_pow, Nat.add_comm, hj]

theorem getLsbD_insW (d a b : Word) (i : Nat) (hi : i < 48) : (insW d a b).getLsbD i =
    if fieldPos b ≤ i ∧ i < fieldPos b + fieldWidth b then a.getLsbD (i - fieldPos b) else d.getLsbD i := by
  have hw : fieldWidth b ≤ 48 - fieldPos b := Nat.min_le_right _ _
  unfold insW
  dsimp only
  split
  · rw [if_neg (by omega)]
  · rw [getLsbD_toWord _ _ hi, testBit_setFieldOf _ _ _ _ _ (by omega)]
    have hle : i ≤ fieldPos b + fieldWidth b - 1 ↔ i < fieldPos b + fieldWidth b := by omega
    simp only [hle]
    rfl

theorem getLsbD_extW (a b : Word) (i : Nat) (hi : i < 48) :
    (extW false a b).getLsbD i = (decide (i < fieldWidth b) && a.getLsbD (fieldPos b + i)) := by
  simp only [extW, Bool.false_eq_true, false_and, if_false]
  have hw : fieldWidth b ≤ 48 - fieldPos b := Nat.min_le_right _ _
  split
  · have : fieldWidth b = 0 := by omega
    simp [this]
  · rw [getLsbD_toWord _ _ hi, Nat.testBit_mod_two_pow, Nat.testBit_shiftRight]; rfl

/-! ### Special registers (R79, R81) -/

theorem gives_mfs (s : State) (o : Op) (t : Instant) (d sr : RegNo) (h : Alone s.chip o) :
    Gives s (.mfs o t d sr) ((s.chip.at_ t).issues o.eng.val
      (legalIf (decide (sr.toNat < 6)) (resG d 1 ((s.chip.at_ t).special o.eng.val t sr.toNat)))) := by
  have hi := issue_issues (s.chip.at_ t) .a o (decide (sr.toNat < 6)) (fun _ => did (resG d 1 (s.chip.special o.eng.val t sr.toNat))) h
    (by decide) rfl (fun d hd => by cases hd; exact storesCollide_none _ (place_resG ..))
  exact congrArg (fun c => Host.Outcome.next { s with chip := c }) hi

/-- Settles O2. -/
theorem integerFunctionsAndSpecialRegisters : Obligations.IntegerFunctionsAndSpecialRegisters := by
  unfold Obligations.IntegerFunctionsAndSpecialRegisters
  refine ⟨fun a b d => ⟨toInt_satS _, toNat_satU _, toInt_satS _, ?_, toInt_minW a b, toInt_maxW a b, toNat_minW a b, toNat_maxW a b, toInt_absW a,
    leadZeros_iff a, shifts_out a b, getLsbD_insW d a b, getLsbD_extW a b⟩, gives_mfs⟩
  exact (toNat_satU _).trans (by omega)

end Sys2Proof.Machine
end

section
namespace Sys2Proof.Machine

/-! ### What an operation alone in its bundle gives (R85, R108) -/

/-- Where an operation has an outcome, no two of its own stores go to one word. -/
def StoresApart (r : Except ProgFault Did) : Prop := ∀ d, r = .ok d → storesCollide d.effs = false

theorem storesApart_error (f : ProgFault) : StoresApart (.error f) := fun _ h => nomatch h
theorem storesApart_results {l : List Eff} (h : l.filterMap Eff.place = []) : StoresApart (did l) := by
  rintro d ⟨⟩
  exact storesCollide_none l h
theorem storesApart_store {l : List Eff} {p : Nat × Nat} (h : l.filterMap Eff.place = [p]) : StoresApart (did l) := by
  rintro d ⟨⟩
  exact storesCollide_one l p h
theorem StoresApart.congr {r r' : Except ProgFault Did} (h : StoresApart r') (he : r = r') : StoresApart r := he ▸ h
theorem StoresApart.ite {p : Prop} [Decidable p] {r r' : Except ProgFault Did} (h : StoresApart r) (h' : StoresApart r') :
    StoresApart (if p then r else r') := by
  split
  · exact h
  · exact h'

section
variable {s : State} {i : Instr} {o : Op} {sl : Slot} {legal : Bool} {r : Except ProgFault Did} (h : Alone s.chip o)
include h

/-- An operation of slot A, B or M alone in its bundle does what it does on the state before the bundle. -/
theorem gives_issues {run : Work → Except ProgFault Did} (hx : Gives s i (s.chip.issue sl o legal run)) (hc : sl ≠ .c)
    (hw : run (slotTaken sl (s.chip.work o.eng.val)) = run (s.chip.work o.eng.val)) (hs : StoresApart (run (s.chip.work o.eng.val)))
    (hr : (if legal then run (s.chip.work o.eng.val) else .error .illegalOpcode) = r) : Gives s i (s.chip.issues o.eng.val r) :=
  hr ▸ issue_issues s.chip sl o legal run h hc hw hs ▸ hx

/-- The same of an operation that has results alone. -/
theorem gives_results {res : Work → List Eff} (hx : Gives s i (s.chip.issue sl o legal (fun w => did (res w)))) (hc : sl ≠ .c)
    (hw : res (slotTaken sl (s.chip.work o.eng.val)) = res (s.chip.work o.eng.val))
    (hp : (res (s.chip.work o.eng.val)).filterMap Eff.place = []) (hr : legalIf legal (res (s.chip.work o.eng.val)) = r) :
    Gives s i (s.chip.issues o.eng.val r) :=
  gives_issues h hx hc (congrArg did hw) (storesApart_results hp) hr

/-- A divide traps on a zero divisor where its operand fields are legal (R123, R124). -/
theorem gives_opDiv {zero : Work → Bool} {res : Work → List Eff} (hx : exec i s = opDiv o legal zero res s)
    (hz : zero (slotTaken .a (s.chip.work o.eng.val)) = zero (s.chip.work o.eng.val))
    (hw : res (slotTaken .a (s.chip.work o.eng.val)) = res (s.chip.work o.eng.val))
    (hp : (res (s.chip.work o.eng.val)).filterMap Eff.place = [])
    (hr : (if legal && (zero (s.chip.work o.eng.val) && divTrap (s.chip.work o.eng.val)) then .error .divideByZero
      else legalIf legal (res (s.chip.work o.eng.val))) = r) : Gives s i (s.chip.issues o.eng.val r) := by
  refine gives_issues (run := fun w => if zero w && divTrap w then .error .divideByZero else did (res w)) h hx (by decide)
    (by rw [hz, hw]; rfl) ((storesApart_error .divideByZero).ite (storesApart_results hp)) ?_
  cases legal <;> exact hr

end

/-- Settles O6: each row is an operation with results in a pair, legal where its pair fields are. -/
theorem doublePrecisionResults : Obligations.DoublePrecisionResults := by
  unfold Obligations.DoublePrecisionResults
  intro s o d a b m h w A B three two
  simp only [List.forall_mem_cons, List.not_mem_nil, false_implies, implies_true, and_true]
  have htwo : (pairOk d && pairOk a && pairOk a) = two := by rw [Bool.and_assoc, Bool.and_self]
  refine ⟨?_, ?_, ?_, ?_, ?_, ?_, ?_, ?_, ?_, ?_, ?_, ?_⟩
  · exact gives_results h rfl (by decide) rfl (place_resD ..) rfl
  · exact gives_results h rfl (by decide) rfl (place_resD ..) rfl
  · exact gives_results h rfl (by decide) rfl (place_resD ..) rfl
  · exact gives_opDiv h rfl rfl rfl (place_resD ..) rfl
  · exact gives_results h rfl (by decide) rfl (place_resD ..) rfl
  · exact gives_results h rfl (by decide) rfl (place_resD ..) rfl
  · exact gives_results h rfl (by decide) rfl (place_resD ..) (congrArg (legalIf · _) htwo)
  · exact gives_results h rfl (by decide) rfl (place_resD ..) (congrArg (legalIf · _) htwo)
  · exact gives_results h rfl (by decide) rfl (place_resD ..) rfl
  · exact gives_results h rfl (by decide) rfl (place_resG ..) rfl
  · exact gives_results h rfl (by decide) rfl (place_resD ..) rfl
  · exact gives_results h rfl (by decide) rfl (place_resS ..) rfl

end Sys2Proof.Machine
end

section
namespace Sys2Proof.Machine

/-! ### Stores that the class must own (R43, R93, R96) -/

/-- The effects of a store by engine position e, where its class owns the place; otherwise an ownership violation. -/
def Chip.ifOwns (c : Chip) (e : Nat) (owns : Nat → Bool) (l : List Eff) : Except ProgFault Did :=
  match c.classOf e with
  | some n => if owns n then did l else .error .ownership
  | none => .error .ownership

theorem storesApart_ifOwns (c : Chip) (e : Nat) (owns : Nat → Bool) {l : List Eff} (h : StoresApart (did l)) :
    StoresApart (c.ifOwns e owns l) := by
  unfold Chip.ifOwns
  split
  · exact h.ite (storesApart_error _)
  · exact storesApart_error _

theorem storing_ioStore (c : Chip) (e a : Nat) (v : Word) : storing (c.ioStore e a v) = c.ifOwns e (fun n => ownsIo (c.cl n) a) [.io a v] := by
  unfold Chip.ioStore Chip.ifOwns
  cases c.classOf e with
  | none => rfl
  | some n => cases hn : ownsIo (c.cl n) a <;> simp [storing, hn]

theorem storesApart_ioStore (c : Chip) (e a : Nat) (v : Word) : StoresApart (storing (c.ioStore e a v)) :=
  storing_ioStore c e a v ▸ storesApart_ifOwns c e _ (storesApart_store rfl)

theorem gStore_eq (c : Chip) (e a : Nat) (v : Word) : c.gStore e a v = c.ifOwns e (fun n => inPart (c.cl n) a) [.gmem a v] := rfl

/-- What `mbput` does: a write like `out.w` that also marks the mailbox of its word (R131). -/
theorem mbputStores_eq (c : Chip) (e a : Nat) (v : Word) :
    (match c.ioStore e a v with
      | .ok l => (match c.boxAt a with
        | some (_, x) => did (l ++ [.mbMark (x.base - 0x4000)])
        | none => did l)
      | .error f => .error f) =
    c.ifOwns e (fun n => ownsIo (c.cl n) a) ([.io a v] ++ (match c.boxAt a with
      | some (_, x) => [.mbMark (x.base - 0x4000)]
      | none => [])) := by
  unfold Chip.ioStore Chip.ifOwns
  cases c.classOf e with
  | none => rfl
  | some n => cases hn : ownsIo (c.cl n) a <;> cases c.boxAt a <;> simp [hn]

/-- What `sow` does: it records a write of an output that its class owns, with class and muster of the cycle (R132). -/
theorem sowRecord_eq (c : Chip) (e : Nat) (w : Work) (a b : RegNo) :
    (match c.classOf e with
      | none => .error .ownership
      | some n => if descOwned (c.cl n) (gRead w b) then
          did [.sched (schedOf (tRead w a) (gRead w b) n e (match (c.cl n).cycle with | some cy => cy.m | none => 0))]
        else .error .ownership) =
    c.ifOwns e (fun n => descOwned (c.cl n) (gRead w b)) [.sched (schedOf (tRead w a) (gRead w b) ((c.classOf e).getD 0) e
      (match (c.cl ((c.classOf e).getD 0)).cycle with | some cy => cy.m | none => 0))] := by
  unfold Chip.ifOwns
  cases c.classOf e <;> rfl

/-! ### Ladder operations that write a bit (R96, R113) -/

/-- A write of a form X bit: illegal from bit 48 on, of an I/O word within what the class owns. -/
def Chip.bitPut (c : Chip) (e : Nat) (x : BitOpnd) (v : Bool) : Except ProgFault Did :=
  if opndOk x then
    match x with
    | .dsp n i => did [.dmem n.toNat (putBit (c.dWord e n.toNat) i.toNat v)]
    | .io n i => c.ifOwns e (fun k => ownsIo (c.cl k) n.toNat) [.io n.toNat (putBit (c.ioWord e n.toNat) i.toNat v)]
  else .error .illegalOpcode

theorem bitPut_eq (c : Chip) (e : Nat) (x : BitOpnd) (v : Bool) :
    (if opndOk x then storing (c.bitStore e v x) else .error .illegalOpcode) = c.bitPut e x v := by
  cases x with
  | dsp n i => rfl
  | io n i => exact congrArg (fun r => if opndOk (.io n i) then r else .error .illegalOpcode) (storing_ioStore ..)

theorem storesApart_bitStore (c : Chip) (e : Nat) (v : Bool) (x : BitOpnd) : StoresApart (storing (c.bitStore e v x)) := by
  cases x with
  | dsp n i => exact storesApart_store rfl
  | io n i => exact storesApart_ioStore c e _ _

theorem gives_ladderOut {s : State} {i : Instr} {o : Op} {x : BitOpnd} {f : Bool → Option Bool} {r : Except ProgFault Did}
    (h : Alone s.chip o) (hx : exec i s = ladderOut o x f s)
    (hr : (match f (s.chip.work o.eng.val).arch.ba with
      | some v => s.chip.bitPut o.eng.val x v
      | none => legalIf (opndOk x) []) = r) : Gives s i (s.chip.issues o.eng.val r) := by
  refine gives_issues (sl := .b) (run := fun w => match f w.arch.ba with
    | some v => storing (s.chip.bitStore o.eng.val v x)
    | none => did []) h hx (by decide) rfl ?_ ?_
  · split
    · exact storesApart_bitStore _ _ _ _
    · exact storesApart_results rfl
  · rw [← hr]
    cases f (s.chip.work o.eng.val).arch.ba with
    | none => rfl
    | some v => exact bitPut_eq ..

/-- Settles O9: `out` and `outn` write BA or its inverse, `set` and `rst` a constant while BA is 1. -/
theorem ladderOperationsWriteBits : Obligations.LadderOperationsWriteBits := by
  unfold Obligations.LadderOperationsWriteBits
  intro s o x h c e ba put
  have hput : put = c.bitPut e x := funext fun v => by cases x <;> rfl
  clear_value put
  subst hput
  have onlyWhen : ∀ b v : Bool, (match (if b then some v else none) with
      | some v => c.bitPut e x v
      | none => legalIf (opndOk x) []) = if b then c.bitPut e x v else legalIf (opndOk x) [] := fun b v => by cases b <;> rfl
  simp only [List.forall_mem_cons, List.not_mem_nil, false_implies, implies_true, and_true]
  refine ⟨?_, ?_, ?_, ?_⟩
  · exact gives_ladderOut (f := fun ba => some ba) h rfl rfl
  · exact gives_ladderOut (f := fun ba => some !ba) h rfl rfl
  · exact gives_ladderOut (f := fun ba => if ba then some true else none) h rfl (onlyWhen ba true)
  · exact gives_ladderOut (f := fun ba => if ba then some false else none) h rfl (onlyWhen ba false)

/-! ### Loads (R91, R97, R129-R131) -/

/-- A direct read of a word that no input item and no remote record is placed at is what `in.w` reads (R130). -/
theorem directRead_unplaced (c : Chip) (k : Cls) (g : ClsCfg) (a : Nat) (hk : k.cfg = some g)
    (hp : ∀ p ∈ g.inputs, ¬ (p.addr ≤ a ∧ a < p.addr + placeLen p)) (hr : g.remote = []) : c.directRead k a = ioRead k a := by
  have hf : g.inputs.find? (fun p => decide (p.addr ≤ a) && decide (a < p.addr + placeLen p)) = none :=
    List.find?_eq_none.mpr fun p hm => by simpa using hp p hm
  simp only [Chip.directRead, hk, hf, hr]
  rfl

/-- A direct read of the word of an analog input whose one item is at the port: its value with the lower of the two qualities (R130). -/
theorem directRead_ai (c : Chip) (k : Cls) (g : ClsCfg) (p : Place) (x : Item) (ch : Fin 8) (v : Word) (l : List Word)
    (hk : k.cfg = some g) (hin : g.inputs = [p]) (hsrc : p.src = .ai ch) (hlen : 0 < placeLen p) (hits : k.items = [x])
    (hx : x.src = .ai ch) (hv : x.vals = v :: l) :
    c.directRead k p.addr = toWord (setFieldOf v.toNat 47 44 (qMin (itemQ x) (c.sourceQ (.ai ch)))) := by
  have hf : g.inputs.find? (fun q => decide (q.addr ≤ p.addr) && decide (p.addr < q.addr + placeLen q)) = some p := by
    simp [hin, hlen]
  have ha : arrived k p.src = [x] := by simp [arrived, hits, hx, hsrc]
  have hw : c.latestWord k p 0 = some (toWord (setFieldOf v.toNat 47 44 (qMin (itemQ x) (c.sourceQ (.ai ch))))) := by
    rw [Chip.latestWord, ha]
    simp [sortBy, insertBy, ItemSrc.isSamples, hsrc, hv, embedQ]
  simp only [Chip.directRead, hk, hf, hsrc, Nat.sub_self, hw, Option.getD_some]

/-- An operation of slot M whose one result is a word. -/
theorem gives_load {s : State} {i : Instr} {o : Op} {d : RegNo} {k : Nat} {f : Work → Word} {v : Word} (h : Alone s.chip o)
    (hx : exec i s = s.onChip (fun c => c.issue .m o true (fun w => did (resG d k (f w)))))
    (hw : f (slotTaken .m (s.chip.work o.eng.val)) = f (s.chip.work o.eng.val)) (hv : f (s.chip.work o.eng.val) = v) :
    Gives s i (s.chip.carries o.eng.val (resG d k v) none) :=
  hv ▸ gives_results (r := did _) h hx (by decide) (congrArg (resG d k) hw) (place_resG ..) rfl

/-- Settles O11. -/
theorem loadsDeliverMemory : Obligations.LoadsDeliverMemory := by
  unfold Obligations.LoadsDeliverMemory
  refine ⟨fun c k g a hk => ⟨directRead_unplaced c k g a hk, fun p x ch v l hin hsrc ha hlen hits hx hv => ?_⟩, ?_⟩
  · exact ha ▸ directRead_ai c k g p x ch v l hk hin hsrc hlen hits hx hv
  · intro s o d a x im h c w e ad word bit
    simp only [List.forall_mem_cons, List.not_mem_nil, false_implies, implies_true, and_true]
    refine ⟨?_, ?_, ?_, ?_, ?_, ?_, ?_, ?_⟩
    · exact gives_load h rfl rfl rfl
    · exact gives_load h rfl rfl rfl
    · exact gives_load h rfl rfl rfl
    · exact gives_load h rfl rfl rfl
    · exact gives_load h rfl rfl rfl
    · exact gives_load h rfl rfl rfl
    · exact gives_load h rfl rfl rfl
    · exact gives_load h rfl rfl rfl

/-! ### Stores (R93, R96, R129, R131, R132) -/

/-- Settles O12: each store is one effect, made where the class owns its place. -/
theorem storesWriteMemory : Obligations.StoresWriteMemory := by
  unfold Obligations.StoresWriteMemory
  intro s o v a b x h c w e V ad word bit mine
  have hmine : mine = c.ifOwns e := rfl
  clear_value mine
  subst hmine
  simp only [List.forall_mem_cons, List.not_mem_nil, false_implies, implies_true, and_true]
  refine ⟨?_, ?_, ?_, ?_, ?_, ?_⟩
  · exact gives_issues h rfl (by decide) rfl (storesApart_store rfl) rfl
  · exact gives_issues h rfl (by decide) rfl (storesApart_ifOwns _ _ _ (storesApart_store rfl)) rfl
  · exact gives_issues h rfl (by decide) rfl (storesApart_ioStore c e _ _) (storing_ioStore ..)
  · exact gives_issues h rfl (by decide) rfl ((storesApart_ioStore c e _ _).ite (storesApart_results rfl))
      (congrArg (fun r => if bit < 48 then r else did []) (storing_ioStore ..))
  · have hput := mbputStores_eq c e (0x4000 + ad 14) V
    refine gives_issues h rfl (by decide) rfl ((storesApart_ifOwns c e _ (storesApart_store (p := (2, 0x4000 + ad 14)) ?_)).congr hput) hput
    cases c.boxAt (0x4000 + ad 14) <;> rfl
  · have hsow := sowRecord_eq c e w a b
    exact gives_issues h rfl (by decide) rfl ((storesApart_ifOwns c e _ (storesApart_results rfl)).congr hsow)
      (congrArg (fun r => if pairOk a then r else .error .illegalOpcode) hsow)

end Sys2Proof.Machine
end

section
namespace Sys2Proof.Machine

/-! ### G0 and P0 (R75) -/

@[simp] theorem resG_zero (k : Nat) (v : Word) : resG 0 k v = [] := rfl
theorem resP_zero {n : RegNo} (h : predOf n = 0) (k : Nat) (b : Bool) : resP n k b = [] := if_pos h

theorem mem_resG {f : Eff} {n : RegNo} {k : Nat} {v : Word} (h : f ∈ resG n k v) : n ≠ 0 ∧ f = .res (.g n.toNat) k v := by
  unfold resG at h
  split at h
  · exact absurd h List.not_mem_nil
  · exact ⟨‹_›, List.mem_singleton.mp h⟩

theorem mem_resP {f : Eff} {n : RegNo} {k : Nat} {b : Bool} (h : f ∈ resP n k b) :
    predOf n ≠ 0 ∧ f = .res (.p (predOf n).toNat) k (if b then 1 else 0) := by
  unfold resP at h
  split at h
  · exact absurd h List.not_mem_nil
  · exact ⟨‹_›, List.mem_singleton.mp h⟩

/-- No result names register 0: a write of it is no result at all. -/
theorem not_mem_resG_zero (n : RegNo) (k j : Nat) (v u : Word) : Eff.res (.g 0) j u ∉ resG n k v := fun h =>
  have ⟨hn, he⟩ := mem_resG h
  hn (BitVec.eq_of_toNat_eq (Dest.g.inj (Eff.res.inj he).1).symm)

theorem not_mem_resP_zero (n : RegNo) (k j : Nat) (u : Word) (b : Bool) : Eff.res (.p 0) j u ∉ resP n k b := fun h =>
  have ⟨hn, he⟩ := mem_resP h
  hn (BitVec.eq_of_toNat_eq (Dest.p.inj (Eff.res.inj he).1).symm)

/-- Settles O14: a result of register 0 is no result, and both registers read as constants. -/
theorem writesOfZeroRegistersAreDiscarded : Obligations.WritesOfZeroRegistersAreDiscarded := by
  unfold Obligations.WritesOfZeroRegistersAreDiscarded
  refine ⟨fun s o a x h => ⟨?_, ?_, fun d hd => ?_⟩, fun n k v j x u b p => ⟨?_, not_mem_resP_zero n k j u b⟩, fun w => ⟨rfl, rfl⟩⟩
  · exact gives_results (r := did []) h rfl (by decide) rfl rfl rfl
  · exact gives_results (r := did []) h rfl (by decide) rfl rfl rfl
  · exact gives_results (r := did []) h rfl (by decide) rfl (place_resP ..) (congrArg did (resP_zero hd ..))
  · have hg (m : RegNo) (x : Word) := not_mem_resG_zero m k j x u
    simp only [resS, resD, resT, List.mem_append, not_or]
    exact ⟨⟨⟨hg _ _, hg _ _⟩, hg _ _, hg _ _⟩, hg _ _, hg _ _⟩

end Sys2Proof.Machine
end

section
namespace Sys2Proof.Machine

/-! ### Joining a bundle (R86, R87, R99) -/

/-- The instant that an operation carries leaves its engine ready. -/
theorem ready_timed {c : Chip} {e : Nat} (h : Ready c e) (i : Instr) : Ready (c.timed i) e := by
  obtain ⟨t, ht⟩ := timed_eq c i
  rw [ht]
  exact h

theorem work_timed (c : Chip) (i : Instr) (e : Nat) : (c.timed i).work e = c.work e := by
  obtain ⟨t, ht⟩ := timed_eq c i
  rw [ht]
  rfl

theorem joinBundle_illegal (w : Work) (g : Bool) (q : Option Ctl) (r : Except ProgFault Did) :
    joinBundle w g false q r = setBundle { w.bundle with fault := some .illegalOpcode } w := rfl

theorem joinBundle_squashed (w : Work) (q : Option Ctl) (r : Except ProgFault Did) :
    joinBundle w false true q r = setBundle { w.bundle with ctl := q.or w.bundle.ctl } w := rfl

/-- Joining changes the open bundle alone, and takes no slot itself. -/
theorem joinBundle_eq (w : Work) (g legal : Bool) (q : Option Ctl) (r : Except ProgFault Did) :
    ∃ b, joinBundle w g legal q r = setBundle b w ∧ b.used = w.bundle.used := by
  cases legal with
  | false => exact ⟨_, joinBundle_illegal w g q r, rfl⟩
  | true =>
    cases g with
    | false => exact ⟨_, joinBundle_squashed w q r, rfl⟩
    | true => cases r <;> exact ⟨_, rfl, rfl⟩

/-- What makes an operation legal: its operand fields, the profile of its page, and no delay bundle open if it is a control operation. -/
theorem opLegal_iff (i : Instr) (w : Work) : opLegal i w = true ↔
    operandsLegal i = true ∧ (∀ d, profileOnly i = some d → profD w = d) ∧ (isControl i = true → w.delay = 0) := by
  unfold opLegal
  cases profileOnly i <;> cases isControl i <;> simp [and_assoc]

theorem opLegal_eq_false (i : Instr) (w : Work) (h : operandsLegal i = false ∨ (∃ d, profileOnly i = some d ∧ profD w ≠ d) ∨
    (isControl i = true ∧ w.delay ≠ 0)) : opLegal i w = false := by
  rw [Bool.eq_false_iff, ne_eq, opLegal_iff]
  rintro ⟨hl, hp, hc⟩
  rcases h with h | ⟨d, hd, hne⟩ | ⟨hi, hne⟩
  · exact Bool.false_ne_true (h.symm.trans hl)
  · exact hne (hp d hd)
  · exact hne (hc hi)

/-- A squashed operation alone in its bundle leaves the delay bundles of a branch, call or return (R103). -/
theorem gives_squashed (s : State) (i : Instr) (o : Op) (h : i.op = some o) (hr : Ready s.chip o.eng.val) (hlast : o.last = true)
    (hsl : slotFree (s.chip.work o.eng.val).bundle i.slot = true) (hg : guardOk (s.chip.work o.eng.val) o = false)
    (hl : opLegal i (s.chip.work o.eng.val) = true) : Gives s i ((s.chip.timed i).carries o.eng.val [] (squashCtl i)) := by
  obtain ⟨run, hx⟩ := joins s i o h
  obtain ⟨heffs, hctl, hfault, -⟩ := hr.2.1
  let b : OpenBundle := { (s.chip.work o.eng.val).bundle with ctl := squashCtl i, used := i.slot :: (s.chip.work o.eng.val).bundle.used }
  have hb : b.effs = [] := heffs
  have hc := issueAs_carries (s.chip.timed i) o.eng.val i.slot b
    (fun w => joinBundle w (guardOk w o) (opLegal i (s.chip.work o.eng.val)) (squashCtl i) (run w)) (ready_timed hr i)
    (work_timed s.chip i o.eng.val ▸ hsl) ?_ hfault (by rw [hb]; rfl)
  · rw [hb, ← hlast] at hc
    exact hc ▸ hx
  · have hg' : guardOk (slotTaken i.slot (s.chip.work o.eng.val)) o = false := hg
    rw [work_timed, hl, hg', joinBundle_squashed]
    simp only [slotTaken, hctl, Option.or_none]
    rfl

/-- An illegal operation faults whatever its guard (R87, R99). -/
theorem gives_illegal (s : State) (i : Instr) (o : Op) (h : i.op = some o) (hr : Ready s.chip o.eng.val) (hlast : o.last = true)
    (hsl : slotFree (s.chip.work o.eng.val).bundle i.slot = true) (hl : opLegal i (s.chip.work o.eng.val) = false) :
    Gives s i ((s.chip.timed i).raise o.eng.val .illegalOpcode) := by
  obtain ⟨run, hx⟩ := joins s i o h
  have hc := issueAs_raise (s.chip.timed i) o.eng.val i.slot .illegalOpcode
    { (slotTaken i.slot (s.chip.work o.eng.val)).bundle with fault := some .illegalOpcode }
    (fun w => joinBundle w (guardOk w o) (opLegal i (s.chip.work o.eng.val)) (squashCtl i) (run w)) (ready_timed hr i)
    (work_timed s.chip i o.eng.val ▸ hsl) (by rw [work_timed, hl, joinBundle_illegal]; rfl) rfl
  rw [← hlast] at hc
  exact hc ▸ hx

/-- Bits that stand for no operation of their slot raise an illegal opcode. -/
theorem gives_illegalOpcode (s : State) (e : Fin 32) (slot : Slot) (w : BitVec 32) (hr : Ready s.chip e.val)
    (hsl : slotFree (s.chip.work e.val).bundle slot = true) (hd : decodeOp e true (profD (s.chip.work e.val)) 0 slot w = none) :
    Gives s (.illegalOpcode e true slot w) (s.chip.raise e.val .illegalOpcode) := by
  have hi : isIllegal (s.chip.work e.val) e slot w = true := by simp only [isIllegal, hd]
  have hc := issueAs_raise s.chip e.val slot .illegalOpcode { (slotTaken slot (s.chip.work e.val)).bundle with fault := some .illegalOpcode }
    (fun k => joinBundle k false false none (did [])) hr hsl (joinBundle_illegal ..) rfl
  exact congrArg (fun c => Host.Outcome.next { s with chip := c }) ((if_pos hi).trans hc)

/-- Settles O15. -/
theorem squashedOperationsDoNothingAndIllegalOnesFault : Obligations.SquashedOperationsDoNothingAndIllegalOnesFault := by
  unfold Obligations.SquashedOperationsDoNothingAndIllegalOnesFault
  refine ⟨fun s i o h hr hlast hsl hg hl hp hc => ?_, fun s i o h hr hlast hsl hbad => ?_, fun s e slot w hr hsl hd => ?_⟩
  · exact gives_squashed s i o h hr hlast (hr.2.1.slotFree hsl) hg ((opLegal_iff _ _).mpr ⟨hl, hp, hc⟩)
  · exact gives_illegal s i o h hr hlast (hr.2.1.slotFree hsl) (opLegal_eq_false _ _ hbad)
  · exact gives_illegalOpcode s e slot w hr (hr.2.1.slotFree hsl) hd

/-! ### Gathering a bundle (R85, R102, log 4) -/

theorem issueAs_gathers (c : Chip) (e : Nat) (sl : Slot) (f : Work → Work) (hrun : (c.work e).run = .issuing)
    (hsl : slotFree (c.work e).bundle sl = true) : c.issueAs e sl false f = c.modWork e (fun w => f (slotTaken sl w)) :=
  if_pos ⟨hrun, hsl⟩

theorem issueAs_refused (c : Chip) (e : Nat) (sl : Slot) (last : Bool) (f : Work → Work)
    (h : ¬ ((c.work e).run = .issuing ∧ slotFree (c.work e).bundle sl = true)) : c.issueAs e sl last f = c := if_neg h

theorem slotFree_of_mem {b : OpenBundle} {sl : Slot} (h : sl ∈ b.used) : slotFree b sl = false := by
  rw [slotFree, List.all_eq_false]
  exact ⟨sl, h, by simp⟩

/-- An operation that is not the last of its bundle changes the open bundle alone. -/
theorem gives_gathered (s : State) (i : Instr) (o : Op) (h : i.op = some o) (hlast : o.last = false)
    (hrun : (s.chip.work o.eng.val).run = .issuing) (hsl : slotFree (s.chip.work o.eng.val).bundle i.slot = true) :
    ∃ b', b'.used = i.slot :: (s.chip.work o.eng.val).bundle.used ∧
      Gives s i ((s.chip.timed i).modWork o.eng.val (fun w => { w with bundle := b' })) := by
  obtain ⟨run, hx⟩ := joins s i o h
  have hw := work_timed s.chip i o.eng.val
  let w' := slotTaken i.slot (s.chip.work o.eng.val)
  obtain ⟨b', hb, hused⟩ := joinBundle_eq w' (guardOk w' o) (opLegal i (s.chip.work o.eng.val)) (squashCtl i) (run w')
  refine ⟨b', hused, ?_⟩
  rw [hlast, issueAs_gathers _ _ _ _ (hw ▸ hrun) (hw ▸ hsl)] at hx
  rwa [Chip.modWork_congr _ _ _ (fun w => { w with bundle := b' }) (by rw [hw]; exact hb)] at hx

/-- An engine that does not issue, and a bundle whose slot is taken, take no operation. -/
theorem gives_refused (s : State) (i : Instr) (o : Op) (h : i.op = some o)
    (hno : (s.chip.work o.eng.val).run ≠ .issuing ∨ i.slot ∈ (s.chip.work o.eng.val).bundle.used) : Gives s i (s.chip.timed i) := by
  obtain ⟨run, hx⟩ := joins s i o h
  rwa [issueAs_refused] at hx
  rw [work_timed]
  rintro ⟨hrun, hsl⟩
  rcases hno with hno | hno
  · exact hno hrun
  · exact Bool.false_ne_true ((slotFree_of_mem hno).symm.trans hsl)

/-! ### The last operation issues all of the bundle -/

theorem issueAs_commits (c : Chip) (e : Nat) (sl : Slot) (b : OpenBundle) (f : Work → Work) (hrun : (c.work e).run = .issuing)
    (hsl : slotFree (c.work e).bundle sl = true) (hf : f (slotTaken sl (c.work e)) = setBundle b (c.work e)) :
    c.issueAs e sl true f = (c.modWork e (setBundle b)).commit e :=
  (if_pos ⟨hrun, hsl⟩).trans (congrArg (Chip.commit · e) (Chip.modWork_congr _ _ _ _ hf))

theorem commit_setBundle_ok (c : Chip) (e : Nat) (b : OpenBundle) (hs : c.signatureOk e = true)
    (hb : bundleFault (setBundle b (c.work e)) = none) : (c.modWork e (setBundle b)).commit e = c.carries e b.effs b.ctl := by
  rw [commit_ok _ _ ((signatureOk_setBundle ..).trans hs) (by rwa [Chip.work_modWork_same]), carries_setBundle, Chip.work_modWork_same]
  rfl

theorem commit_setBundle_fault (c : Chip) (e : Nat) (b : OpenBundle) (p : ProgFault) (hs : c.signatureOk e = true)
    (hb : bundleFault (setBundle b (c.work e)) = some p) : (c.modWork e (setBundle b)).commit e = c.raise e p := by
  rw [commit_fault _ _ p ((signatureOk_setBundle ..).trans hs) (by rwa [Chip.work_modWork_same]), raise_setBundle]

/-- What may stand before the last operation of a bundle: the engine issues, nothing has failed, no result in flight meets in it, and the
signature is the one expected (R143). -/
structure Gathered (c : Chip) (o : Op) (l : List Eff) (ctl : Option Ctl) : Prop where
  run : (c.work o.eng.val).run = .issuing
  effs : (c.work o.eng.val).bundle.effs = l
  ctl : (c.work o.eng.val).bundle.ctl = ctl
  fault : (c.work o.eng.val).bundle.fault = none
  last : o.last = true
  guard : guardOk (c.work o.eng.val) o = true
  due : dueAt (c.work o.eng.val).flights (c.work o.eng.val).issued = []
  sig : c.signatureOk o.eng.val = true

/-- The effects of the last operation join those gathered, and the bundle issues them together, or faults where two stores meet (R107). -/
theorem Gathered.issue {c : Chip} {o : Op} {l : List Eff} {ctl : Option Ctl} (h : Gathered c o l ctl) {sl : Slot} {res : Work → List Eff}
    (hsl : slotFree (c.work o.eng.val).bundle sl = true) (hw : res (slotTaken sl (c.work o.eng.val)) = res (c.work o.eng.val)) :
    c.issue sl o true (fun w => did (res w)) = if storesCollide (l ++ res (c.work o.eng.val)) then c.raise o.eng.val .writeCollision
      else c.carries o.eng.val (l ++ res (c.work o.eng.val)) ctl := by
  let b : OpenBundle := { (slotTaken sl (c.work o.eng.val)).bundle with effs := l ++ res (c.work o.eng.val), ctl := ctl }
  have hf : joinBundle (slotTaken sl (c.work o.eng.val)) (guardOk (slotTaken sl (c.work o.eng.val)) o) true none
      (did (res (slotTaken sl (c.work o.eng.val)))) = setBundle b (c.work o.eng.val) := by
    have hg : guardOk (slotTaken sl (c.work o.eng.val)) o = true := h.guard
    simp only [hg, hw, joinBundle, did, b, ← h.effs, ← h.ctl]
    rfl
  have hbf : bundleFault (setBundle b (c.work o.eng.val)) =
      if storesCollide (l ++ res (c.work o.eng.val)) then some .writeCollision else none := by
    simp [bundleFault, setBundle, b, slotTaken, h.fault, h.due]
  rw [Chip.issue, h.last, issueAs_commits c _ sl b _ h.run hsl hf]
  split
  next hc => exact commit_setBundle_fault c _ b _ h.sig (hbf.trans (if_pos hc))
  next hc => exact commit_setBundle_ok c _ b h.sig (hbf.trans (if_neg hc))

/-! ### Stores that meet (R107) -/

/-- No two stores of a bundle meet where their places all differ. -/
theorem storesCollide_eq_false_iff (l : List Eff) : storesCollide l = false ↔ (l.filterMap Eff.place).Nodup := by
  rw [List.nodup_iff_count_le_one, storesCollide, List.any_eq_false]
  simp only [decide_eq_true_eq, Nat.not_lt]
  exact ⟨fun h p => if hp : p ∈ l.filterMap Eff.place then h p hp else (List.count_eq_zero.mpr hp).trans_le (Nat.zero_le 1), fun h p _ => h p⟩

theorem storesCollide_append_results {l l' : List Eff} (h : l'.filterMap Eff.place = []) : storesCollide (l ++ l') = storesCollide l := by
  simp only [storesCollide, List.filterMap_append, h, List.append_nil]

/-- The only effect with a place in D-space is a store there. -/
theorem mem_places_dmem {l : List Eff} {a : Nat} : (0, a) ∈ l.filterMap Eff.place ↔ ∃ u, Eff.dmem a u ∈ l := by
  rw [List.mem_filterMap]
  constructor
  · rintro ⟨f, hf, hp⟩
    cases f with
    | dmem b u => cases hp; exact ⟨u, hf⟩
    | _ => cases hp
  · rintro ⟨u, hu⟩
    exact ⟨_, hu, rfl⟩

/-- A further store of D-space meets none of the others where none goes to its word. -/
theorem storesCollide_append_dmem {l : List Eff} (a : Nat) (v : Word) (hl : storesCollide l = false) :
    storesCollide (l ++ [.dmem a v]) = false ↔ ∀ u, Eff.dmem a u ∉ l := by
  rw [storesCollide_eq_false_iff] at hl ⊢
  have hp : (l ++ [Eff.dmem a v]).filterMap Eff.place = l.filterMap Eff.place ++ [(0, a)] := List.filterMap_append
  rw [hp, ← List.concat_eq_append, List.nodup_concat, mem_places_dmem, not_exists]
  exact and_iff_left hl

/-! ### `nop` and `imm` (R87, R89, R90) -/

/-- What `imm` makes of the work whose slot C it takes: its bundle holds the immediate, but faults in a delay bundle (log 138). -/
def immJoined (sx : Bool) (x : BitVec 28) (w : Work) : Work :=
  if w.delay = 0 then { w with bundle := { w.bundle with imm := some (sx, x) } }
  else { w with bundle := { w.bundle with fault := some .illegalOpcode } }

theorem exec_imm (e : Fin 32) (last sx : Bool) (x : BitVec 28) (s : State) :
    exec (.imm e last sx x) s = .next { s with chip := s.chip.issueAs e.val .c last (immJoined sx x) } := rfl

section
variable (s : State) (e : Fin 32) (h : Ready s.chip e.val)
include h

/-- A fresh bundle has the next slot in the order of commanding free. -/
theorem slotFree_nextSlot : slotFree (s.chip.work e.val).bundle (nextSlot (s.chip.work e.val).bundle) = true := by
  obtain ⟨-, ⟨-, -, -, hused⟩, -, -⟩ := h
  unfold slotFree nextSlot
  rw [hused]
  cases (s.chip.work e.val).bundle.imm <;> rfl

theorem gives_nop_last : Gives s (.nop e true) (s.chip.carries e.val [] none) := by
  obtain ⟨heffs, hctl, hfault, -⟩ := h.2.1
  have hc := issueAs_carries s.chip e.val (nextSlot (s.chip.work e.val).bundle)
    (slotTaken (nextSlot (s.chip.work e.val).bundle) (s.chip.work e.val)).bundle id h (slotFree_nextSlot s e h) rfl hfault
    (storesCollide_none _ (congrArg (List.filterMap Eff.place) heffs))
  exact congrArg (fun c => Host.Outcome.next { s with chip := c }) (hc.trans (congrArg₂ (s.chip.carries e.val) heffs hctl))

theorem gives_nop_gathered : Gives s (.nop e false) (s.chip.modWork e.val (fun w =>
    { w with bundle := { w.bundle with used := nextSlot w.bundle :: w.bundle.used } })) := by
  have hc := issueAs_gathers s.chip e.val (nextSlot (s.chip.work e.val).bundle) id h.1 (slotFree_nextSlot s e h)
  have hw : s.chip.modWork e.val (slotTaken (nextSlot (s.chip.work e.val).bundle)) = s.chip.modWork e.val (fun w =>
      { w with bundle := { w.bundle with used := nextSlot w.bundle :: w.bundle.used } }) := Chip.modWork_congr _ _ _ _ rfl
  exact congrArg (fun c => Host.Outcome.next { s with chip := c }) (hc.trans hw)

theorem gives_imm (sx : Bool) (x : BitVec 28) (hi : (s.chip.work e.val).bundle.imm = none) (hd : (s.chip.work e.val).delay = 0) :
    Gives s (.imm e true sx x) (s.chip.carries e.val [] none) := by
  obtain ⟨heffs, hctl, hfault, -⟩ := h.2.1
  have hc := issueAs_carries s.chip e.val .c { (slotTaken .c (s.chip.work e.val)).bundle with imm := some (sx, x) }
    (immJoined sx x) h (h.2.1.slotFree (.inr hi)) (if_pos hd) hfault
    (storesCollide_none _ (congrArg (List.filterMap Eff.place) heffs))
  rw [Gives, exec_imm, hc]
  exact congrArg (fun c => Host.Outcome.next { s with chip := c }) (congrArg₂ (s.chip.carries e.val) heffs hctl)

theorem gives_imm_delay (sx : Bool) (x : BitVec 28) (hi : (s.chip.work e.val).bundle.imm = none) (hd : (s.chip.work e.val).delay ≠ 0) :
    Gives s (.imm e true sx x) (s.chip.raise e.val .illegalOpcode) := by
  have hc := issueAs_raise s.chip e.val .c .illegalOpcode { (slotTaken .c (s.chip.work e.val)).bundle with fault := some .illegalOpcode }
    (immJoined sx x) h (h.2.1.slotFree (.inr hi)) (if_neg hd) rfl
  rw [Gives, exec_imm, hc]

end

/-- Settles O16. -/
theorem bundlesGatherAndTakeEffectWhole : Obligations.BundlesGatherAndTakeEffectWhole := by
  unfold Obligations.BundlesGatherAndTakeEffectWhole
  refine ⟨fun s i o h => ⟨fun hlast hrun hsl => gives_gathered s i o h hlast hrun hsl, gives_refused s i o h⟩, ?_, ?_⟩
  · intro s o d a v x l ctl im us w hrun hb hlast hg hdue hstores hsig
    have hgath : Gathered s.chip o l ctl := ⟨hrun, congrArg OpenBundle.effs hb, congrArg OpenBundle.ctl hb, congrArg OpenBundle.fault hb,
      hlast, hg, hdue, hsig⟩
    have whole : ∀ {i : Instr} {sl : Slot} {res : Work → List Eff}, Gives s i (s.chip.issue sl o true (fun w => did (res w))) →
        slotFree w.bundle sl = true → res (slotTaken sl w) = res w → storesCollide (l ++ res w) = false →
        Gives s i (s.chip.carries o.eng.val (l ++ res w) ctl) := fun hx hsl hw hs => by
      rwa [hgath.issue hsl hw, if_neg (Bool.eq_false_iff.mp hs)] at hx
    have hres : ∀ {l' : List Eff}, l'.filterMap Eff.place = [] → storesCollide (l ++ l') = false := fun h =>
      (storesCollide_append_results h).trans hstores
    refine ⟨fun hsl => ?_, fun hsl => ?_, fun hsl => ?_, fun ad had hsl hno => ?_, fun ad u had hsl hm => ?_⟩
    · exact whole (res := fun w => resG d 1 (gRead w a + srcVal w true x)) rfl hsl rfl (hres (place_resG ..))
    · exact whole (res := fun _ => [.push]) rfl hsl rfl (hres rfl)
    · exact whole (res := fun _ => [.rcl]) rfl hsl rfl (hres rfl)
    · subst had
      exact whole (res := fun w => [.dmem (addrOf w 15 a x) (gRead w v)]) rfl hsl rfl ((storesCollide_append_dmem _ _ hstores).mpr hno)
    · subst had
      have hmeet : storesCollide (l ++ [.dmem (addrOf w 15 a x) (gRead w v)]) = true := by
        rw [← Bool.not_eq_false, storesCollide_append_dmem _ _ hstores]
        exact fun hno => hno u hm
      have hx : Gives s (.stD o v a x) (s.chip.issue .m o true (fun w => did [.dmem (addrOf w 15 a x) (gRead w v)])) := rfl
      rwa [hgath.issue hsl rfl, if_pos hmeet] at hx
  · intro s e sx x i h
    refine ⟨gives_nop_last s e h, gives_nop_gathered s e h, gives_imm s e h sx x, gives_imm_delay s e h sx x, fun w hw signed => ?_⟩
    simp only [immVal, hw]

end Sys2Proof.Machine
end

section
namespace Sys2Proof.Machine

/-! ### Results that become visible (R101, R107) -/

/-- What a destination holds once a result has landed there. -/
def Holds (a : Arch) (d : Dest) (v : Word) : Prop := match d with
  | .g n => WMem.get a.g n = v
  | .p n => n < 16 → a.p.getLsbD n = v.getLsbD 0
  | .ba => a.ba = v.getLsbD 0

/-- Two states hold the same at a destination. -/
def SameAt (a b : Arch) (d : Dest) : Prop := match d with
  | .g n => WMem.get a.g n = WMem.get b.g n
  | .p n => a.p.getLsbD n = b.p.getLsbD n
  | .ba => a.ba = b.ba

theorem SameAt.refl (a : Arch) (d : Dest) : SameAt a a d := by cases d <;> exact rfl
theorem SameAt.trans {a b c : Arch} {d : Dest} (h : SameAt a b d) (h' : SameAt b c d) : SameAt a c d := by
  cases d <;> exact Eq.trans h h'
theorem Holds.of_same {a b : Arch} {d : Dest} {v : Word} (h : Holds b d v) (hs : SameAt a b d) : Holds a d v := by
  cases d with
  | g n => exact Eq.trans hs h
  | p n => exact fun hn => Eq.trans hs (h hn)
  | ba => exact Eq.trans hs h

theorem getLsbD_setFieldOf_bit (p : BitVec 16) (n i : Nat) (v : Word) :
    (BitVec.ofNat 16 (setFieldOf p.toNat n n v.toNat)).getLsbD i = if i = n then decide (n < 16) && v.getLsbD 0 else p.getLsbD i := by
  rw [BitVec.getLsbD_ofNat, testBit_setFieldOf _ _ _ _ _ (Nat.le_refl n)]
  by_cases h : i = n
  · subst h
    rw [if_pos ⟨Nat.le_refl i, Nat.le_refl i⟩, if_pos rfl, Nat.sub_self]
    rfl
  · rw [if_neg (by omega), if_neg h]
    by_cases hi : i < 16
    · rw [decide_eq_true hi, Bool.true_and]
      rfl
    · rw [decide_eq_false hi, Bool.false_and, BitVec.getLsbD_of_ge _ _ (Nat.le_of_not_lt hi)]

theorem holds_landOne (a : Arch) (f : Flight) : Holds (landOne a f) f.dest f.val := by
  unfold landOne
  cases f.dest with
  | g n => exact WMem.get_set_same ..
  | p n => exact fun hn => by rw [getLsbD_setFieldOf_bit, if_pos rfl, decide_eq_true hn, Bool.true_and]
  | ba => exact rfl

theorem sameAt_landOne (a : Arch) (f : Flight) {d : Dest} (h : d ≠ f.dest) : SameAt (landOne a f) a d := by
  unfold landOne
  cases hf : f.dest with
  | g n =>
    cases d with
    | g m =>
      have hne : m ≠ n := fun hm => h (hm ▸ hf.symm)
      exact WMem.get_set_other _ _ _ _ hne
    | p m => exact rfl
    | ba => exact rfl
  | p n =>
    cases d with
    | g m => exact rfl
    | p m =>
      have hne : m ≠ n := fun hm => h (hm ▸ hf.symm)
      exact (getLsbD_setFieldOf_bit ..).trans (if_neg hne)
    | ba => exact rfl
  | ba =>
    cases d with
    | g m => exact rfl
    | p m => exact rfl
    | ba => exact absurd hf.symm h

theorem sameAt_landAll (l : List Flight) (a : Arch) {d : Dest} (h : ∀ f ∈ l, d ≠ f.dest) : SameAt (l.foldl landOne a) a d := by
  induction l generalizing a with
  | nil => exact SameAt.refl a d
  | cons f l ih =>
    rw [List.forall_mem_cons] at h
    exact (ih (landOne a f) h.2).trans (sameAt_landOne a f h.1)

/-- A result that no other one meets stands at its destination once all have landed. -/
theorem holds_landAll (l : List Flight) (a : Arch) {f : Flight} (hf : f ∈ l) (h : ∀ g ∈ l, g.dest = f.dest → g = f) :
    Holds (l.foldl landOne a) f.dest f.val := by
  induction l generalizing a with
  | nil => cases hf
  | cons g l ih =>
    rw [List.forall_mem_cons] at h
    by_cases hm : f ∈ l
    · exact ih (landOne a g) hm h.2
    · obtain rfl : f = g := (List.mem_cons.mp hf).resolve_right hm
      exact (holds_landOne a f).of_same (sameAt_landAll l _ fun g hg hd => hm (h.2 g hg hd.symm ▸ hg))

/-- Whether a result meets another depends on its bundle and destination alone. -/
theorem meets_congr {l : List Flight} {f g : Flight} (hd : g.due = f.due) (hg : g.dest = f.dest) : meets l g = meets l f := by
  unfold meets
  rw [hd, hg]

theorem eq_of_meets_eq_false {l : List Flight} {f g : Flight} (h : meets l f = false) (hf : f ∈ l) (hg : g ∈ l) (hd : g.due = f.due)
    (hdest : g.dest = f.dest) : g = f := by
  have hlen : (l.filter (fun x => x.due == f.due && x.dest == f.dest)).length ≤ 1 := by
    simpa [meets] using h
  have hf' : f ∈ l.filter (fun x => x.due == f.due && x.dest == f.dest) := List.mem_filter.mpr ⟨hf, by simp⟩
  have hg' : g ∈ l.filter (fun x => x.due == f.due && x.dest == f.dest) := List.mem_filter.mpr ⟨hg, by simp [hd, hdest]⟩
  match hl : l.filter (fun x => x.due == f.due && x.dest == f.dest) with
  | [] => exact absurd (hl ▸ hf') List.not_mem_nil
  | [x] => exact (List.mem_singleton.mp (hl ▸ hg')).trans (List.mem_singleton.mp (hl ▸ hf')).symm
  | x :: y :: r => exact absurd (hl ▸ hlen) (by simp)

theorem mem_dueAt {l : List Flight} {i : Nat} {f : Flight} : f ∈ dueAt l i ↔ f ∈ l ∧ f.due = i := by
  rw [dueAt, List.mem_filter, beq_iff_eq]

/-! ### What the next bundle finds (R92, R103) -/

/-- Where issue goes next changes return stack, loops, PC and delay bundles alone. -/
theorem nextPc_eq (w : Work) (ctl : Option Ctl) : ∃ ret loops pc delay target, nextPc w ctl =
    { w with arch := { w.arch with ret := ret, loops := loops, pc := pc }, delay := delay, target := target } := by
  unfold nextPc
  dsimp only
  split
  · split
    · split <;> exact ⟨_, _, _, _, _, rfl⟩
    · exact ⟨_, _, _, _, _, rfl⟩
  · split
    · exact ⟨_, _, _, _, _, rfl⟩
    · exact ⟨_, _, _, _, _, rfl⟩
    · exact ⟨_, _, _, _, _, rfl⟩
    · exact ⟨_, _, _, _, _, rfl⟩
    · exact ⟨_, _, _, _, _, rfl⟩
    · split <;> exact ⟨_, _, _, _, _, rfl⟩
    · exact ⟨_, _, _, _, _, rfl⟩

/-- A work once its bundle has issued: signature and counts, the flow of control, and the results that land. -/
theorem nextWork_eq (w : Work) (pcw : Nat) (ctl : Option Ctl) : ∃ ret loops pc delay target, nextWork w pcw ctl = land
    { w with arch := { w.arch with sig := Config.sigStep w.arch.sig pcw, ret := ret, loops := loops, pc := pc }, delay := delay,
             target := target, ended := some w.arch.pc, bundle := emptyBundle, issued := w.issued + 1, sinceMs := w.sinceMs + 1 }
    (w.issued + 1) := by
  obtain ⟨ret, loops, pc, delay, target, h⟩ := nextPc_eq
    { w with arch := { w.arch with sig := Config.sigStep w.arch.sig pcw }, ended := some w.arch.pc } ctl
  refine ⟨ret, loops, pc, delay, target, ?_⟩
  rw [nextWork, h]

/-- What the results due at the next bundle find: the registers of a work as its bundle leaves them. -/
theorem nextWork_lands (w : Work) (pcw : Nat) (ctl : Option Ctl) :
    (nextWork w pcw ctl).flights = w.flights.filter (fun f => f.due != w.issued + 1 || meets w.flights f) ∧
    (nextWork w pcw ctl).issued = w.issued + 1 ∧
    ∃ a : Arch, (∀ d, SameAt a w.arch d) ∧
      (nextWork w pcw ctl).arch = ((dueAt w.flights (w.issued + 1)).filter (fun f => !meets w.flights f)).foldl landOne a := by
  obtain ⟨ret, loops, pc, delay, target, h⟩ := nextWork_eq w pcw ctl
  rw [h]
  exact ⟨rfl, rfl, _, fun d => by cases d <;> exact rfl, rfl⟩

/-- Results that do not meet land, and every other one stays in flight. -/
theorem nextWork_results (w : Work) (pcw : Nat) (ctl : Option Ctl) (hm : ∀ f ∈ w.flights, f.due = w.issued + 1 → meets w.flights f = false) :
    (nextWork w pcw ctl).flights = w.flights.filter (fun f => f.due != w.issued + 1) ∧
    (∀ f ∈ w.flights, f.due = w.issued + 1 → Holds (nextWork w pcw ctl).arch f.dest f.val) := by
  obtain ⟨hf, -, a, -, harch⟩ := nextWork_lands w pcw ctl
  refine ⟨hf.trans (List.filter_congr fun f hfm => ?_), fun f hfm hd => ?_⟩
  · by_cases hd : f.due = w.issued + 1
    · rw [hm f hfm hd, Bool.or_false]
    · rw [bne_iff_ne.mpr hd, Bool.true_or]
  · rw [harch]
    refine holds_landAll _ _ (List.mem_filter.mpr ⟨mem_dueAt.mpr ⟨hfm, hd⟩, by rw [hm f hfm hd]; rfl⟩) fun g hg hdest => ?_
    obtain ⟨hgm, hgd⟩ := mem_dueAt.mp (List.mem_of_mem_filter hg)
    exact eq_of_meets_eq_false (hm f hfm hd) hfm hgm (hgd.trans hd.symm) hdest

/-- A destination at which nothing lands keeps what it holds. -/
theorem nextWork_sameAt (w : Work) (pcw : Nat) (ctl : Option Ctl) {d : Dest}
    (h : ∀ f ∈ w.flights, f.due = w.issued + 1 → meets w.flights f = false → d ≠ f.dest) : SameAt (nextWork w pcw ctl).arch w.arch d := by
  obtain ⟨-, -, a, ha, harch⟩ := nextWork_lands w pcw ctl
  rw [harch]
  refine (sameAt_landAll _ _ fun f hf => ?_).trans (ha d)
  obtain ⟨hdue, hmeet⟩ := List.mem_filter.mp hf
  obtain ⟨hfm, hd⟩ := mem_dueAt.mp hdue
  exact h f hfm hd (by simpa using hmeet)

theorem nextWork_sameAt_of_noneDue (w : Work) (pcw : Nat) (ctl : Option Ctl) {d : Dest} (h : NoneDue w d) :
    SameAt (nextWork w pcw ctl).arch w.arch d := nextWork_sameAt w pcw ctl fun f hf hd _ he => h f hf ⟨hd, he.symm⟩

/-- Results that meet leave their destination, and are still due when their bundle issues. -/
theorem nextWork_meeting (w : Work) (pcw : Nat) (ctl : Option Ctl) {f : Flight} (hf : f ∈ w.flights) (hd : f.due = w.issued + 1)
    (hm : meets w.flights f = true) : f ∈ dueAt (nextWork w pcw ctl).flights (nextWork w pcw ctl).issued ∧
      SameAt (nextWork w pcw ctl).arch w.arch f.dest := by
  obtain ⟨hfl, hi, -⟩ := nextWork_lands w pcw ctl
  refine ⟨?_, nextWork_sameAt w pcw ctl fun g _ hgd hgm he => ?_⟩
  · rw [hi, mem_dueAt, hfl, List.mem_filter]
    exact ⟨⟨hf, by rw [hm, Bool.or_true]⟩, hd⟩
  · exact Bool.false_ne_true (hgm.symm.trans ((meets_congr (hgd.trans hd.symm) he.symm).trans hm))

/-! ### The bundle at which results meet (R107, R108) -/

theorem joinBundle_ok_fault (w : Work) (g : Bool) (d : Did) :
    ∃ b, joinBundle w g true none (.ok d) = setBundle b w ∧ b.fault = w.bundle.fault := by
  cases g <;> exact ⟨_, rfl, rfl⟩

theorem bundleFault_of_due {w : Work} (hf : w.bundle.fault = none) (hd : dueAt w.flights w.issued ≠ []) :
    bundleFault w = some .writeCollision := by
  simp [bundleFault, hf, hd]

/-- An operation that is alone in a bundle at which results meet raises the write collision. -/
theorem issue_collides (c : Chip) (sl : Slot) (o : Op) (d : Work → Did) (hrun : (c.work o.eng.val).run = .issuing)
    (hb : (c.work o.eng.val).bundle = emptyBundle) (hlast : o.last = true)
    (hdue : dueAt (c.work o.eng.val).flights (c.work o.eng.val).issued ≠ []) (hsig : c.signatureOk o.eng.val = true) :
    c.issue sl o true (fun w => .ok (d w)) = c.raise o.eng.val .writeCollision := by
  let w' := slotTaken sl (c.work o.eng.val)
  obtain ⟨b, hj, hbf⟩ := joinBundle_ok_fault w' (guardOk w' o) (d w')
  have hfault : b.fault = none := hbf.trans (congrArg OpenBundle.fault hb)
  rw [Chip.issue, hlast, issueAs_commits c _ sl b _ hrun (by rw [hb]; rfl) hj]
  exact commit_setBundle_fault c _ b _ hsig (bundleFault_of_due hfault hdue)

/-- Settles O17. -/
theorem resultsLandAtTheirBundleOrCollide : Obligations.ResultsLandAtTheirBundleOrCollide := by
  unfold Obligations.ResultsLandAtTheirBundleOrCollide
  refine ⟨?_, ?_, ?_⟩
  · intro w pcw ctl w' hm
    obtain ⟨hfl, hland⟩ := nextWork_results w pcw ctl hm
    have same : ∀ {d}, NoneDue w d → SameAt w'.arch w.arch d := nextWork_sameAt_of_noneDue w pcw ctl
    exact ⟨hfl, hland, fun n => same, fun n => same, same, (nextWork_lands w pcw ctl).2.1⟩
  · intro w pcw ctl f w' hf hd hm
    exact nextWork_meeting w pcw ctl hf hd hm
  · intro s o d a x w hrun hb hlast hdue hsig
    exact congrArg (fun c => Host.Outcome.next { s with chip := c }) (issue_collides s.chip .a o _ hrun hb hlast hdue hsig)

end Sys2Proof.Machine
end

section
namespace Sys2Proof.Machine

/-! ### The flow of control (R92, R103, R104, R133, R134) -/

/-- What decides where a work issues next. -/
structure Flow where
  pc     : Nat
  ret    : List Nat
  loops  : List LoopLvl
  delay  : Nat
  target : Option Nat

def flowOf (w : Work) : Flow := ⟨w.arch.pc, w.arch.ret, w.arch.loops, w.delay, w.target⟩

/-- Sequential issue, hardware loops included. -/
def Flow.seq (f : Flow) : Flow := { f with pc := (loopNext f.pc f.loops).2, loops := (loopNext f.pc f.loops).1 }

/-- Landing results change nothing of the flow. -/
theorem flowOf_land (w : Work) (i : Nat) : flowOf (land w i) = flowOf w := by
  obtain ⟨-, -, hret, hloops, hpc⟩ := landAll_keeps ((dueAt w.flights i).filter (fun f => !meets w.flights f)) w.arch
  simp only [flowOf, land, hret, hloops, hpc]

/-- Neither signature nor counts nor landing results decide where issue goes. -/
theorem flowOf_nextWork (w : Work) (pcw : Nat) (ctl : Option Ctl) : flowOf (nextWork w pcw ctl) =
    flowOf (nextPc { w with arch := { w.arch with sig := Config.sigStep w.arch.sig pcw }, ended := some w.arch.pc } ctl) :=
  (flowOf_land _ _).trans rfl

section
variable {w : Work} (pcw : Nat)

/-! The flow after a bundle outside delay bundles, by its control operation. -/

section
variable (h : w.delay = 0)
include h

theorem flow_none : flowOf (nextWork w pcw none) = (flowOf w).seq := by
  rw [flowOf_nextWork]; simp [nextPc, h, flowOf, Flow.seq, seqPc]
theorem flow_branch (d : Option Nat) :
    flowOf (nextWork w pcw (some (.branch d))) = { (flowOf w).seq with delay := 2, target := d } := by
  rw [flowOf_nextWork]; simp [nextPc, h, flowOf, Flow.seq, seqPc]
theorem flow_call (d : Nat) : flowOf (nextWork w pcw (some (.callTo (some d)))) = { (flowOf w).seq with
    delay := 2, target := some d, ret := ((w.arch.pc + 3) % bundles :: w.arch.ret).take 8 } := by
  rw [flowOf_nextWork]; simp [nextPc, h, flowOf, Flow.seq, seqPc]
theorem flow_ret : flowOf (nextWork w pcw (some (.retTo true))) = { (flowOf w).seq with
    delay := 2, target := some (w.arch.ret.headD 0), ret := w.arch.ret.tail } := by
  rw [flowOf_nextWork]; simp [nextPc, h, flowOf, Flow.seq, seqPc]
theorem flow_loop_zero (stop : Nat) :
    flowOf (nextWork w pcw (some (.loopTo stop 0))) = { flowOf w with pc := (stop + 1) % bundles } := by
  rw [flowOf_nextWork]; simp [nextPc, h, flowOf]
theorem flow_loop (stop : Nat) {n : Nat} (hn : 0 < n) : flowOf (nextWork w pcw (some (.loopTo stop n))) = { flowOf w with
    pc := (w.arch.pc + 1) % bundles, loops := (⟨(w.arch.pc + 1) % bundles, stop, n⟩ :: w.arch.loops).take 2 } := by
  rw [flowOf_nextWork]; simp [nextPc, h, flowOf, Nat.ne_of_gt hn]

end

/-! The flow through two delay bundles, in no loop: the second one ends at the target, or goes on where the transfer was squashed. -/

theorem flow_delay_first {ctl : Option Ctl} {pc : Nat} {ret : List Nat} {t : Option Nat} (h : flowOf w = ⟨pc, ret, [], 2, t⟩) :
    flowOf (nextWork w pcw ctl) = ⟨(pc + 1) % bundles, ret, [], 1, t⟩ := by
  obtain ⟨rfl, rfl, hl, hd, rfl⟩ := Flow.mk.inj h
  rw [flowOf_nextWork]; simp [nextPc, hd, hl, flowOf, seqPc, loopNext]
theorem flow_delay_target {ctl : Option Ctl} {pc t : Nat} {ret : List Nat} (h : flowOf w = ⟨pc, ret, [], 1, some t⟩) :
    flowOf (nextWork w pcw ctl) = ⟨t, ret, [], 0, none⟩ := by
  obtain ⟨rfl, rfl, hl, hd, ht⟩ := Flow.mk.inj h
  rw [flowOf_nextWork]; simp [nextPc, hd, hl, ht, flowOf]
theorem flow_delay_squashed {ctl : Option Ctl} {pc : Nat} {ret : List Nat} (h : flowOf w = ⟨pc, ret, [], 1, none⟩) :
    flowOf (nextWork w pcw ctl) = ⟨(pc + 1) % bundles, ret, [], 0, none⟩ := by
  obtain ⟨rfl, rfl, hl, hd, ht⟩ := Flow.mk.inj h
  rw [flowOf_nextWork]; simp [nextPc, hd, hl, ht, flowOf, seqPc, loopNext]

end

/-- At the last bundle of a hardware loop: back to its start while iterations are left, then on (R104). -/
theorem loopNext_end (a b k : Nat) : loopNext b [⟨a, b, k⟩] = if 1 < k then ([⟨a, b, k - 1⟩], a) else ([], (b + 1) % bundles) := by
  simp [loopNext]

/-- Settles O20: the flow after the transfer and after each of its two delay bundles. -/
theorem issueFollowsControl : Obligations.IssueFollowsControl := by
  unfold Obligations.IssueFollowsControl
  intro w p q t n hd hl on
  have hseq : (flowOf w).seq = ⟨(w.arch.pc + 1) % bundles, w.arch.ret, [], 0, w.target⟩ := by
    simp only [Flow.seq, flowOf, hl, hd, loopNext]
  have hbranch : ∀ d, flowOf (nextWork w p (some (.branch d))) = ⟨(w.arch.pc + 1) % bundles, w.arch.ret, [], 2, d⟩ := fun d =>
    (flow_branch p hd d).trans (by rw [hseq])
  have hat : ∀ d, flowOf (nextWork w p (some (.branch d))) = ⟨(nextWork w p (some (.branch d))).arch.pc, w.arch.ret, [], 2, d⟩ := fun d =>
    (hbranch d).trans (congrArg (Flow.mk · w.arch.ret [] 2 d) (congrArg Flow.pc (hbranch d)).symm)
  have hcall := (flow_call p hd t).trans (by rw [hseq])
  have hret := (flow_ret p hd).trans (by rw [hseq])
  refine ⟨?_, ⟨?_, ?_, ?_, ?_⟩, ⟨?_, ?_⟩, ⟨?_, ?_⟩, ⟨?_, ?_⟩, ?_, fun hn => ?_, fun a b k => ?_⟩
  · exact congrArg Flow.pc ((flow_none q hd).trans hseq)
  · exact congrArg Flow.pc (hbranch (some t))
  · exact congrArg Flow.pc (flow_delay_first q (hat (some t)))
  · exact congrArg Flow.pc (flow_delay_target q (flow_delay_first q (hbranch (some t))))
  · exact congrArg Flow.delay (flow_delay_target q (flow_delay_first q (hbranch (some t))))
  · exact congrArg Flow.pc (flow_delay_squashed q (flow_delay_first q (hat none)))
  · exact congrArg Flow.delay (flow_delay_squashed q (flow_delay_first q (hbranch none)))
  · exact congrArg Flow.pc (flow_delay_target q (flow_delay_first q hcall))
  · exact congrArg Flow.ret hcall
  · exact congrArg Flow.pc (flow_delay_target q (flow_delay_first q hret))
  · exact congrArg Flow.ret hret
  · exact congrArg Flow.pc (flow_loop_zero p hd t)
  · have hloop := flow_loop p hd t hn
    rw [hl] at hloop
    exact ⟨congrArg Flow.pc hloop, congrArg Flow.loops hloop⟩
  · let w1 : Work := { w with arch := { w.arch with pc := b, loops := [⟨a, b, k⟩] } }
    have hpc : (on w1).arch.pc = (loopNext b [⟨a, b, k⟩]).2 := congrArg Flow.pc (flow_none (w := w1) q hd)
    have hloops : (on w1).arch.loops = (loopNext b [⟨a, b, k⟩]).1 := congrArg Flow.loops (flow_none (w := w1) q hd)
    rw [loopNext_end] at hpc hloops
    refine ⟨fun hk => ?_, fun hk => ?_⟩
    · rw [if_pos hk] at hpc hloops
      exact ⟨hpc, hloops⟩
    · rw [if_neg (Nat.not_lt.mpr hk)] at hpc hloops
      exact ⟨hpc, hloops⟩

end Sys2Proof.Machine
end

section
namespace Sys2Proof.Machine

/-! ### The frame of a result (R98, R101) -/

/-- What issuing a bundle leaves of its work, whatever lands. -/
theorem nextWork_keeps (w : Work) (pcw : Nat) (ctl : Option Ctl) : (nextWork w pcw ctl).arch.rung = w.arch.rung ∧
    (nextWork w pcw ctl).undo = w.undo ∧ (nextWork w pcw ctl).flags = w.flags ∧ (nextWork w pcw ctl).run = w.run := by
  obtain ⟨ret, loops, pc, delay, target, h⟩ := nextWork_eq w pcw ctl
  rw [h]
  exact ⟨(landAll_keeps _ _).2.1, rfl, rfl, rfl⟩

/-- A work with one more result in flight, due at the next bundle. -/
def withResult (d : Dest) (v : Word) (w : Work) : Work := { w with flights := w.flights ++ [⟨w.issued + 1, d, v⟩] }

theorem carries_result (c : Chip) (e : Nat) (d : Dest) (v : Word) :
    c.carries e [.res d 1 v] none = c.modWork e (fun w => nextWork (withResult d v w) (c.bundleBits e) none) :=
  Chip.modWork_modWork ..

section
variable {w : Work} (d : Dest) (v : Word) (pcw : Nat) (ctl : Option Ctl) (h : ∀ f ∈ w.flights, f.due ≠ w.issued + 1)
include h

theorem withResult_meets : ∀ f ∈ (withResult d v w).flights, f.due = w.issued + 1 → meets (withResult d v w).flights f = false := by
  intro f hf hd
  have hnone : w.flights.filter (fun g => g.due == f.due && g.dest == f.dest) = [] :=
    List.filter_eq_nil_iff.mpr fun g hg => by simp [hd, h g hg]
  rcases List.mem_append.mp hf with hm | hm
  · exact absurd hd (h f hm)
  · obtain rfl := List.mem_singleton.mp hm
    simp [meets, withResult, List.filter_append, hnone]

/-- While nothing else is due, a result lands at its destination, and every other one stays as it was, in flight or landed. -/
theorem nextWork_withResult : (nextWork (withResult d v w) pcw ctl).flights = w.flights ∧
    Holds (nextWork (withResult d v w) pcw ctl).arch d v ∧ ∀ d', d' ≠ d → SameAt (nextWork (withResult d v w) pcw ctl).arch w.arch d' := by
  obtain ⟨hfl, hland⟩ := nextWork_results (withResult d v w) pcw ctl (withResult_meets d v h)
  refine ⟨hfl.trans ?_, hland ⟨w.issued + 1, d, v⟩ (List.mem_append_right _ List.mem_cons_self) rfl, fun d' hne => ?_⟩
  · have hold : w.flights.filter (fun f => f.due != w.issued + 1) = w.flights :=
      List.filter_eq_self.mpr fun f hf => bne_iff_ne.mpr (h f hf)
    have hnew : (withResult d v w).flights.filter (fun f => f.due != w.issued + 1) = w.flights.filter (fun f => f.due != w.issued + 1) := by
      simp [withResult, List.filter_append]
    exact hnew.trans hold
  · refine nextWork_sameAt_of_noneDue (withResult d v w) pcw ctl fun f hf ⟨hd, hdest⟩ => ?_
    rcases List.mem_append.mp hf with hm | hm
    · exact h f hm hd
    · exact hne (hdest.symm.trans (congrArg Flight.dest (List.mem_singleton.mp hm)))

end

theorem gRead_of_same {w w' : Work} {n : RegNo} (h : n ≠ 0 → SameAt w'.arch w.arch (.g n.toNat)) : gRead w' n = gRead w n := by
  unfold gRead
  split
  · rfl
  · exact h ‹_›

theorem preds_eq_of_same {a b : Arch} (h : ∀ n, SameAt a b (.p n)) : a.p = b.p := BitVec.eq_of_getLsbD_eq fun i _ => h i

/-! ### The frame of a store (R98, R153) -/

/-- The undo keeps the old value of a word at its first store since the milestone. -/
def keepOld (p : Undo → Bool) (u : Undo) (w : Work) : Work := if hasUndo w p then w else addUndo w u

theorem modWork_keepOld (c : Chip) (e : Nat) (p : Undo → Bool) (u : Undo) (f : Work → Work) (w : Work) (hw : hasUndo w p = hasUndo (c.work e) p) :
    (if hasUndo w p then c else c.modWork e (fun w => addUndo w u)).modWork e f = c.modWork e (fun w => f (keepOld p u w)) := by
  split
  next h => exact Chip.modWork_congr _ _ _ _ (by rw [keepOld, if_pos (hw ▸ h)])
  next h => exact (Chip.modWork_modWork ..).trans (Chip.modWork_congr _ _ _ _ (by rw [keepOld, if_neg (hw ▸ h)]))

def isDword (a : Nat) : Undo → Bool
  | .dword b _ => b == a
  | _ => false
def isGword (a : Nat) : Undo → Bool
  | .gword b _ => b == a
  | _ => false
def isIoword (a : Nat) : Undo → Bool
  | .ioword b _ => b == a
  | _ => false

section
variable (c : Chip) (e a : Nat) (v : Word)

theorem carries_dmem : c.carries e [.dmem a v] none = (c.modDbank e (fun m => WMem.set m a v)).modWork e (fun w =>
    nextWork (keepOld (isDword a) (.dword a (c.dWord e a)) w) (c.bundleBits e) none) :=
  modWork_keepOld (c.modDbank e (fun m => WMem.set m a v)) e (isDword a) _ (fun w => nextWork w (c.bundleBits e) none) (c.work e) rfl

theorem carries_gmem : c.carries e [.gmem a v] none = (c.modRegion (e / 8) (fun r => { r with gmem := WMem.set r.gmem a v })).modWork e
    (fun w => nextWork (keepOld (isGword a) (.gword a (WMem.get (c.region (e / 8)).gmem a)) { w with lastGst := some w.issued })
      (c.bundleBits e) none) := by
  refine (modWork_keepOld ((c.modRegion (e / 8) (fun r => { r with gmem := WMem.set r.gmem a v })).modWork e
    (fun w => { w with lastGst := some w.issued })) e (isGword a) _ (fun w => nextWork w (c.bundleBits e) none) (c.work e) ?_).trans
    (Chip.modWork_modWork ..)
  rw [Chip.work_modWork_same]
  rfl

/-- The working value of a word after a store of the cycle (R50). -/
def storedIo (k : Cls) : Cls := { k with cycle := k.cycle.map (fun cy => { cy with work := (a, v) :: cy.work.filter (fun p => p.1 != a) }) }

theorem carries_io {n : Nat} (hn : c.classOf e = some n) : c.carries e [.io a v] none = (c.modCl n (storedIo a v)).modWork e (fun w =>
    nextWork (keepOld (isIoword a) (.ioword a (ioWorking (c.cl n) a)) w) (c.bundleBits e) none) := by
  have h := modWork_keepOld (c.modCl n (storedIo a v)) e (isIoword a) (.ioword a (ioWorking (c.cl n) a))
    (fun w => nextWork w (c.bundleBits e) none) (c.work e) rfl
  rw [← h]
  simp only [Chip.carries, List.foldl_cons, List.foldl_nil, Chip.effect, hn]
  rfl

theorem ioWorking_storedIo {k : Cls} {cy : Cycle} (h : k.cycle = some cy) (b : Nat) :
    ioWorking (storedIo a v k) b = if b = a then v else ioWorking k b := by
  have hfind : ((a, v) :: cy.work.filter (fun p => p.1 != a)).find? (fun p => p.1 == b) =
      if b = a then some (a, v) else cy.work.find? (fun p => p.1 == b) := by
    by_cases hb : b = a
    · simp [hb]
    · rw [if_neg hb, List.find?_cons, beq_eq_false_iff_ne.mpr (Ne.symm hb), List.find?_filter]
      refine congrArg (List.find? · cy.work) (funext fun p => ?_)
      by_cases hp : p.1 = b <;> simp [hp, hb]
  simp only [ioWorking, storedIo, h, Option.map_some, hfind]
  by_cases hb : b = a
  · rw [if_pos hb, if_pos hb]
  · rw [if_neg hb, if_neg hb]

theorem gmem_modRegion_set (k r a' : Nat) : WMem.get ((c.modRegion k (fun r => { r with gmem := WMem.set r.gmem a v })).region r).gmem a' =
    if r = k ∧ a' = a then v else WMem.get (c.region r).gmem a' := by
  by_cases hr : r = k
  · subst hr
    rw [Chip.region_modRegion_same]
    by_cases ha : a' = a
    · rw [if_pos ⟨rfl, ha⟩, ha]
      exact WMem.get_set_same ..
    · rw [if_neg fun h => ha h.2]
      exact WMem.get_set_other _ _ _ _ ha
  · rw [if_neg fun h => hr h.1, Chip.region_modRegion_other _ _ _ _ hr]

end

theorem hasUndo_eq_false {w : Work} {p : Undo → Bool} (h : ∀ u ∈ w.undo, p u = false) : hasUndo w p = false :=
  List.any_eq_false.mpr fun u hu => Bool.eq_false_iff.mp (h u hu)

/-- The undo of a work after a store of a D-space word: a new entry at the first store, none after (R153). -/
theorem undo_keepOld_dword (w : Work) (a : Nat) (old : Word) :
    ((∀ u, Undo.dword a u ∉ w.undo) → (keepOld (isDword a) (.dword a old) w).undo = .dword a old :: w.undo) ∧
    (∀ u, Undo.dword a u ∈ w.undo → (keepOld (isDword a) (.dword a old) w).undo = w.undo) := by
  refine ⟨fun h => ?_, fun u h => ?_⟩
  · have hno : hasUndo w (isDword a) = false := hasUndo_eq_false fun x hx => by
      cases x with
      | dword b y => exact beq_eq_false_iff_ne.mpr fun hb => h y (hb ▸ hx)
      | _ => rfl
    rw [keepOld, if_neg (Bool.eq_false_iff.mp hno)]
    rfl
  · have hyes : hasUndo w (isDword a) = true := List.any_eq_true.mpr ⟨_, h, beq_self_eq_true a⟩
    rw [keepOld, if_pos hyes]

/-- Settles O18: a result is one more flight that lands at the next bundle, a store one write and one undo entry. -/
theorem aResultOrStoreChangesOnePlace : Obligations.AResultOrStoreChangesOnePlace := by
  unfold Obligations.AResultOrStoreChangesOnePlace
  constructor
  · intro s o d a x h hd c w hdue
    let V := gRead w a + srcVal w true x
    let w1 := withResult (.g d.toNat) V w
    have hres : resG d 1 V = [.res (.g d.toNat) 1 V] := if_neg hd
    have hx : Gives s (.add o d a x) (c.carries o.eng.val (resG d 1 V) none) :=
      gives_results (r := did _) h rfl (by decide) rfl (place_resG ..) rfl
    rw [hres, carries_result] at hx
    obtain ⟨hfl, hland, hsame⟩ := nextWork_withResult (.g d.toNat) V (c.bundleBits o.eng.val) none hdue
    obtain ⟨hrung, hundo, hflags, -⟩ := nextWork_keeps w1 (c.bundleBits o.eng.val) none
    refine ⟨_, hx, rfl, fun e he => Chip.work_modWork_other _ _ _ _ he, ?_⟩
    rw [Chip.work_modWork_same]
    refine ⟨(if_neg hd).trans hland, fun n hn => gRead_of_same fun _ => hsame _ ?_, preds_eq_of_same fun n => hsame _ (by simp),
      hsame .ba (by simp), hrung, hfl, hundo, hflags, fun h0 => ?_⟩
    · exact fun he => hn (BitVec.eq_of_toNat_eq (Dest.g.inj he))
    · have hflow := flow_none (w := w1) (c.bundleBits o.eng.val) h0
      refine ⟨congrArg Flow.ret hflow, fun hl => ?_⟩
      have hseq : loopNext w.arch.pc w.arch.loops = ([], (w.arch.pc + 1) % 16384) := by rw [hl]; rfl
      exact ⟨(congrArg Flow.pc hflow).trans (congrArg Prod.snd hseq), (congrArg Flow.loops hflow).trans (congrArg Prod.fst hseq)⟩
  · intro c e a v
    refine ⟨?_, ?_, ?_⟩
    · intro c'
      have hc := carries_dmem c e a v
      change c' = _ at hc
      clear_value c'
      subst hc
      refine ⟨fun e' a' => ?_, rfl, rfl, rfl, rfl, fun e' he => Chip.work_modWork_other _ _ _ _ he, ?_⟩
      · exact dWord_modDbank_set c e a e' a' v
      · rw [Chip.work_modWork_same, (nextWork_keeps _ _ _).2.1]
        exact undo_keepOld_dword (c.work e) a (c.dWord e a)
    · intro c'
      have hc := carries_gmem c e a v
      change c' = _ at hc
      clear_value c'
      subst hc
      exact ⟨gmem_modRegion_set c a v (e / 8), rfl, rfl, rfl, rfl, fun e' he => Chip.work_modWork_other _ _ _ _ he⟩
    · intro n cy hn hcy c'
      have hc := carries_io c e a v hn
      change c' = _ at hc
      clear_value c'
      subst hc
      refine ⟨fun a' => ?_, fun m hm => Chip.cl_modCl_other _ _ _ _ hm, rfl, rfl, rfl, fun e' he => Chip.work_modWork_other _ _ _ _ he⟩
      rw [Chip.cl_modWork, Chip.cl_modCl_same]
      exact ioWorking_storedIo a v hcy a'

end Sys2Proof.Machine
end

section
namespace Sys2Proof.Machine

/-! ### Event flags and waits (R106, R137, R138) -/

/-- An operation of slot C of profile C alone, on an engine of that profile. -/
theorem gives_slotC {s : State} {c : Chip} {i : Instr} {o : Op} {run : Work → Except ProgFault Did} {d : Did} (h : AloneCtl c o)
    (hp : profD (c.work o.eng.val) = false) (hx : exec i s = .next { s with chip := c.issueIn .c false o true run })
    (hr : run (c.work o.eng.val) = .ok d) (hw : run (slotTaken .c (c.work o.eng.val)) = run (c.work o.eng.val))
    (hs : storesCollide d.effs = false) : Gives s i (c.carries o.eng.val d.effs d.ctl) := by
  have hi : c.issueIn .c false o true run = c.issues o.eng.val (run (c.work o.eng.val)) := by
    refine (issue_issues_c c o _ run h hw fun d' hd' => ?_).trans ?_
    · cases hr.symm.trans hd'
      exact hs
    · simp [hp]
  rw [hr] at hi
  exact hx.trans (congrArg (fun c => Host.Outcome.next { s with chip := c }) hi)

theorem carries_ctl (c : Chip) (e : Nat) (ctl : Option Ctl) :
    c.carries e [] ctl = (c.modWork e (fun w => nextWork w (c.bundleBits e) ctl)).control e ctl := rfl

theorem has_set_zero (m : NMem) (k : Nat) : NMem.has (NMem.set m k 0) k = false := by simp [NMem.has]
theorem has_set_one (m : NMem) (k : Nat) : NMem.has (NMem.set m k 1) k = true := by simp [NMem.has]

/-- `wfe` on a work whose flag is set consumes the flag; with the flag clear it holds the member. -/
theorem carries_waitEvent (c : Chip) (e ev : Nat) (hr : (c.work e).run = .issuing) :
    let c' := c.carries e [] (some (.waitEvent ev))
    (c'.work e).run = (if NMem.has (c.work e).flags ev then .issuing else .waitEvent ev) ∧ NMem.has (c'.work e).flags ev = false := by
  intro c'
  have hc : c' = _ := carries_ctl ..
  obtain ⟨-, -, hflags, hrun⟩ := nextWork_keeps (c.work e) (c.bundleBits e) (some (.waitEvent ev))
  simp only [hc, Chip.control, Chip.work_modWork_same, hflags]
  by_cases hf : NMem.has (c.work e).flags ev = true
  · simp only [if_pos hf, Chip.work_modWork_same]
    exact ⟨hrun.trans hr, has_set_zero ..⟩
  · simp only [if_neg hf, Chip.work_modWork_same]
    exact ⟨trivial, (congrArg (NMem.has · ev) hflags).trans (Bool.eq_false_iff.mpr hf)⟩

theorem carries_clev (c : Chip) (e ev : Nat) (hr : (c.work e).run = .issuing) : let c' := c.carries e [.clev ev] none
    NMem.has (c'.work e).flags ev = false ∧ (c'.work e).run = .issuing := by
  intro c'
  have hc : c'.work e = nextWork (addUndo { c.work e with flags := NMem.set (c.work e).flags ev 0 }
      (.cleared ev (NMem.has (c.work e).flags ev))) (c.bundleBits e) none := by
    exact (Chip.work_modWork_same ..).trans (congrArg (nextWork · _ _) (Chip.work_modWork_same ..))
  obtain ⟨-, -, hflags, hrun⟩ := nextWork_keeps (addUndo { c.work e with flags := NMem.set (c.work e).flags ev 0 }
      (.cleared ev (NMem.has (c.work e).flags ev))) (c.bundleBits e) none
  rw [hc, hflags, hrun]
  exact ⟨has_set_zero .., hr⟩

theorem carries_waitTk (c : Chip) (e : Nat) (tk now : Int) (hr : (c.work e).run = .issuing) :
    ((c.carries e [] (some (.waitTk tk now))).work e).run = if tk ≤ now then .issuing else .waitTk tk := by
  rw [carries_ctl, Chip.control]
  by_cases h : tk ≤ now
  · rw [if_pos h, if_pos h, Chip.work_modWork_same]
    exact (nextWork_keeps ..).2.2.2.trans hr
  · rw [if_neg h, if_neg h, Chip.work_modWork_same]

/-- An event that reaches a work releases it where it waits for that event; otherwise its flag is set. -/
theorem eventIn_held {w : Work} {ev : Nat} (h : w.run = .waitEvent ev) :
    eventIn w ev = addUndo { w with run := .issuing } (.consumed ev) := if_pos h
theorem eventIn_free {w : Work} {ev : Nat} (h : w.run ≠ .waitEvent ev) : eventIn w ev = { w with flags := NMem.set w.flags ev 1 } :=
  if_neg h

theorem gives_eventArrival {s : State} {t : Instant} {k : Nat} {f : EventInFlight} (hk : s.chip.evFlight[k]? = some f) (ht : f.at_ ≤ t) :
    Gives s (.eventArrival t k)
      { (s.chip.at_ t).modWork f.target (fun w => eventIn w f.event) with evFlight := s.chip.evFlight.eraseIdx k } := by
  refine congrArg (fun c => Host.Outcome.next { s with chip := c }) ?_
  simp only [hk, if_pos ht]

theorem gives_wtuWaitEnd {s : State} {t : Instant} {e : Fin 32} {tk : Int} (hr : (s.chip.work e.val).run = .waitTk tk)
    (ht : tk ≤ s.chip.tkAt e.val t) :
    Gives s (.wtuWaitEnd t e) ((s.chip.at_ t).modWork e.val (fun w => { w with run := .issuing })) := by
  refine congrArg (fun c => Host.Outcome.next { s with chip := c }) ?_
  simp only [hr, if_pos ht]

/-- Settles O21: what each wait leaves in the run state and the flags of its member, and what each release does. -/
theorem eventsAndTimedWaitsHoldAndRelease : Obligations.EventsAndTimedWaitsHoldAndRelease := by
  unfold Obligations.EventsAndTimedWaitsHoldAndRelease
  refine ⟨?_, ?_, ?_, ?_⟩
  · intro s o d h hp ev had
    have hr : (s.chip.work o.eng.val).run = .issuing := h.1.1.1
    have hwfe : Gives s (.wfe o d) (s.chip.carries o.eng.val [] (some (.waitEvent ev))) :=
      gives_slotC (d := ⟨[], some (.waitEvent ev)⟩) h hp rfl rfl rfl rfl
    have hclev : Gives s (.clev o d) (s.chip.carries o.eng.val [.clev ev] none) :=
      gives_slotC (d := ⟨[.clev ev], none⟩) h hp rfl rfl rfl rfl
    exact ⟨⟨_, hwfe, carries_waitEvent s.chip o.eng.val ev hr⟩, _, hclev, carries_clev s.chip o.eng.val ev hr⟩
  · intro s o t a i h hp tk
    have hr : (s.chip.work o.eng.val).run = .issuing := h.1.1.1
    have hwtu : Gives s (.wtu o t a i) ((s.chip.at_ t).carries o.eng.val [] (some (.waitTk tk ((s.chip.at_ t).tkAt o.eng.val t)))) :=
      gives_slotC (c := s.chip.at_ t) (d := ⟨[], some (.waitTk tk ((s.chip.at_ t).tkAt o.eng.val t))⟩) h hp rfl rfl rfl rfl
    exact ⟨_, hwtu, carries_waitTk (s.chip.at_ t) o.eng.val _ _ hr⟩
  · intro s t k f hk ht w
    have hw : ((s.chip.at_ t).modWork f.target (fun w => eventIn w f.event)).work f.target = eventIn w f.event :=
      Chip.work_modWork_same ..
    refine ⟨_, gives_eventArrival hk ht, rfl, fun e he => Chip.work_modWork_other _ _ _ _ he, fun h => ?_, fun h => ?_⟩
    · rw [eventIn_held h] at hw
      exact ⟨(congrArg Work.run hw :), (congrArg Work.flags hw :)⟩
    · rw [eventIn_free h] at hw
      exact ⟨(congrArg Work.run hw :), (congrArg (fun w => NMem.has w.flags f.event) hw).trans (has_set_one ..)⟩
  · intro s t e tk hr ht
    have hw : ((s.chip.at_ t).modWork e.val (fun w => { w with run := .issuing })).work e.val =
        { s.chip.work e.val with run := .issuing } := Chip.work_modWork_same ..
    refine ⟨_, gives_wtuWaitEnd hr ht, ?_, ?_, fun k hk => Chip.work_modWork_other _ _ _ _ hk⟩
    · exact (congrArg Work.run hw :)
    · exact (congrArg Work.arch hw :)

end Sys2Proof.Machine
end

section
namespace Sys2Proof.Machine

/-! ### Integer operations, compares, products and quotients (R118-R123) -/

section
variable {s : State} {i : Instr} {o : Op} {d : RegNo} (h : Alone s.chip o)
include h

/-- An operation of slot A whose one result is a word. -/
theorem gives_word {k : Nat} {f : Work → Word} {v : Word} (hx : exec i s = opG o true k d f s)
    (hw : f (slotTaken .a (s.chip.work o.eng.val)) = f (s.chip.work o.eng.val)) (hv : f (s.chip.work o.eng.val) = v) :
    Gives s i (s.chip.carries o.eng.val (resG d k v) none) :=
  hv ▸ gives_results (r := did _) h hx (by decide) (congrArg (resG d k) hw) (place_resG ..) rfl

/-- A compare writes its predicate where its operand fields are legal. -/
theorem gives_compare {legal : Bool} {f : Work → Bool} {v : Bool} (hx : exec i s = opP o legal d f s)
    (hw : f (slotTaken .a (s.chip.work o.eng.val)) = f (s.chip.work o.eng.val)) (hv : f (s.chip.work o.eng.val) = v) :
    Gives s i (s.chip.issues o.eng.val (legalIf legal (resP d 2 v))) :=
  hv ▸ gives_results h hx (by decide) (congrArg (resP d 2) hw) (place_resP ..) rfl

/-- A quotient or remainder, where its zero divisor does not trap. -/
theorem gives_quotient {b : RegNo} {f : Work → Word} {v : Word}
    (hx : exec i s = opDiv o true (fun w => gRead w b == 0) (fun w => resG d 24 (f w)) s)
    (hw : f (slotTaken .a (s.chip.work o.eng.val)) = f (s.chip.work o.eng.val)) (hv : f (s.chip.work o.eng.val) = v) :
    Gives s i (s.chip.issues o.eng.val (if decide (gRead (s.chip.work o.eng.val) b = 0) && divTrap (s.chip.work o.eng.val) then
      .error .divideByZero else did (resG d 24 v))) :=
  hv ▸ gives_opDiv h hx rfl (congrArg (resG d 24) hw) (place_resG ..) rfl

/-- An operation of the profile page with results alone: an illegal opcode in the other profile (R127, R128). -/
theorem gives_paged {p legal : Bool} {res : Work → List Eff} {l : List Eff}
    (hx : exec i s = s.onChip (fun c => c.issueIn .a p o legal (fun w => did (res w))))
    (hw : res (slotTaken .a (s.chip.work o.eng.val)) = res (s.chip.work o.eng.val))
    (hp : (res (s.chip.work o.eng.val)).filterMap Eff.place = []) (hl : res (s.chip.work o.eng.val) = l) :
    Gives s i (s.chip.issues o.eng.val (legalIf (legal && (profD (s.chip.work o.eng.val) == p)) l)) :=
  hl ▸ gives_results h hx (by decide) hw hp rfl

/-- A time-pair operation is one of profile E. -/
theorem gives_timePair {legal : Bool} {res : Work → List Eff} {l : List Eff}
    (hx : exec i s = s.onChip (fun c => c.issueIn .a false o legal (fun w => did (res w))))
    (hw : res (slotTaken .a (s.chip.work o.eng.val)) = res (s.chip.work o.eng.val))
    (hp : (res (s.chip.work o.eng.val)).filterMap Eff.place = []) (hl : res (s.chip.work o.eng.val) = l) :
    Gives s i (s.chip.issues o.eng.val (legalIf (legal && !profD (s.chip.work o.eng.val)) l)) :=
  beq_false (profD _) ▸ gives_paged h hx hw hp hl

/-- A compare of time pairs. -/
theorem gives_timeCompare {legal : Bool} {f : Work → Bool} {v : Bool}
    (hx : exec i s = s.onChip (fun c => c.issueIn .a false o legal (fun w => did (resP d 2 (f w)))))
    (hw : f (slotTaken .a (s.chip.work o.eng.val)) = f (s.chip.work o.eng.val)) (hv : f (s.chip.work o.eng.val) = v) :
    Gives s i (s.chip.issues o.eng.val (legalIf (legal && !profD (s.chip.work o.eng.val)) (resP d 2 v))) :=
  gives_timePair h hx (congrArg (resP d 2) hw) (place_resP ..) (congrArg (resP d 2) hv)

end

/-- Settles O1: each row is an operation of slot A with one word as result, at distance 1. -/
theorem integerOperationsDeliverTheirTableResult : Obligations.IntegerOperationsDeliverTheirTableResult := by
  unfold Obligations.IntegerOperationsDeliverTheirTableResult
  intro s o d a b x m im h w A B
  simp only [List.forall_mem_cons, List.not_mem_nil, false_implies, implies_true, and_true]
  refine ⟨?_, ?_, ?_, ?_, ?_, ?_, ?_, ?_, ?_, ?_, ?_, ?_, ?_, ?_, ?_, ?_, ?_, ?_, ?_, ?_, ?_, ?_, ?_⟩ <;> exact gives_word h rfl rfl rfl

/-- Settles O3: integer and real compares are of both profiles, those of time pairs of profile E. -/
theorem comparesWriteTheirPredicate : Obligations.ComparesWriteTheirPredicate := by
  unfold Obligations.ComparesWriteTheirPredicate
  intro s o d a b x m im h w A B I X pairs
  simp only [List.forall_mem_cons, List.not_mem_nil, false_implies, implies_true, and_true]
  refine ⟨?_, ?_, ?_, ?_, ?_, ?_, ?_, ?_, ?_, ?_, ?_, ?_, ?_, ?_⟩
  · exact gives_compare h rfl rfl rfl
  · exact gives_compare h rfl rfl (decide_not (p := A = X)).symm
  · exact gives_compare h rfl rfl rfl
  · exact gives_compare h rfl rfl rfl
  · exact gives_compare h rfl rfl rfl
  · exact gives_compare h rfl rfl rfl
  · exact gives_compare h rfl rfl rfl
  · exact gives_compare h rfl rfl rfl
  · exact gives_compare h rfl rfl rfl
  · exact gives_compare h rfl rfl rfl
  · exact gives_compare h rfl rfl rfl
  · exact gives_timeCompare h rfl rfl rfl
  · exact gives_timeCompare h rfl rfl rfl
  · exact gives_timeCompare h rfl rfl rfl

/-! The values of quotient and remainder (R123). -/

theorem quotients_of_ne_zero (a : Word) {b : Word} (hb : b ≠ 0) : divS a b = ofIntWord (a.toInt.tdiv b.toInt) ∧
    remS a b = ofIntWord (a.toInt.tmod b.toInt) ∧ divUn a b = toWord (a.toNat / b.toNat) ∧ remUn a b = toWord (a.toNat % b.toNat) :=
  ⟨if_neg hb, if_neg hb, if_neg hb, if_neg hb⟩

theorem quotients_by_zero (a : Word) : divS a 0 = ofIntWord (if a.toInt < 0 then -(2 ^ 47) else 2 ^ 47 - 1) ∧ remS a 0 = a ∧
    divUn a 0 = ofIntWord (-1) ∧ remUn a 0 = a :=
  ⟨(if_pos rfl).trans (apply_ite ofIntWord _ _ _).symm, if_pos rfl, (if_pos rfl).trans (by decide), if_pos rfl⟩

/-- The one quotient that the signed range does not hold wraps to the dividend, without a remainder. -/
theorem quotients_least_by_neg_one {a b : Word} (ha : a.toInt = -(2 ^ 47)) (hb : b.toInt = -1) : divS a b = a ∧ remS a b = 0 := by
  have ha' : a = ofIntWord (-(2 ^ 47)) := BitVec.eq_of_toInt_eq (ha.trans (by decide))
  have hb' : b = ofIntWord (-1) := BitVec.eq_of_toInt_eq (hb.trans (by decide))
  subst ha' hb'
  decide

/-- Settles O4: products have one word, quotients and remainders one word or the trap, and their values follow from the divisor. -/
theorem multiplyAndDivide : Obligations.MultiplyAndDivide := by
  unfold Obligations.MultiplyAndDivide
  intro s o d a b x h w A B trap
  simp only [List.forall_mem_cons, List.not_mem_nil, false_implies, implies_true, and_true]
  refine ⟨⟨?_, ?_, ?_⟩, ⟨?_, ?_, ?_, ?_⟩, quotients_of_ne_zero A, fun hB => hB ▸ quotients_by_zero A, quotients_least_by_neg_one⟩
  · exact gives_word h rfl rfl rfl
  · exact gives_word h rfl rfl rfl
  · exact gives_word h rfl rfl rfl
  · exact gives_quotient h rfl rfl rfl
  · exact gives_quotient h rfl rfl rfl
  · exact gives_quotient h rfl rfl rfl
  · exact gives_quotient h rfl rfl rfl

end Sys2Proof.Machine
end

section
namespace Sys2Proof.Machine

/-! ### Single precision (R124, R126) -/

/-- Settles O5: each row is an operation on bits 31:0 of its operands; the divide may trap, and a conversion has one operand. -/
theorem singlePrecisionResults : Obligations.SinglePrecisionResults := by
  unfold Obligations.SinglePrecisionResults
  intro s o d a b m h w A B
  simp only [List.forall_mem_cons, List.not_mem_nil, false_implies, implies_true, and_true]
  refine ⟨?_, ?_, ?_, ?_, ?_, ?_, ?_, ?_, ?_, ?_⟩
  · exact gives_results h rfl (by decide) rfl (place_resS ..) rfl
  · exact gives_results h rfl (by decide) rfl (place_resS ..) rfl
  · exact gives_results h rfl (by decide) rfl (place_resS ..) rfl
  · exact gives_opDiv h rfl rfl rfl (place_resS ..) rfl
  · exact gives_results h rfl (by decide) rfl (place_resS ..) rfl
  · exact gives_results h rfl (by decide) rfl (place_resS ..) rfl
  · exact gives_results h rfl (by decide) rfl (place_resS ..) rfl
  · exact gives_results h rfl (by decide) rfl (place_resS ..) rfl
  · exact gives_results h rfl (by decide) rfl (place_resS ..) rfl
  · exact gives_word h rfl rfl rfl

end Sys2Proof.Machine
end

section
namespace Sys2Proof.Machine

/-! ### The profile pages (R127, R128, R141) -/

section
variable {s : State} {i : Instr} {o : Op} {d : RegNo} (h : Alone s.chip o)
include h

/-- A decimal operation is one of profile D. -/
theorem gives_decimal {res : Work → List Eff} {l : List Eff}
    (hx : exec i s = s.onChip (fun c => c.issueIn .a true o true (fun w => did (res w))))
    (hw : res (slotTaken .a (s.chip.work o.eng.val)) = res (s.chip.work o.eng.val))
    (hp : (res (s.chip.work o.eng.val)).filterMap Eff.place = []) (hl : res (s.chip.work o.eng.val) = l) :
    Gives s i (s.chip.issues o.eng.val (legalIf (profD (s.chip.work o.eng.val)) l)) :=
  beq_true (profD _) ▸ gives_paged h hx hw hp hl

theorem gives_decimalWord {k : Nat} {f : Work → Word} {v : Word} (hx : exec i s = opB o k d f s)
    (hw : f (slotTaken .a (s.chip.work o.eng.val)) = f (s.chip.work o.eng.val)) (hv : f (s.chip.work o.eng.val) = v) :
    Gives s i (s.chip.issues o.eng.val (legalIf (profD (s.chip.work o.eng.val)) (resG d k v))) :=
  gives_decimal h hx (congrArg (resG d k) hw) (place_resG ..) (congrArg (resG d k) hv)

theorem gives_decimalTest {f : Work → Bool} {v : Bool}
    (hx : exec i s = s.onChip (fun c => c.issueIn .a true o true (fun w => did (resP d 2 (f w)))))
    (hw : f (slotTaken .a (s.chip.work o.eng.val)) = f (s.chip.work o.eng.val)) (hv : f (s.chip.work o.eng.val) = v) :
    Gives s i (s.chip.issues o.eng.val (legalIf (profD (s.chip.work o.eng.val)) (resP d 2 v))) :=
  gives_decimal h hx (congrArg (resP d 2) hw) (place_resP ..) (congrArg (resP d 2) hv)

end

/-- An operation of slot C alone in its bundle, no long immediate beside it, does what it does on the state before the bundle. -/
theorem gives_issues_c {s : State} {i : Instr} {o : Op} {legal : Bool} {run : Work → Except ProgFault Did} {r : Except ProgFault Did}
    (h : AloneCtl s.chip o) (hx : Gives s i (s.chip.issue .c o legal run))
    (hw : run (slotTaken .c (s.chip.work o.eng.val)) = run (s.chip.work o.eng.val)) (hs : StoresApart (run (s.chip.work o.eng.val)))
    (hr : (if legal then run (s.chip.work o.eng.val) else .error .illegalOpcode) = r) : Gives s i (s.chip.issues o.eng.val r) :=
  hr ▸ issue_issues_c s.chip o legal run h hw hs ▸ hx

/-- The digit move is of slot C and of profile D (R141). -/
theorem gives_dmv (s : State) (o : Op) (d a b : RegNo) (h : AloneCtl s.chip o) :
    let w := s.chip.work o.eng.val
    let x := (gRead w b).toNat
    Gives s (.dmv o d a b) (s.chip.issues o.eng.val (legalIf (profD w)
      (resG d 1 (digitMove (gRead w d) (gRead w a) (fieldOf x 3 0) (fieldOf x 7 4) (fieldOf x 11 8))))) := by
  intro w x
  have hx : Gives s (.dmv o d a b) (s.chip.issues o.eng.val (legalIf (true && (profD w == true))
      (resG d 1 (digitMove (gRead w d) (gRead w a) (fieldOf x 3 0) (fieldOf x 7 4) (fieldOf x 11 8))))) :=
    gives_issues_c h rfl rfl (storesApart_results (place_resG ..)) rfl
  rwa [Bool.true_and, beq_true] at hx

/-- Settles O7: the rows of profile E, then those of profile D, and in slot C the digit move. -/
theorem profilePageResults : Obligations.ProfilePageResults := by
  unfold Obligations.ProfilePageResults
  intro s o d a b x h w A va vb k
  refine ⟨gives_dmv s o d a b, ?_⟩
  simp only [List.forall_mem_cons, List.not_mem_nil, false_implies, implies_true, and_true]
  refine ⟨?_, ?_, ?_, ?_, ?_, ?_, ?_, ?_, ?_, ?_, ?_⟩
  · exact gives_timePair h rfl rfl (place_resT ..) rfl
  · exact gives_timePair h rfl rfl (place_resG ..) rfl
  · exact gives_decimalWord h rfl rfl rfl
  · exact gives_decimalWord h rfl rfl rfl
  · exact gives_decimalTest h rfl rfl rfl
  · exact gives_decimalTest h rfl rfl rfl
  · exact gives_decimalWord h rfl rfl rfl
  · exact gives_decimalWord h rfl rfl rfl
  · exact gives_decimalWord h rfl rfl rfl
  · exact gives_decimalWord h rfl rfl rfl
  · exact gives_decimalWord h rfl rfl rfl

end Sys2Proof.Machine
end

section
namespace Sys2Proof.Machine

/-! ### Ladder operations with a result, edges, timers and counters (R113-R117) -/

section
variable {s : State} {i : Instr} {o : Op} (h : Alone s.chip o)
include h

/-- An operation of slot B whose one result is BA. -/
theorem gives_ba {legal : Bool} {f : Work → Bool} {r : Except ProgFault Did}
    (hx : Gives s i (s.chip.issue .b o legal (fun w => did (resBA (f w)))))
    (hw : f (slotTaken .b (s.chip.work o.eng.val)) = f (s.chip.work o.eng.val))
    (hr : legalIf legal (resBA (f (s.chip.work o.eng.val))) = r) : Gives s i (s.chip.issues o.eng.val r) :=
  gives_results h hx (by decide) (congrArg resBA hw) (place_resBA _) hr

/-- An operation of slot B that stores one word: an edge, a timer or a counter. -/
theorem gives_wordWritten {legal : Bool} {run : Work → Except ProgFault Did} {l : List Eff} {p : Nat × Nat} {r : Except ProgFault Did}
    (hx : Gives s i (s.chip.issue .b o legal run)) (hw : run (slotTaken .b (s.chip.work o.eng.val)) = run (s.chip.work o.eng.val))
    (hl : run (s.chip.work o.eng.val) = did l) (hp : l.filterMap Eff.place = [p]) (hr : legalIf legal l = r) :
    Gives s i (s.chip.issues o.eng.val r) :=
  gives_issues h hx (by decide) hw ((storesApart_store hp).congr hl) (hl ▸ hr)

end

/-- Settles O8: all but `push`, `ba2p` and the edges have BA as their one result, and `popa` and `popo` take the top rung as well. -/
theorem ladderOperationsDeliverBa : Obligations.LadderOperationsDeliverBa := by
  unfold Obligations.LadderOperationsDeliverBa
  intro s o x d a n i h w e ba b old mark
  simp only [List.forall_mem_cons, List.not_mem_nil, false_implies, implies_true, and_true]
  refine ⟨?_, ?_, ?_, ?_, ?_, ?_, ?_, ?_, ?_, ?_, ?_, ?_, ?_, ?_, ?_, ?_, ?_⟩
  · exact gives_ba h rfl rfl rfl
  · exact gives_ba h rfl rfl rfl
  · exact gives_ba h rfl rfl rfl
  · exact gives_ba h rfl rfl rfl
  · exact gives_ba h rfl rfl rfl
  · exact gives_ba h rfl rfl rfl
  · exact gives_ba h rfl rfl rfl
  · exact gives_ba h rfl rfl rfl
  · exact gives_results h rfl (by decide) rfl (place_resP ..) rfl
  · exact gives_ba h rfl rfl rfl
  · exact gives_ba h rfl rfl rfl
  · exact gives_ba h rfl rfl rfl
  · exact gives_results h rfl (by decide) rfl rfl rfl
  · exact gives_results h rfl (by decide) rfl rfl rfl
  · exact gives_results h rfl (by decide) rfl rfl rfl
  · exact gives_wordWritten h rfl rfl rfl rfl rfl
  · exact gives_wordWritten h rfl rfl rfl rfl rfl

/-- Settles O10: each row writes its word back, and all but `cld` have BA as their result. -/
theorem timersAndCountersEvaluate : Obligations.TimersAndCountersEvaluate := by
  unfold Obligations.TimersAndCountersEvaluate
  intro s o a b u h c w e ba ad x G timer up down
  simp only [List.forall_mem_cons, List.not_mem_nil, false_implies, implies_true, and_true]
  refine ⟨?_, ?_, ?_, ?_, ?_, ?_⟩ <;> exact gives_wordWritten (r := did _) h rfl rfl rfl rfl rfl

end Sys2Proof.Machine
end

section
namespace Sys2Proof.Machine

/-! ### The signature check (R143, R144) -/

/-- A work whose bundle failed its signature check. -/
def mismatched (w : Work) : Work := { w with run := .mismatch, bundle := emptyBundle }

/-- A bundle of another signature than the one expected loses every operation it has gathered. -/
theorem commit_mismatch (c : Chip) (e : Nat) (b : OpenBundle) (hs : c.signatureOk e = false) :
    (c.modWork e (setBundle b)).commit e = c.modWork e mismatched := by
  have hc : (c.modWork e (setBundle b)).commit e = (c.modWork e (setBundle b)).modWork e mismatched :=
    if_pos ((signatureOk_setBundle c e b).trans hs)
  rw [hc, Chip.modWork_modWork]
  rfl

/-- Whatever the last operation of a bundle is, it issues nothing where the signature is not the one expected. -/
theorem gives_mismatch (s : State) (i : Instr) (o : Op) (h : i.op = some o) (hlast : o.last = true)
    (hrun : (s.chip.work o.eng.val).run = .issuing) (hsl : slotFree (s.chip.work o.eng.val).bundle i.slot = true)
    (hs : s.chip.signatureOk o.eng.val = false) : Gives s i ((s.chip.timed i).modWork o.eng.val mismatched) := by
  obtain ⟨run, hx⟩ := joins s i o h
  obtain ⟨t, ht⟩ := timed_eq s.chip i
  rw [ht] at hx ⊢
  let w := slotTaken i.slot (s.chip.work o.eng.val)
  obtain ⟨b, hb, -⟩ := joinBundle_eq w (guardOk w o) (opLegal i (s.chip.work o.eng.val)) (squashCtl i) (run w)
  rw [hlast, issueAs_commits (s.chip.at_ t) o.eng.val i.slot b _ hrun hsl hb, commit_mismatch (s.chip.at_ t) _ b hs] at hx
  exact hx

/-! ### The two ledger slots (R151) -/

section
variable {w w' : Work} (h0 : w'.slot0 = w.slot0) (h1 : w'.slot1 = w.slot1)
include h0 h1

/-- Which slot is valid, and what it holds, depends on the two slots alone. -/
theorem slot1Valid_congr : slot1Valid w' = slot1Valid w := by rw [slot1Valid, h0, h1, slot1Valid]

theorem validSlot_congr : validSlot w' = validSlot w := by rw [validSlot, slot1Valid_congr h0 h1, h0, h1, validSlot]

end

section
variable (w : Work) (x : LedgerSlot)

/-- The snapshot under the next sequence number of the work. -/
def numbered : LedgerSlot := { x with msn := ((validSlot w).msn + 1) % 2 ^ 31 }

theorem writeSlot_of_slot1 (h : slot1Valid w = true) : writeSlot w x = { w with slot0 := numbered w x } := if_pos h

theorem writeSlot_of_slot0 (h : slot1Valid w = false) : writeSlot w x = { w with slot1 := numbered w x } :=
  if_neg (by simp [h])

/-- The number of a milestone is the later one of the two, also where it has passed 2^31: the slots turn. -/
theorem slot1Valid_writeSlot : slot1Valid (writeSlot w x) = !slot1Valid w := by
  cases h : slot1Valid w with
  | true =>
    have hv : validSlot w = w.slot1 := if_pos h
    rw [writeSlot_of_slot1 w x h]
    simp only [slot1Valid, numbered, hv, Bool.not_true, decide_eq_false_iff_not]
    omega
  | false =>
    have hv : validSlot w = w.slot0 := if_neg (by simp [h])
    rw [writeSlot_of_slot0 w x h]
    simp only [slot1Valid, numbered, hv, Bool.not_false, decide_eq_true_eq]
    omega

theorem validSlot_writeSlot : validSlot (writeSlot w x) = numbered w x := by
  rw [validSlot, slot1Valid_writeSlot]
  cases h : slot1Valid w with
  | true =>
    rw [writeSlot_of_slot1 w x h]
    exact if_neg (by decide)
  | false =>
    rw [writeSlot_of_slot0 w x h]
    exact if_pos (by decide)

/-- The slot that was valid stays as it was. -/
theorem writeSlot_keeps : if slot1Valid w then (writeSlot w x).slot1 = w.slot1 else (writeSlot w x).slot0 = w.slot0 := by
  split
  next h => rw [writeSlot_of_slot1 w x h]
  next h => rw [writeSlot_of_slot0 w x (Bool.eq_false_iff.mpr h)]

theorem arch_writeSlot : (writeSlot w x).arch = w.arch := by
  cases h : slot1Valid w with
  | true => rw [writeSlot_of_slot1 w x h]
  | false => rw [writeSlot_of_slot0 w x h]

end

/-! ### Milestones (R146, R147) -/

/-- A work whose undo buffer and count of bundles start afresh. -/
def startedAfresh (w : Work) : Work := { w with undo := [], sinceMs := 0 }

theorem startedAfresh_keeps (w : Work) : (startedAfresh w).arch = w.arch ∧ (startedAfresh w).slot0 = w.slot0 ∧
    (startedAfresh w).slot1 = w.slot1 := ⟨rfl, rfl, rfl⟩

/-- What a milestone puts into a ledger slot; the slot adds the sequence number. -/
def milestoneSnapshot (swn : Nat) (w : Work) : LedgerSlot := ⟨w.arch, w.issued, swn, false, 0⟩

/-- A work that has taken a milestone. -/
def milestoned (swn : Nat) (w : Work) : Work := startedAfresh (writeSlot w (milestoneSnapshot swn w))

theorem gives_milestone (s : State) (t : Instant) (e : Fin 32) (hr : (s.chip.work e.val).run = .issuing)
    (hd : s.chip.milestoneDue e.val = true) (hp : atMilestonePoint (s.chip.work e.val) = true) (hm : s.chip.atMarkedPoint e.val = true) :
    Gives s (.milestone t e) (((s.chip.at_ t).modWork e.val (milestoned (s.chip.schedBy e.val))).bump 0x2300 0x07) := by
  show execMilestone t e s = _
  simp only [execMilestone, State.onChip]
  rw [if_pos ⟨hr, hd, hp, hm⟩]
  rfl

section
variable (swn : Nat) (w : Work)

theorem slot1Valid_milestoned : slot1Valid (milestoned swn w) = !slot1Valid w := by
  obtain ⟨-, h0, h1⟩ := startedAfresh_keeps (writeSlot w (milestoneSnapshot swn w))
  exact (slot1Valid_congr h0 h1).trans (slot1Valid_writeSlot ..)

theorem validSlot_milestoned : validSlot (milestoned swn w) = numbered w (milestoneSnapshot swn w) := by
  obtain ⟨-, h0, h1⟩ := startedAfresh_keeps (writeSlot w (milestoneSnapshot swn w))
  exact (validSlot_congr h0 h1).trans (validSlot_writeSlot ..)

/-- A milestone keeps the state that it commits, and the milestone before. -/
theorem milestoned_keeps : (milestoned swn w).arch = w.arch ∧
    if slot1Valid w then (milestoned swn w).slot1 = w.slot1 else (milestoned swn w).slot0 = w.slot0 := by
  obtain ⟨ha, h0, h1⟩ := startedAfresh_keeps (writeSlot w (milestoneSnapshot swn w))
  refine ⟨ha.trans (arch_writeSlot ..), ?_⟩
  rw [milestoned, h0, h1]
  exact writeSlot_keeps ..

end

/-- Settles O22: the mismatch discards the open bundle, and a milestone writes the slot that was not valid. -/
theorem aMilestoneFillsTheNextLedgerSlot : Obligations.AMilestoneFillsTheNextLedgerSlot := by
  unfold Obligations.AMilestoneFillsTheNextLedgerSlot
  refine ⟨fun s o d a x hrun hsl hlast hs => gives_mismatch s (.add o d a x) o rfl hlast hrun hsl hs, ?_⟩
  intro s t e w hrun hdue hpoint hmarked
  refine ⟨_, gives_milestone s t e hrun hdue hpoint hmarked, ?_⟩
  intro w'
  have hw : w' = milestoned (s.chip.schedBy e.val) w := Chip.work_modWork_same ..
  obtain ⟨harch, hkept⟩ := milestoned_keeps (s.chip.schedBy e.val) w
  rw [hw, validSlot_milestoned]
  exact ⟨harch, rfl, rfl, slot1Valid_milestoned .., rfl, rfl, rfl, rfl, rfl, hkept, Chip.rd_bump_same ..,
    fun k hk => Chip.work_modWork_other _ _ _ _ hk⟩

end Sys2Proof.Machine
end

section
namespace Sys2Proof.Machine

/-! ### The bits of an undo entry (Tables 05-3 and 05-4) -/

section
variable (spc kind z : BitVec 2) (adr : BitVec 20) (num : BitVec 18) (old : BitVec 48)

theorem extract_spc : (spc ++ adr ++ z ++ old : BitVec 72).extractLsb' 70 2 = spc :=
  (extract_above (s := 22) _ old).trans <| (extract_above (s := 20) _ z).trans <| (extract_above (s := 0) _ adr).trans
    BitVec.extractLsb'_eq_self

theorem extract_adr : (spc ++ adr ++ z ++ old : BitVec 72).extractLsb' 50 20 = adr :=
  (extract_above (s := 2) _ old).trans <| (extract_above (s := 0) _ z).trans BitVec.extractLsb'_append_eq_right

theorem extract_old : (spc ++ adr ++ z ++ old : BitVec 72).extractLsb' 0 48 = old := BitVec.extractLsb'_append_eq_right

theorem extract_kind : (spc ++ kind ++ num ++ z ++ old : BitVec 72).extractLsb' 68 2 = kind :=
  (extract_above (s := 20) _ old).trans <| (extract_above (s := 18) _ z).trans <| (extract_above (s := 0) _ num).trans
    BitVec.extractLsb'_append_eq_right

theorem record_eq : (spc ++ kind ++ num ++ z ++ old : BitVec 72) = spc ++ (kind ++ num : BitVec 20) ++ z ++ old :=
  congrArg (· ++ z ++ old) (BitVec.append_assoc.trans (BitVec.cast_eq _ _))

/-- The number of a record is the low part of its address. -/
theorem toNat_recordAdr (m : Nat) (h : m ∣ 2 ^ 18) : (kind ++ num : BitVec 20).toNat % m = num.toNat % m := by
  obtain ⟨q, hq⟩ := h
  rw [BitVec.toNat_append, ← Nat.shiftLeft_add_eq_or_of_lt num.isLt, Nat.shiftLeft_eq, hq, Nat.mul_left_comm, Nat.mul_add_mod]

/-- What a record of a kind spells. -/
def recordOf (kind num : Nat) (old : Word) : Undo :=
  match kind with
  | 0 => .sent (num % 16) (old.toNat % 256)
  | 1 => .consumed (num % 16)
  | 2 => .cleared (num % 16) (old.getLsbD 0)
  | _ => .mark (num % 2 ^ 14)

theorem undoOf_record : undoOf (0b11#2 ++ kind ++ num ++ z ++ old) = recordOf kind.toNat num.toNat old := by
  have h16 := toNat_recordAdr kind num 16 (by decide)
  have h14 := toNat_recordAdr kind num (2 ^ 14) (by decide)
  simp only [undoOf]
  rw [extract_kind, record_eq, extract_spc, extract_adr, extract_old, h16, h14]
  rfl

end

theorem toNat_ofNat_of_lt {n v : Nat} (h : v < 2 ^ n) : (BitVec.ofNat n v).toNat = v := by
  rw [BitVec.toNat_ofNat, Nat.mod_eq_of_lt h]

/-- The entry of a word is found again in its bits. -/
theorem undoOf_undoBits_word (a : Nat) (old : Word) (h : a < 2 ^ 20) : undoOf (undoBits (.dword a old)) = .dword a old ∧
    undoOf (undoBits (.gword a old)) = .gword a old ∧ undoOf (undoBits (.ioword a old)) = .ioword a old := by
  refine ⟨?_, ?_, ?_⟩
  all_goals
    unfold undoBits undoOf
    rw [extract_spc, extract_adr, extract_old, toNat_ofNat_of_lt h]
    rfl

/-- An engine record is found again in its bits. -/
theorem undoOf_undoBits_record (e mask : Nat) (he : e < 16) (hm : mask < 256) :
    undoOf (undoBits (.sent e mask)) = .sent e mask ∧ undoOf (undoBits (.consumed e)) = .consumed e ∧
    ∀ b, undoOf (undoBits (.cleared e b)) = .cleared e b := by
  have hn : (BitVec.ofNat 18 e).toNat % 16 = e := by rw [toNat_ofNat_of_lt (by omega), Nat.mod_eq_of_lt he]
  have hk : (BitVec.ofNat 48 mask).toNat % 256 = mask := by rw [toNat_ofNat_of_lt (by omega), Nat.mod_eq_of_lt hm]
  refine ⟨(undoOf_record ..).trans ?_, (undoOf_record ..).trans ?_, fun b => (undoOf_record ..).trans ?_⟩
  · exact congrArg₂ Undo.sent hn hk
  · exact congrArg Undo.consumed hn
  · exact congrArg₂ Undo.cleared hn (by cases b <;> rfl)

theorem undoOf_undoBits_mark (off : Nat) (h : off < 2 ^ 14) : undoOf (undoBits (.mark off)) = .mark off := by
  refine (undoOf_record ..).trans (congrArg Undo.mark ?_)
  rw [toNat_ofNat_of_lt (by omega), Nat.mod_eq_of_lt h]

end Sys2Proof.Machine
end

section
namespace Sys2Proof.Machine

/-! ### A fault of an engine that its relief can take (R145, R155) -/

/-- The chip that has counted and recorded a fault of a silicon and fenced it. -/
def Chip.engineFenced (c : Chip) (sil src : Nat) : Chip := (c.engineFound sil src).setBit 0x2100 0x01 sil true

section
variable (c : Chip) (sil src : Nat)

theorem reg_engineFenced {k : Nat} (h1 : k ≠ 0x2100 * 256 + 1) (h5 : k ≠ 0x2100 * 256 + 5) (h9 : k ≠ 0x2B00 * 256 + 9) :
    (c.engineFenced sil src).reg k = c.reg k := (Chip.reg_setBit _ _ _ _ _ h1).trans (reg_engineFound c sil src h5 h9)

theorem silFenced_engineFenced (hs : sil < 48) : (c.engineFenced sil src).silFenced sil = true :=
  (Chip.bit_setBit _ _ _ _ _ _ hs).trans (if_pos rfl)

theorem rd_engineFenced : (c.engineFenced sil src).rd 0x2100 0x05 = (c.rd 0x2100 0x05 + 1) % 2 ^ 48 :=
  (Chip.rd_of_reg (Chip.reg_setBit _ _ _ _ _ (by omega))).trans (rd_engineFound ..)

theorem engineFenced_keeps : (c.engineFenced sil src).regions = c.regions ∧ (c.engineFenced sil src).works = c.works ∧
    (c.engineFenced sil src).cls = c.cls ∧ (c.engineFenced sil src).dbank = c.dbank ∧ (c.engineFenced sil src).now = c.now := by
  simp [Chip.engineFenced, Chip.engineFound]

end

theorem reliefFor_of_available {c : Chip} {e : Nat} (ha : (c.region (e / 8)).attach = none) (hr : c.reliefState (e / 8) = 0) :
    c.reliefFor e = true := by
  simp [Chip.reliefFor, ha, hr]

/-- A fault of the silicon of a work whose relief is available fences the silicon and calls the relief. -/
theorem engineFault_callsRelief (c : Chip) (sil src e n : Nat) (hs : sil < 36) (hf : c.silFenced sil = false) (hw : c.workOf sil = some e)
    (hn : c.classOf e = some n) (ha : (c.region (e / 8)).attach = none) (hr : c.reliefState (e / 8) = 0) :
    c.engineFault sil src = (c.engineFenced sil src).callRelief e n sil src := by
  have hreg {k : Nat} := reg_engineFenced c sil src (k := k)
  obtain ⟨hregions, -, hcls, -, -⟩ := engineFenced_keeps c sil src
  have hw' : (c.engineFenced sil src).workOf sil = some e :=
    (workOf_congr (fun r hr => hreg (by omega) (by omega) (by omega)) hs).trans hw
  have hn' : (c.engineFenced sil src).classOf e = some n := (classOf_congr hcls e).trans hn
  have ha' : ((c.engineFenced sil src).region (e / 8)).attach = none := by rwa [Chip.region, hregions]
  have hr' : (c.engineFenced sil src).reliefState (e / 8) = 0 := (Chip.fld_of_reg _ _ (hreg (by omega) (by omega) (by omega))).trans hr
  have hready := reliefFor_of_available ha' hr'
  unfold Chip.engineFenced at hw' hn' hready ⊢
  simp only [Chip.engineFault, hf, hw', hn', hready, Bool.false_eq_true, if_false, if_true]

/-! ### Rollback (R156) -/

/-- The chip with the undo buffer of work e replayed, the newest entry first. -/
def Chip.unwound (c : Chip) (e n : Nat) : Chip :=
  ((c.modWork e (fun w => { w with sup := [] })).work e).undo.foldl (fun c u => c.undoOne e n u) (c.modWork e (fun w => { w with sup := [] }))

theorem unwound_nil (c : Chip) (e n : Nat) (h : (c.work e).undo = []) : c.unwound e n = c.modWork e (fun w => { w with sup := [] }) := by
  have hu : ((c.modWork e (fun w => { w with sup := [] })).work e).undo = [] := by rw [Chip.work_modWork_same]; exact h
  rw [Chip.unwound, hu, List.foldl_nil]

/-- A work at its milestone: the state of a snapshot, or for an entry slot the entry state (R149), and nothing in flight. -/
def atMilestone (x : LedgerSlot) (entry : Nat) (w : Work) : Work := { w with
  arch := if x.ent then Arch.entry entry else x.arch, issued := if x.ent then 0 else x.isb,
  flights := [], delay := 0, target := none, bundle := emptyBundle, undo := [], sinceMs := 0, lastGst := none, ended := none,
  run := .abdicated, saved := .idle }

theorem rollback_eq (c : Chip) (e n : Nat) : ∃ f entry, c.rollback e n =
    ((c.unwound e n).modCl n f).modWork e (atMilestone (validSlot ((c.unwound e n).work e)) entry) := ⟨_, _, rfl⟩

/-- A work with the instant of its fault and the bundles it had issued by then, from which the delay of its takeover is counted (R159). -/
def faultMarked (at_ : Instant) (w : Work) : Work := { w with faultAt := at_, atFault := w.issued }

/-- A work whose fault is marked and whose list of events delivered already is empty (R157). -/
def readied (at_ : Instant) (w : Work) : Work := { faultMarked at_ w with sup := [] }

theorem validSlot_readied (at_ : Instant) (w : Work) : validSlot (readied at_ w) = validSlot w := validSlot_congr rfl rfl

/-- A region whose relief is called. -/
def calling (a : Attach) (x : Region) : Region := { x with attach := some a, swap := none }

theorem dropHeld_of_none {c : Chip} {n : Nat} (e : Nat) (h : (c.cl n).held = none) : c.dropHeld e n = c := by
  unfold Chip.dropHeld
  rw [h]

/-- The relief called within a cycle: the work is rolled back, and its region awaits the attachment. -/
theorem callRelief_eq (c : Chip) (e n sil src : Nat) (hh : (c.cl n).held = none) (hu : c.unsealed n = true) :
    ∃ at_ found, c.callRelief e n sil src = (((c.modWork e (faultMarked at_)).rollback e n).modRegion (e / 8)
      (calling ⟨e, sil, src, (c.work e).undo.length, false, found⟩)).setReliefState (e / 8) 1 := by
  unfold Chip.callRelief
  simp only [dropHeld_of_none e hh, hu, if_true]
  exact ⟨_, _, rfl⟩

/-- Of a work that has written nothing since its milestone, rollback changes the work and its class alone. -/
theorem callRelief_of_nil (c : Chip) (e n sil src : Nat) (hh : (c.cl n).held = none) (hu : c.unsealed n = true)
    (hn : (c.work e).undo = []) : ∃ at_ found f entry, c.callRelief e n sil src =
      (((c.modCl n f).modWork e (fun w => atMilestone (validSlot (c.work e)) entry (readied at_ w))).modRegion (e / 8)
        (calling ⟨e, sil, src, 0, false, found⟩)).setReliefState (e / 8) 1 := by
  obtain ⟨at_, found, hc⟩ := callRelief_eq c e n sil src hh hu
  obtain ⟨f, entry, hr⟩ := rollback_eq (c.modWork e (faultMarked at_)) e n
  have hm : ((c.modWork e (faultMarked at_)).work e).undo = [] := by rw [Chip.work_modWork_same]; exact hn
  have hd : (c.modWork e (faultMarked at_)).unwound e n = c.modWork e (readied at_) :=
    (unwound_nil _ e n hm).trans (Chip.modWork_modWork ..)
  rw [hd, Chip.work_modWork_same, validSlot_readied, modWork_modCl, Chip.modWork_modWork] at hr
  rw [hr, hn] at hc
  exact ⟨at_, found, f, entry, hc⟩

end Sys2Proof.Machine
end

section
namespace Sys2Proof.Machine

/-! ### The attachment of the relief (R158, R162) -/

theorem fieldOf_lt (w hi lo : Nat) : fieldOf w hi lo < 2 ^ (hi + 1 - lo) := Nat.mod_lt _ (Nat.two_pow_pos _)

/-- A field reads as before where one that lies above it is replaced. -/
theorem fieldOf_setFieldOf_above (w v : Nat) {hi lo hi' lo' : Nat} (h : lo ≤ hi) (ha : hi < lo') (h' : lo' ≤ hi') :
    fieldOf (setFieldOf w hi' lo' v) hi lo = fieldOf w hi lo := by
  have hp : 2 ^ lo' = 2 ^ lo * 2 ^ (lo' - lo) := by rw [← Nat.pow_add]; congr 1; omega
  have hd : 2 ^ (hi + 1 - lo) ∣ 2 ^ (lo' - lo) := Nat.pow_dvd_pow _ (by omega)
  have hcut (x : Nat) : x / 2 ^ lo % 2 ^ (hi + 1 - lo) = x % 2 ^ lo' / 2 ^ lo % 2 ^ (hi + 1 - lo) := by
    rw [hp, Nat.mod_mul_right_div_self, Nat.mod_mod_of_dvd _ hd]
  simp only [fieldOf, Nat.shiftRight_eq_div_pow]
  rw [hcut, hcut w, setFieldOf_split w hi' lo' v h', Nat.mul_add_mod_self_right, Nat.mod_mod]

theorem Chip.fld_setFld_above (c : Chip) (ix sub v : Nat) {hi lo hi' lo' : Nat} (h : lo ≤ hi) (ha : hi < lo') (h' : lo' ≤ hi')
    (hw : hi' < 48) : (c.setFld ix sub hi' lo' v).fld ix sub hi lo = c.fld ix sub hi lo := by
  have hr : (c.setFld ix sub hi' lo' v).rd ix sub = setFieldOf (c.rd ix sub) hi' lo' v % 2 ^ 48 := Chip.rd_wr_same ..
  rw [Chip.fld, hr, fieldOf_mod _ _ _ (by omega) h, fieldOf_setFieldOf_above _ _ h ha h', Chip.fld]

section
variable (c : Chip) (e : Nat)

theorem reg_relieve {k : Nat} (hm : k ≠ 0x2300 * 256 + (0x10 + e / 8)) (hs : k ≠ 0x2300 * 256 + 0x14) : (c.relieve e).reg k = c.reg k := by
  simp only [Chip.relieve, Chip.setReliefState, Chip.setReliefSil, Chip.setServed, Chip.reg_setFld _ _ _ _ _ _ hs,
    Chip.reg_setFld _ _ _ _ _ _ hm]

theorem changesRollCall_relieve : ChangesRollCall c (c.relieve e) :=
  ((changesRollCall_wr c _ _ _).trans (changesRollCall_wr _ _ _ _)).trans (changesRollCall_wr _ _ _ _)

theorem servedBy_relieve (he : e / 8 < 4) : (c.relieve e).servedBy e = c.reliefSil (e / 8) := by
  have hlt : c.reliefSil (e / 8) < 2 ^ 4 := fieldOf_lt _ _ _
  have hw : 4 * (e % 8) + 3 + 1 - 4 * (e % 8) = 4 := by omega
  calc (c.relieve e).servedBy e = ((c.setServed e (c.reliefSil (e / 8))).setReliefSil (e / 8) 15).servedBy e :=
        Chip.fld_of_reg _ _ (Chip.reg_setFld _ _ _ _ _ _ (by omega))
    _ = (c.setServed e (c.reliefSil (e / 8))).servedBy e :=
        Chip.fld_setFld_above _ _ _ _ (by omega) (by omega) (by omega) (by omega)
    _ = c.reliefSil (e / 8) % 2 ^ (4 * (e % 8) + 3 + 1 - 4 * (e % 8)) := Chip.fld_setFld_same _ _ _ _ _ _ (by omega) (by omega)
    _ = c.reliefSil (e / 8) := by rw [hw, Nat.mod_eq_of_lt hlt]

end

/-- The cycle that a relief enters when it takes work e: that of its class, until the seal. -/
def Chip.attachCycle (c : Chip) (e : Nat) : Option Cycle := match c.classOf e with
  | some n => if c.unsealed n then (c.cl n).cycle else none
  | none => none

/-- A program fault of its team holds work e. -/
def Chip.attachHeld (c : Chip) (e : Nat) : Bool := match c.classOf e with
  | some n => (c.cl n).held.isSome
  | none => false

theorem isSome_cycle_of_unsealed {c : Chip} {n : Nat} (h : c.unsealed n = true) : (c.cl n).cycle.isSome = true := by
  unfold Chip.unsealed at h
  split at h
  next cy hc => rw [hc]; rfl
  next => exact absurd h Bool.false_ne_true

theorem attachCycle_of_noClass {c : Chip} {e : Nat} (h : c.classOf e = none) : c.attachCycle e = none := by
  simp only [Chip.attachCycle, h]

theorem isSome_attachCycle {c : Chip} {e n : Nat} (h : c.classOf e = some n) : (c.attachCycle e).isSome = c.unsealed n := by
  simp only [Chip.attachCycle, h]
  cases hu : c.unsealed n with
  | true => exact isSome_cycle_of_unsealed hu
  | false => rfl

theorem attachHeld_of_class {c : Chip} {e n : Nat} (h : c.classOf e = some n) : c.attachHeld e = (c.cl n).held.isSome := by
  simp only [Chip.attachHeld, h]

theorem attachWork_arch (issues held : Bool) (w : Work) : (attachWork issues held w).arch = w.arch := by
  cases issues <;> cases held <;> rfl

theorem attachWork_run (issues held : Bool) (w : Work) :
    (attachWork issues held w).run = if issues then (if held then .teamHeld else .issuing) else .idle := by
  cases issues <;> cases held <;> rfl

/-- A takeover as the objects and the recorder report it. -/
def Chip.takeoverReported (c : Chip) (a : Attach) (detail delta longest : Nat) : Chip :=
  (((((c.bump 0x2300 0x05).wrPair 0x2300 0x09 (c.pairAt a.faultAt)).wr 0x2300 0x0A detail).wr 0x2300 0x0B delta).wr 0x2300 0x08 longest).event
    0x0501 sevInfo 1 a.work (leBytes detail 6)

section
variable (c : Chip) (a : Attach) (detail delta longest : Nat)

theorem reg_takeoverReported {k : Nat} (h : k < 0x1000000) (ht : k < 0x2300 * 256 + 5 ∨ 0x2300 * 256 + 0x0B < k)
    (h9 : k ≠ 0x2B00 * 256 + 9) : (c.takeoverReported a detail delta longest).reg k = c.reg k := by
  simp (disch := omega) only [Chip.takeoverReported, Chip.reg_event, Chip.reg_wr, Chip.reg_wrPair, Chip.reg_bump]

theorem count_takeoverReported : (c.takeoverReported a detail delta longest).rd 0x2300 0x05 = (c.rd 0x2300 0x05 + 1) % 2 ^ 48 := by
  refine (Chip.rd_of_reg ?_).trans (Chip.rd_bump_same c 0x2300 0x05)
  simp (disch := omega) only [Chip.takeoverReported, Chip.reg_event, Chip.reg_wr, Chip.reg_wrPair]

theorem last_takeoverReported : (c.takeoverReported a detail delta longest).rdPair 0x2300 0x09 = c.pairAt a.faultAt := by
  refine (rdPair_of_reg ?_ ?_).trans (Chip.rdPair_wrPair_same (c.bump 0x2300 0x05) 0x2300 0x09 _)
  all_goals simp (disch := omega) only [Chip.takeoverReported, Chip.reg_event, Chip.reg_wr]

theorem takeoverReported_keeps : (c.takeoverReported a detail delta longest).works = c.works ∧
    (c.takeoverReported a detail delta longest).regions = c.regions := by
  simp [Chip.takeoverReported]

end

section
variable (c : Chip) (r : Nat)

theorem attach_queueTest (sil : Nat) (k : TestKind) (asked : Bool) : ((c.queueTest sil k asked).region r).attach = (c.region r).attach := by
  by_cases h : r = regOf sil
  · subst h
    rw [Chip.queueTest, Chip.region_modRegion_same]
  · rw [Chip.queueTest, Chip.region_modRegion_other _ _ _ _ h]

theorem tests_queueTest (sil : Nat) (k : TestKind) (asked : Bool) :
    ((c.queueTest sil k asked).region (regOf sil)).tests = (c.region (regOf sil)).tests ++ [(sil, k, asked)] := by
  rw [Chip.queueTest, Chip.region_modRegion_same]

/-- A region whose relief has attached. -/
def attached (x : Region) : Region := { x with attach := none }

theorem tests_modRegion_attached (j : Nat) : ((c.modRegion r attached).region j).tests = (c.region j).tests := by
  by_cases h : j = r
  · subst h
    rw [Chip.region_modRegion_same, attached]
  · rw [Chip.region_modRegion_other _ _ _ _ h]

end

/-- The chip whose relief has taken work e. -/
def Chip.tookOver (c : Chip) (e : Nat) : Chip := (c.relieve e).modWork e (attachWork (c.attachCycle e).isSome (c.attachHeld e))

theorem attachRelief_eq (c : Chip) (r : Nat) (a : Attach) : ∃ detail delta longest, c.attachRelief r a =
    (((c.tookOver a.work).takeoverReported a detail delta longest).modRegion r attached).queueTest a.silFailed .asRelief false :=
  ⟨_, _, _, rfl⟩

theorem gives_reliefAttach (s : State) (t : Instant) (r : Fin 4) (a : Attach) (hr : s.chip.running = true)
    (ha : (s.chip.region r.val).attach = some a) : Gives s (.reliefAttach t r) ((s.chip.at_ t).attachRelief r.val a) := by
  show execReliefAttach t r s = _
  simp only [execReliefAttach, State.onChip, ha, hr, if_true]

/-- The work map aside, a takeover changes the work alone. -/
theorem tookOver_eq (c : Chip) (e : Nat) : ∃ regs wd, c.tookOver e =
    { c.modWork e (attachWork (c.attachCycle e).isSome (c.attachHeld e)) with regs := regs, wd := wd } := by
  obtain ⟨regs, wd, h⟩ := changesRollCall_relieve c e
  rw [Chip.tookOver, h]
  exact ⟨regs, wd, rfl⟩

theorem work_tookOver (c : Chip) (e k : Nat) : (c.tookOver e).work k =
    (c.modWork e (attachWork (c.attachCycle e).isSome (c.attachHeld e))).work k := by
  obtain ⟨regs, wd, h⟩ := tookOver_eq c e
  rw [h]
  rfl

theorem reg_tookOver (c : Chip) (e : Nat) {k : Nat} (hm : k ≠ 0x2300 * 256 + (0x10 + e / 8)) (hs : k ≠ 0x2300 * 256 + 0x14) :
    (c.tookOver e).reg k = c.reg k := by
  rw [Chip.reg, Chip.tookOver, Chip.modWork_regs]
  exact reg_relieve c e hm hs

/-- The relief of its region serves a work from its takeover on. -/
theorem servedBy_tookOver (c : Chip) (e : Nat) (he : e / 8 < 4) : (c.tookOver e).servedBy e = c.reliefSil (e / 8) := by
  rw [Chip.tookOver, Chip.servedBy, Chip.fld, Chip.modWork_rd]
  exact servedBy_relieve c e he

theorem tookOver_keeps (c : Chip) (e : Nat) : (c.tookOver e).regions = c.regions ∧ (c.tookOver e).net = c.net ∧
    (c.tookOver e).now = c.now := by
  obtain ⟨regs, wd, h⟩ := tookOver_eq c e
  rw [h]
  exact ⟨rfl, rfl, rfl⟩

/-- What the relief of region r leaves when it has taken a work of the region. -/
theorem attachRelief_takes (c : Chip) (r : Nat) (a : Attach) (hr : r < 4) (ha : a.work / 8 = r) :
    ((c.attachRelief r a).region r).attach = none ∧ (c.attachRelief r a).servedBy a.work = c.reliefSil r ∧
    (∀ e ≠ a.work, (c.attachRelief r a).work e = c.work e) ∧
    (c.attachRelief r a).work a.work = attachWork (c.attachCycle a.work).isSome (c.attachHeld a.work) (c.work a.work) ∧
    (c.attachRelief r a).rd 0x2300 0x05 = (c.rd 0x2300 0x05 + 1) % 2 ^ 48 ∧
    (c.attachRelief r a).rdPair 0x2300 0x09 = c.pairAt a.faultAt ∧
    ((c.attachRelief r a).region (regOf a.silFailed)).tests = (c.region (regOf a.silFailed)).tests ++ [(a.silFailed, .asRelief, false)] := by
  subst ha
  obtain ⟨detail, delta, longest, hc⟩ := attachRelief_eq c (a.work / 8) a
  generalize c.attachRelief (a.work / 8) a = d at hc ⊢
  obtain ⟨hworks, hregions⟩ := takeoverReported_keeps (c.tookOver a.work) a detail delta longest
  obtain ⟨hregions', hnet, hnow⟩ := tookOver_keeps c a.work
  have hreg (k : Nat) : d.reg k = ((c.tookOver a.work).takeoverReported a detail delta longest).reg k := by
    rw [hc, Chip.reg, Chip.queueTest, Chip.modRegion_regs, Chip.modRegion_regs]
  have hwork (e : Nat) : d.work e = (c.tookOver a.work).work e := by
    rw [hc, Chip.work, Chip.queueTest, Chip.modRegion_works, Chip.modRegion_works, hworks, Chip.work]
  refine ⟨?_, ?_, fun e he => ?_, ?_, ?_, ?_, ?_⟩
  · rw [hc, attach_queueTest, Chip.region_modRegion_same, attached]
  · refine Eq.trans (Chip.fld_of_reg _ _ ?_) (servedBy_tookOver c a.work hr)
    exact (hreg _).trans (reg_takeoverReported _ _ _ _ _ (by omega) (by omega) (by omega))
  · rw [hwork, work_tookOver, Chip.work_modWork_other _ _ _ _ he]
  · rw [hwork, work_tookOver, Chip.work_modWork_same]
  · rw [Chip.rd_of_reg (hreg _), count_takeoverReported, Chip.rd_of_reg (reg_tookOver c a.work (by omega) (by omega))]
  · rw [rdPair_of_reg (hreg _) (hreg _), last_takeoverReported]
    exact pairAt_congr (reg_tookOver c a.work (by omega) (by omega)) (congrArg Net.tb hnet) hnow _
  · rw [hc, tests_queueTest, tests_modRegion_attached, Chip.region, hregions, hregions', Chip.region]

end Sys2Proof.Machine
end

section
namespace Sys2Proof.Machine

/-! ### A takeover within a cycle -/

theorem unsealed_of_cycle {c : Chip} {n : Nat} {cy : Cycle} (h : (c.cl n).cycle = some cy) (hs : cy.sealed = false)
    (hb : sealedBy cy c.now = false) : c.unsealed n = true := by
  simp [Chip.unsealed, h, hs, hb]

/-- Of a work that has written nothing since its milestone: the fault of its engine fences the silicon, puts the work at its milestone and
calls the relief; nothing else of the engines changes. -/
theorem engineFault_rollsBack (c : Chip) (sil src e n : Nat) (hs : sil < 36) (hf : c.silFenced sil = false) (hw : c.workOf sil = some e)
    (hn : c.classOf e = some n) (ha : (c.region (e / 8)).attach = none) (hr : c.reliefState (e / 8) = 0) (hh : (c.cl n).held = none)
    (hu : c.unsealed n = true) (hundo : (c.work e).undo = []) :
    (c.engineFault sil src).silFenced sil = true ∧ (c.engineFault sil src).reliefState (e / 8) = 1 ∧
    (c.engineFault sil src).rd 0x2100 0x05 = (c.rd 0x2100 0x05 + 1) % 2 ^ 48 ∧
    (∀ k ≠ e, (c.engineFault sil src).work k = c.work k) ∧
    (∃ at_ entry, (c.engineFault sil src).work e = atMilestone (validSlot (c.work e)) entry (readied at_ (c.work e))) ∧
    (c.engineFault sil src).dbank = c.dbank ∧
    ∃ found, ((c.engineFault sil src).region (e / 8)).attach = some ⟨e, sil, src, 0, false, found⟩ := by
  obtain ⟨-, hworks, hcls, hdbank, hnow⟩ := engineFenced_keeps c sil src
  have hwork (k : Nat) : (c.engineFenced sil src).work k = c.work k := congrArg (nth Work.reset · k) hworks
  have hcl : (c.engineFenced sil src).cl n = c.cl n := congrArg (nth Cls.reset · n) hcls
  have hsil := silFenced_engineFenced c sil src (by omega)
  have hcount := rd_engineFenced c sil src
  rw [engineFault_callsRelief c sil src e n hs hf hw hn ha hr]
  obtain ⟨at_, found, f, entry, hc⟩ := callRelief_of_nil (c.engineFenced sil src) e n sil src (hcl ▸ hh)
    (by rwa [Chip.unsealed, hcl, hnow]) ((hwork e).symm ▸ hundo)
  have he : e / 8 < 4 := workOf_region hw ▸ regOf_lt hs
  generalize c.engineFenced sil src = d at *
  rw [hc, ← hwork e, ← hdbank]
  refine ⟨?_, reliefState_setReliefState _ _ 1 he (by decide), ?_, fun k hk => ?_, ⟨at_, entry, ?_⟩, ?_, found, ?_⟩
  · exact (Chip.bit_of_reg _ (Chip.reg_setFld _ _ _ _ _ _ (by omega))).trans hsil
  · exact (Chip.rd_of_reg (Chip.reg_setFld _ _ _ _ _ _ (by omega))).trans hcount
  · exact (Chip.work_modWork_other _ _ _ _ hk).trans (hwork k)
  · exact Chip.work_modWork_same ..
  · rfl
  · exact congrArg Region.attach (Chip.region_modRegion_same ..)

/-- Settles O26: the entry bits part by part, the rollback of a work that has written nothing, and the attachment. -/
theorem theReliefTakesAFailedEnginesWork : Obligations.TheReliefTakesAFailedEnginesWork := by
  unfold Obligations.TheReliefTakesAFailedEnginesWork
  refine ⟨⟨undoOf_undoBits_word, undoOf_undoBits_record, undoOf_undoBits_mark⟩, fun s t => ⟨?_, ?_⟩⟩
  · intro sil src e n cy hrun hf hw hn hcy hseal hsealed hheld hattach hstate hundo
    have hunsealed : (s.chip.at_ t).unsealed n = true := unsealed_of_cycle hcy hseal hsealed
    obtain ⟨hfenced, hserving, hcount, hother, ⟨at_, entry, hwork⟩, hdbank, found, hcalled⟩ :=
      engineFault_rollsBack (s.chip.at_ t) sil.val src.val e n sil.isLt hf hw hn hattach hstate hheld hunsealed hundo
    refine ⟨_, gives_hardwareFault s t (.engine sil src) hrun, hfenced, hserving, hcount, hother, ?_⟩
    simp only [Chip.hardFault, hwork]
    refine ⟨rfl, rfl, rfl, rfl, fun hent => ⟨?_, ?_⟩, hdbank, _, hcalled, rfl, rfl, rfl⟩
    · exact if_neg (Bool.eq_false_iff.mp hent)
    · exact if_neg (Bool.eq_false_iff.mp hent)
  · intro r x hrun hx hr
    obtain ⟨hattach, hserved, hother, hwork, hcount, hlast, htests⟩ := attachRelief_takes (s.chip.at_ t) r.val x r.isLt hr
    refine ⟨_, gives_reliefAttach s t r x hrun hx, hattach, hserved, hother, ?_, ?_, hcount, hlast, htests⟩
    · rw [hwork, attachWork_arch]
      rfl
    · rw [hwork, attachWork_run]
      cases hn : s.chip.classOf x.work with
      | none =>
        rw [attachCycle_of_noClass (c := s.chip.at_ t) hn]
        rfl
      | some n =>
        rw [isSome_attachCycle (c := s.chip.at_ t) hn, attachHeld_of_class (c := s.chip.at_ t) hn]
        rfl

end Sys2Proof.Machine
end

section
namespace Sys2Proof.Machine

/-! ### The order of writes (R195, R322, R335) -/

/-- Recording an execution changes the executed sets, and counts a displaced originator where the sets are full. -/
theorem executed_eq (c : Chip) (id csn r : Nat) : ∃ regs p, c.executed id csn r = { c with regs := regs, pair := p } ∧
    (regs = c.regs ∨ regs = (c.bump 0x2400 0x13).regs) := by
  simp only [Chip.executed]
  split
  · exact ⟨_, _, rfl, .inl rfl⟩
  · split
    · exact ⟨_, _, rfl, .inr rfl⟩
    · exact ⟨_, _, rfl, .inl rfl⟩

theorem sendCmds_eq (c : Chip) (l : List FwdCmd) : ∃ p, l.foldl (fun c f => c.send (.cmd f)) c = { c with pair := p } := by
  obtain ⟨p, h⟩ := sends_eq c (l.map .cmd)
  exact ⟨p, by rw [← h, List.foldl_map]⟩

/-- The chip that a successful write leaves: its owner's, or the one before where a later write stands (R322). -/
def Chip.standing (c c' : Chip) (w : Who) (ix sub : Nat) : Chip := if (c.laterWrite w ix sub).isSome then c else c'

/-- A write that is carried out leaves the chip that stands, but for the count of displaced originators, the executed sets and the frames sent,
and the answer. -/
theorem conclude_eq (c c' : Chip) (w : Who) (ix sub : Nat) (data : List Byte) : ∃ regs p d,
    c.conclude w ix sub data (.ok c') = { c.standing c' w ix sub with regs := regs, pair := p, dict := d } ∧
    (regs = (c.standing c' w ix sub).regs ∨ regs = ((c.standing c' w ix sub).bump 0x2400 0x13).regs) := by
  obtain ⟨regs, p, he, hr⟩ := executed_eq (c.standing c' w ix sub) w.orig w.csn 0
  simp only [Chip.conclude]
  split
  · exact ⟨regs, p, _, by rw [← Chip.standing, he]; rfl, hr⟩
  · obtain ⟨p', hs⟩ := sendCmds_eq (((c.standing c' w ix sub).executed w.orig w.csn 0).noteWrite w ix sub data)
      (fwdWrites (((c.standing c' w ix sub).executed w.orig w.csn 0).noteWrite w ix sub data).now ix sub
        ((c.laterWrite w ix sub).getD data) w.orig w.csn)
    exact ⟨regs, p', _, by rw [← Chip.standing, hs, he]; rfl, hr⟩

/-- A write is later than that of `w`: of the same microsecond and entry, for a session of a higher number (R322). -/
theorem laterWrite_isSome (c : Chip) (w : Who) (ix sub : Nat) (e : Entry) (he : entryOf ix sub = some e) :
    (c.laterWrite w ix sub).isSome = true ↔
      e.acc = .rw ∧ w.path.isSome = true ∧ ∃ v n, w.snum < n ∧ (c.now / 1000, n, ix, sub, v) ∈ c.dict.lately := by
  simp only [Chip.laterWrite, he]
  split
  next h =>
    simp only [Bool.and_eq_true, beq_iff_eq] at h
    simp only [Option.isSome_map, List.find?_isSome, Bool.and_eq_true, beq_iff_eq, decide_eq_true_eq, h, true_and]
    constructor
    · rintro ⟨⟨t, n, i, s, v⟩, hm, ⟨⟨rfl, hn⟩, rfl⟩, rfl⟩
      exact ⟨v, n, hn, hm⟩
    · rintro ⟨v, n, hn, hm⟩
      exact ⟨_, hm, ⟨⟨rfl, hn⟩, rfl⟩, rfl⟩
  next h =>
    simp only [Bool.and_eq_true, beq_iff_eq] at h
    simp only [Option.isSome_none, Bool.false_eq_true, false_iff]
    exact fun ⟨ha, hp, _⟩ => h ⟨ha, hp⟩

theorem sdoCsn_lt_next (c : Chip) : c.dict.sdoCsn < c.nextSdoCsn :=
  Nat.lt_succ_of_le (Nat.le_max_left ..)

theorem highest_lt_next (c : Chip) (o : Originator) (h : c.orig (0x10000 + c.rd 0x2900 0x22) = some o) : o.highest < c.nextSdoCsn := by
  simp only [Chip.nextSdoCsn, h]
  exact Nat.lt_succ_of_le (Nat.le_max_right ..)

/-- A write changes no register but its own. -/
theorem sameRegs_wr (c d : Chip) (ix sub v : Nat) (hi : ix < 65536) (hs : sub < 256) (h : d.regs = (c.wr ix sub v).regs) :
    SameRegs c d [(ix, sub)] := by
  intro i j hi' hj hn
  have hne : ¬ (i = ix ∧ j = sub) := fun ⟨hi, hj⟩ => hn (by simp [hi, hj])
  have hk (k : Nat) (hk : k ≠ ix * 256 + sub) : d.reg k = c.reg k := by
    rw [Chip.reg, h]
    exact Chip.reg_wr c ix sub v hk
  exact rdPair_of_reg (hk _ (by omega)) (hk _ (by omega))

/-- Settles O52: the number given lies above both counts, and what a carried-out write leaves is told by whether a later one stands. -/
theorem writesAreOrdered : Obligations.WritesAreOrdered := by
  unfold Obligations.WritesAreOrdered
  refine ⟨fun c => ⟨sdoCsn_lt_next c, fun o => highest_lt_next c o⟩, fun c a bs ha hs hp => ?_, fun c c' w ix sub data e he => ?_⟩
  · simp only [Chip.identify, ha, hs, if_true, if_neg hp]
  · have hl := laterWrite_isSome c w ix sub e he
    obtain ⟨regs, p, d, hd, hr⟩ := conclude_eq c c' w ix sub data
    simp only [hd]
    refine ⟨fun hrw hpath hlater => ?_, fun hnot => ?_⟩
    · have hst : c.standing c' w ix sub = c := if_pos (hl.mpr ⟨hrw, hpath, hlater⟩)
      rwa [hst] at hr
    · have hst : c.standing c' w ix sub = c' := if_neg fun h => by
        obtain ⟨hrw, hpath, v, hv⟩ := hl.mp h
        rcases hnot with hn | hn | hn
        · exact hn hrw
        · rw [hn] at hpath; cases hpath
        · exact hn v hv
      rw [hst] at hr ⊢
      refine ⟨rfl, rfl, rfl, ?_⟩
      rcases hr with rfl | rfl
      · exact fun _ _ _ _ _ => rfl
      · exact sameRegs_wr c' _ 0x2400 0x13 _ (by decide) (by decide) rfl

end Sys2Proof.Machine
end
section
namespace Sys2Proof.Machine

/-! ### The pair's own state (R172, Table 06-11) -/

/-- What the chip keeps of the pair: its structure, and the registers of index 0x2400. -/
def Chip.pairSide (c : Chip) : Pair × (Fin 256 → Word) := (c.pair, fun i => c.reg (0x2400 * 256 + i.val))

theorem pairSide_congr {c d : Chip} (hp : d.pair = c.pair) (hr : ∀ k, k / 256 = 0x2400 → d.reg k = c.reg k) : d.pairSide = c.pairSide :=
  Prod.ext hp (funext fun i => hr _ (by have := i.isLt; omega))

theorem pair_of_pairSide {c d : Chip} (h : d.pairSide = c.pairSide) : d.pair = c.pair := congrArg Prod.fst h

theorem reg_of_pairSide {c d : Chip} (h : d.pairSide = c.pairSide) (sub : Nat) (hs : sub < 256) :
    d.reg (0x2400 * 256 + sub) = c.reg (0x2400 * 256 + sub) := congrFun (congrArg Prod.snd h) ⟨sub, hs⟩

section
variable (c : Chip)

theorem pairSide_ite {p : Prop} [Decidable p] {d e : Chip} (hd : d.pairSide = c.pairSide) (he : e.pairSide = c.pairSide) :
    (if p then d else e).pairSide = c.pairSide := by
  split
  · exact hd
  · exact he

theorem pairSide_wr (ix sub v : Nat) (h : (ix * 256 + sub) / 256 ≠ 0x2400) : (c.wr ix sub v).pairSide = c.pairSide :=
  pairSide_congr rfl fun k hk => Chip.reg_wr _ _ _ _ (by rintro rfl; exact h hk)

theorem pairSide_syncCan (k : Nat) (hk : k < 4) : (c.syncCan k).pairSide = c.pairSide := by
  obtain ⟨⟨regs, can, h⟩, hr⟩ := syncCan_changes c k
  exact pairSide_congr (by rw [h]) fun j hj => hr j (by omega)

theorem pairSide_settleWires (l : List Nat) : (c.forAll l (fun c k => c.settleWire k c.now)).pairSide = c.pairSide := by
  refine foldl_keeps Chip.pairSide (fun d k _ => ?_) c
  obtain ⟨free, can, h⟩ := settleWire_eq d k d.now
  rw [h]
  rfl

theorem pairSide_modTarget (k : Nat) (f : Target' → Target') : (c.modTarget k f).pairSide = c.pairSide := rfl

theorem pairSide_abortUpdate (t reason : Nat) : (c.abortUpdate t reason).pairSide = c.pairSide := by
  simp only [Chip.abortUpdate, Chip.setBankState, Chip.setFld]
  rw [pairSide_modTarget, pairSide_wr _ _ _ _ (by omega), pairSide_wr _ _ _ _ (by omega), pairSide_wr _ _ _ _ (by omega),
    pairSide_wr _ _ _ _ (by omega)]

theorem pairSide_abortUpdates (reason : Nat) : (c.abortUpdates reason).pairSide = c.pairSide := by
  refine foldl_keeps Chip.pairSide (fun d t _ => ?_) c
  exact pairSide_ite d (pairSide_abortUpdate ..) rfl

theorem pairSide_toState (n st : Nat) (hn : n < 16) : (c.toState n st).pairSide = c.pairSide := by
  obtain ⟨regs, wd, h⟩ := toState_eq c n st
  exact pairSide_congr (by rw [h]) fun k hk => reg_toState c n st hn (by omega) (by omega) (by omega)

theorem pairSide_restClasses : c.restClasses.pairSide = c.pairSide := by
  refine foldl_keeps Chip.pairSide (fun d n hn => ?_) c
  obtain ⟨ws, hw⟩ := forAll_restWork_eq d (clsTeam (d.cl n))
  simp only [hw]
  exact pairSide_ite d (pairSide_toState _ n _ (List.mem_range.mp hn)) rfl

theorem ChangesAos.pairSide {c d : Chip} (h : ChangesAos c d) : d.pairSide = c.pairSide := by
  obtain ⟨⟨r, q, a, v, t, n, rfl⟩, hr⟩ := h
  exact pairSide_congr rfl fun k hk => hr k (by omega) (by omega)

theorem ChangesDos.pairSide {c d : Chip} (h : ChangesDos c d) : d.pairSide = c.pairSide := by
  obtain ⟨x, y, rfl⟩ := h
  rfl

theorem pairSide_releaseOutputs : c.releaseOutputs.pairSide = c.pairSide := by
  simp only [Chip.releaseOutputs]
  refine pairSide_ite c ((foldl_keeps Chip.pairSide (fun d o _ => ?_) _).trans (foldl_keeps Chip.pairSide (fun d n _ => ?_) _)) rfl
  · exact ((changesAos_modAo ..).trans (changesAos_applyAo ..)).pairSide
  · exact ((changesDos_modDo ..).trans (changesDos_forceDo ..)).pairSide

theorem pairSide_setTb (st : Nat) : (c.setTb st).pairSide = c.pairSide := pairSide_wr _ _ _ _ (by omega)

theorem pairSide_ownTime : c.ownTime.pairSide = c.pairSide := by
  unfold Chip.ownTime
  exact pairSide_ite c (pairSide_setTb c 2) ((pairSide_wr _ _ _ _ (by omega)).trans (pairSide_setTb c 3))

/-! ### What a frame sent changes -/

/-- A pair that has sent frames: their numbers and copies alone are new (R176). -/
def HasSent (p q : Pair) : Prop := ∃ l st, q = { p with lsnOut := l, store := st }

theorem HasSent.refl (p : Pair) : HasSent p p := ⟨p.lsnOut, p.store, rfl⟩

theorem hasSent_send (f : OnbexOut) : HasSent c.pair (c.send f).pair := by
  unfold Chip.send
  split
  · exact ⟨_, _, rfl⟩
  · exact .refl _

/-! ### A change of the pair state (R172, Table 06-5) -/

/-- The pair once its state is `st`. -/
def enteredPair (st cause : Nat) (old : Nat) (now : Instant) (p : Pair) : Pair := { p with
  began := now, baton := st == psActive, released := !executesIn st, listenOnly := !(st == psActive || st == psAlone),
  joinedAt := if st = psJoining then now else p.joinedAt,
  readySince := if st = psStandbyReady then some now else none, copying := false,
  synced := if executesIn st then p.synced else [], sharedSynced := executesIn st && p.sharedSynced,
  heldRel := if st = psStandbyReady then p.heldRel else [], heldFrames := if st = psStandbyReady then p.heldFrames else [],
  fencedBy := if st = psFenced then cause else p.fencedBy,
  fwdItems := if (st = psStandbyReady && old != psActive) || st = psActive then p.fwdItems else [],
  sealNow := [], lost := false,
  seals := if st = psStandbyReady || st = psActive then p.seals else [], abandoned := if executesIn st then 0 else p.abandoned,
  pages := [], discr := [], ownHash := if executesIn st then p.ownHash else [],
  partnerHash := if executesIn st then p.partnerHash else [],
  grant := none, asked := false }

/-- The chip with its new pair state written, the frames under way on its CAN ports settled, and its updates aborted where it leaves the
pair's work (R210). -/
def Chip.moved (c : Chip) (st : Nat) : Chip :=
  let d := (c.forAll (List.range 4) (fun c k => c.settleWire k c.now)).wr 0x2400 0x03 st
  if (c.pairState == psActive || c.pairState == psStandbyReady) && !(st == psActive || st == psStandbyReady) then d.abortUpdates 20 else d

/-- A change of role, and every other change with a cause, is reported with its instant (R172). -/
def Chip.reported (c : Chip) (old st cause : Nat) (p : TimePair) : Chip :=
  if cause = 0 ∧ (old == psActive) = (st == psActive) then c else (c.wr 0x2400 0x12 cause).wrPair 0x2400 0x11 p

/-- The chip's outputs, classes, timebase and CAN ports follow its new state. -/
def Chip.followed (c : Chip) (st : Nat) : Chip :=
  let c := if executesIn st then c else (c.releaseOutputs).restClasses
  let tb := c.rd 0x2A00 0x01
  let c := if st = psStandbyReady then c.setTb 4
    else if tb = 4 then (if st = psActive ∨ st = psAlone then c.ownTime else c.setTb (if c.net.tb.gm.isSome then 1 else 0)) else c
  c.forAll (List.range 4) (fun c k => c.syncCan k)

theorem setPair_eq (st cause : Nat) : c.setPair st cause =
    (let d := (c.moved st).reported c.pairState st cause ((c.moved st).pairAt (c.moved st).now)
     let d := (d.modPair (enteredPair st cause c.pairState d.now)).followed st
     if st = psJoining then d.send (.caps d.ownCaps) else if st = psFenced then d.send (.fence cause) else d) := rfl

theorem pairSide_followed (st : Nat) : (c.followed st).pairSide = c.pairSide := by
  simp only [Chip.followed]
  refine (foldl_keeps Chip.pairSide (fun d k hk => pairSide_syncCan d k (List.mem_range.mp hk)) _).trans ?_
  refine (pairSide_ite _ (pairSide_setTb _ _) (pairSide_ite _ (pairSide_ite _ (pairSide_ownTime _) (pairSide_setTb _ _)) rfl)).trans ?_
  exact pairSide_ite _ rfl ((pairSide_restClasses _).trans (pairSide_releaseOutputs _))

/-- A register of the pair written on chips that agree on the pair. -/
theorem pairSide_wr_congr {c d : Chip} (h : d.pairSide = c.pairSide) (sub v : Nat) :
    (d.wr 0x2400 sub v).pairSide = (c.wr 0x2400 sub v).pairSide := by
  refine Prod.ext (show d.pair = c.pair from pair_of_pairSide h) (funext fun i => ?_)
  by_cases hk : 0x2400 * 256 + i.val = 0x2400 * 256 + sub
  · simp only [Chip.pairSide, Chip.reg, hk]
    exact (Sparse.get_set_same ..).trans (Sparse.get_set_same ..).symm
  · exact (Chip.reg_wr _ _ _ _ hk).trans ((reg_of_pairSide h _ i.isLt).trans (Chip.reg_wr _ _ _ _ hk).symm)

theorem moved_pairSide (st : Nat) : (c.moved st).pairSide = (c.wr 0x2400 0x03 st).pairSide := by
  have hs := pairSide_wr_congr (pairSide_settleWires c (List.range 4)) 0x03 st
  simp only [Chip.moved]
  split
  · exact (pairSide_abortUpdates _ 20).trans hs
  · exact hs

theorem reported_pair (old st cause : Nat) (p : TimePair) : (c.reported old st cause p).pair = c.pair := by
  unfold Chip.reported
  split <;> rfl

theorem reg_reported (old st cause : Nat) (p : TimePair) (sub : Nat) (hs : sub < 256) (h1 : sub ≠ 0x11) (h2 : sub ≠ 0x12) :
    (c.reported old st cause p).reg (0x2400 * 256 + sub) = c.reg (0x2400 * 256 + sub) := by
  unfold Chip.reported
  split
  · rfl
  · rw [Chip.reg_wrPair _ _ _ _ (by omega) (by omega), Chip.reg_wr _ _ _ _ (by omega)]

/-- The pair after a change of its state: that of the new state, and what the change sends. -/
theorem setPair_pair (st cause : Nat) : ∃ now, HasSent (enteredPair st cause c.pairState now c.pair) (c.setPair st cause).pair := by
  have hm : (c.moved st).pair = (c.wr 0x2400 0x03 st).pair := pair_of_pairSide (moved_pairSide c st)
  rw [setPair_eq]
  simp only
  generalize hd : (c.moved st).reported _ _ _ _ = d
  have hp : (((d.modPair (enteredPair st cause c.pairState d.now)).followed st)).pair = enteredPair st cause c.pairState d.now c.pair := by
    rw [pair_of_pairSide (pairSide_followed _ st), Chip.modPair_pair, ← hd, reported_pair, hm, Chip.wr_pair]
  refine ⟨d.now, hp ▸ ?_⟩
  split
  · exact hasSent_send _ _
  · split
    · exact hasSent_send _ _
    · exact .refl _

/-- The registers of the pair after a change of its state are those that the report of the change leaves. -/
theorem setPair_reg (st cause sub : Nat) (hs : sub < 256) : ∃ p, (c.setPair st cause).reg (0x2400 * 256 + sub) =
    ((c.moved st).reported c.pairState st cause p).reg (0x2400 * 256 + sub) := by
  refine ⟨(c.moved st).pairAt (c.moved st).now, ?_⟩
  rw [setPair_eq]
  simp only
  generalize (c.moved st).reported _ _ _ _ = d
  have hf := reg_of_pairSide (pairSide_followed (d.modPair (enteredPair st cause c.pairState d.now)) st) sub hs
  generalize (d.modPair (enteredPair st cause c.pairState d.now)).followed st = e at hf
  refine Eq.trans ?_ hf
  split
  · exact congrArg (Sparse.get regDefault · _) (Chip.send_regs _ _)
  · split
    · exact congrArg (Sparse.get regDefault · _) (Chip.send_regs _ _)
    · rfl

/-- A change of state leaves the registers of the pair but the state and the report of a change. -/
theorem reg_setPair (st cause sub : Nat) (hs : sub < 256) (h3 : sub ≠ 3) (h1 : sub ≠ 0x11) (h2 : sub ≠ 0x12) :
    (c.setPair st cause).reg (0x2400 * 256 + sub) = c.reg (0x2400 * 256 + sub) := by
  obtain ⟨p, hp⟩ := setPair_reg c st cause sub hs
  rw [hp, reg_reported _ _ _ _ _ _ hs h1 h2, reg_of_pairSide (moved_pairSide c st) sub hs, Chip.reg_wr _ _ _ _ (by omega)]

theorem pairState_setPair (st cause : Nat) (hst : st < 2 ^ 48) : (c.setPair st cause).pairState = st := by
  obtain ⟨p, hp⟩ := setPair_reg c st cause 3 (by decide)
  rw [reg_reported _ _ _ _ _ _ (by decide) (by decide) (by decide), reg_of_pairSide (moved_pairSide c st) 3 (by decide)] at hp
  exact (Chip.rd_of_reg hp).trans ((Chip.rd_wr_same ..).trans (Nat.mod_eq_of_lt hst))

/-- A change with a cause is reported in 0x2400.12 (R172). -/
theorem cause_setPair (st cause : Nat) (h0 : cause ≠ 0) (hc : cause < 2 ^ 48) : (c.setPair st cause).rd 0x2400 0x12 = cause := by
  obtain ⟨p, hp⟩ := setPair_reg c st cause 0x12 (by decide)
  rw [Chip.reported, if_neg (fun h => h0 h.1), Chip.reg_wrPair _ _ _ _ (by decide) (by decide)] at hp
  exact (Chip.rd_of_reg hp).trans ((Chip.rd_wr_same ..).trans (Nat.mod_eq_of_lt hc))

end
end Sys2Proof.Machine
end

section
namespace Sys2Proof.Machine

/-! ### Frames toward the partner (R173, R176) -/

/-- The store keeps every frame while they fit 256 KiB. -/
theorem trimStore_fits (l : List (Nat × OnbexOut)) (h : storeSize l ≤ 262144) : trimStore l = l := by
  cases l with
  | nil => rfl
  | cons p l => exact if_pos h

theorem storeSize_append (l : List (Nat × OnbexOut)) (x : Nat) (f : OnbexOut) : storeSize (l ++ [(x, f)]) = storeSize l + frameSize f := by
  simp [storeSize]

theorem send_fits (c : Chip) (f : OnbexOut) (ho : c.onbexOpen = true) (h : frameSize f + storeSize c.pair.store ≤ 262144) :
    (c.send f).pair.store = c.pair.store ++ [(c.pair.lsnOut, f)] ∧ (c.send f).pair.lsnOut = (c.pair.lsnOut + 1) % 2 ^ 32 := by
  rw [Chip.send, if_pos ho]
  exact ⟨trimStore_fits _ (by rw [storeSize_append]; omega), rfl⟩

theorem gives_heartbeatTransmit (s : State) (t : Instant) (ho : s.chip.onbexOpen = true)
    (hd : ∀ x, s.chip.pair.hbSent = some x → x.1 + 1000 ≤ t) :
    Gives s (.heartbeatTransmit t) ((s.chip.at_ t).modPair (fun p => { p with
      hbSent := some (t, (p.lsnOut + 2 ^ 32 - 1) % 2 ^ 32, .heartbeat (s.chip.rd 0x2400 0x03) s.chip.pair.sideB
        ((s.chip.at_ t).pairAt t) ((s.chip.at_ t).pairAt s.chip.pair.began)) })) := by
  refine gives_of_onChip (rfl : execHeartbeatTransmit t s = s.onChip _) (if_pos ⟨ho, ?_⟩)
  split
  next hb => exact decide_eq_true (hd _ hb)
  next => rfl

theorem gives_accumTransmit (s : State) (t : Instant) (h : t % 1000000000 = 0) (ha : s.chip.pairState = psActive) :
    Gives s (.accumTransmit t) ((s.chip.at_ t).send (.accum (s.chip.meas.sets.map (·.acc)))) :=
  gives_of_onChip rfl (if_pos ⟨h, ha⟩)

/-! ### A release and its seal (R181, R182) -/

/-- A chip that shadows a class is a standby, so that it has not taken over. -/
theorem pairState_of_shadows {c : Chip} {n : Nat} (h : c.shadows n = true) : c.pairState ≠ psActive := by
  intro ha
  simp [Chip.shadows, ha] at h

/-- The chip that took over since m, whose class n has not mustered there. -/
def Chip.hasTakenOver (c : Chip) (n : Nat) (m : Instant) : Bool := c.pairState == psActive && decide (m < c.pair.began ∧ (c.cl n).lastM ≠ some m)

/-- What SHADOW_START does of a release at m on a chip that has come to t. -/
def Chip.startShadow (c : Chip) (n : Nat) (m : Instant) (took : Bool) : Chip :=
  match c.pair.seals.find? (fun x => x.e.cls.val == n && x.e.m.instant == m), c.pair.lost with
  | some x, false => c.shadowRelease n m x.e
  | _, _ =>
    if took then ((c.applyEdits (clsRegion (c.cl n)) m).musterClass n m).sendSeals
    else if c.sealExpected n m then c.modPair (fun p => { p with heldRel := p.heldRel ++ [(n, m)] })
    else c

theorem gives_shadowStart (s : State) (t : Instant) (cls : Fin 16) (h3 : 3000 ≤ t) (ht : isTick (t - 3000) = true)
    (hc : (((s.chip.dispatchAll t).at_ t).cl cls.val).cycle = none)
    (hs : (s.chip.shadows cls.val || s.chip.hasTakenOver cls.val (t - 3000)) = true) :
    Gives s (.shadowStart t cls) (((s.chip.dispatchAll t).at_ t).startShadow cls.val (t - 3000) (s.chip.hasTakenOver cls.val (t - 3000))) := by
  refine gives_of_onChip (rfl : execShadowStart t cls s = s.onChip _) ((if_pos ⟨h3, ht, hs⟩).trans ?_)
  simp only [hc, Option.isSome_none, Bool.false_eq_true, if_false]
  rfl

theorem startShadow_sealed {c : Chip} {n : Nat} {m : Instant} {x : SealRx} (took : Bool) (hl : c.pair.lost = false)
    (hx : c.pair.seals.find? (fun x => x.e.cls.val == n && x.e.m.instant == m) = some x) : c.startShadow n m took = c.shadowRelease n m x.e := by
  simp only [Chip.startShadow, hx, hl]

theorem startShadow_unsealed {c : Chip} {n : Nat} {m : Instant} (took : Bool)
    (h : c.pair.lost = true ∨ c.pair.seals.find? (fun x => x.e.cls.val == n && x.e.m.instant == m) = none) : c.startShadow n m took =
      if took then ((c.applyEdits (clsRegion (c.cl n)) m).musterClass n m).sendSeals
      else if c.sealExpected n m then c.modPair (fun p => { p with heldRel := p.heldRel ++ [(n, m)] })
      else c := by
  unfold Chip.startShadow
  split
  next x hx hl => rcases h with h | h <;> simp_all
  next => rfl

/-! ### Hot shadow is left (R182, R187) -/

/-- A chip synchronises again, and counts and reports why. -/
def Chip.resync (c : Chip) (cause : Nat) : Chip := (c.bump 0x2400 0x0D).setPair psSynchronising cause

theorem resync_reports (c : Chip) (cause : Nat) (h0 : cause ≠ 0) (hc : cause < 2 ^ 48) : (c.resync cause).pairState = psSynchronising ∧
    (c.resync cause).rd 0x2400 0x0D = (c.rd 0x2400 0x0D + 1) % 2 ^ 48 ∧ (c.resync cause).rd 0x2400 0x12 = cause :=
  ⟨pairState_setPair _ _ _ (by decide),
    (Chip.rd_of_reg (reg_setPair _ _ _ 0x0D (by decide) (by decide) (by decide) (by decide))).trans (Chip.rd_bump_same ..),
    cause_setPair _ _ _ h0 hc⟩

/-- A chip that leaves hot shadow holds no release, no seal and no hash any more. -/
theorem resync_drops (c : Chip) (cause : Nat) : (c.resync cause).pair.heldRel = [] ∧ (c.resync cause).pair.seals = [] ∧
    (c.resync cause).pair.ownHash = [] := by
  obtain ⟨now, l, st, hp⟩ := setPair_pair (c.bump 0x2400 0x0D) psSynchronising cause
  rw [Chip.resync, hp]
  exact ⟨rfl, rfl, rfl⟩

theorem sealFault_standby (c : Chip) (n : Nat) (h : c.pairState = psStandbyReady) : c.sealFault n = c.resync 9 := if_pos h

theorem sealFault_other (c : Chip) (n : Nat) (h : c.pairState ≠ psStandbyReady) :
    c.sealFault n = c.modPair (fun p => { p with synced := p.synced.filter (· != n) }) := if_neg h

theorem gives_sealFaultDeadline (s : State) (t : Instant) (cls : Fin 16) (m : Instant) (hm : (cls.val, m) ∈ s.chip.pair.heldRel)
    (ht : m + 6700 ≤ t) : Gives s (.sealFaultDeadline t cls)
      (((s.chip.at_ t).modPair (fun p => { p with heldRel := p.heldRel.filter (fun q => q.1 != cls.val) })).sealFault cls.val) := by
  refine gives_of_onChip (rfl : execSealFaultDeadline t cls s = s.onChip _) (if_pos ?_)
  exact List.any_eq_true.mpr ⟨_, hm, by simp [ht]⟩

/-- A held release whose deadline has passed is dropped; hot shadow ends, or in a copy the class leaves it (R182). -/
theorem sealFault_of_held (c : Chip) (n : Nat) :
    let d := c.modPair (fun p => { p with heldRel := p.heldRel.filter (fun q => q.1 != n) });
    (∀ x ∈ (d.sealFault n).pair.heldRel, x.1 ≠ n) ∧
    (c.pairState = psStandbyReady → (d.sealFault n).pairState = psSynchronising ∧
      (d.sealFault n).rd 0x2400 0x0D = (c.rd 0x2400 0x0D + 1) % 2 ^ 48 ∧ (d.sealFault n).rd 0x2400 0x12 = 9) ∧
    (c.pairState = psSynchronising → (d.sealFault n).pairState = psSynchronising ∧ n ∉ (d.sealFault n).pair.synced) := by
  intro d
  by_cases hs : d.pairState = psStandbyReady
  · rw [sealFault_standby d n hs]
    refine ⟨fun x hx => ?_, fun _ => resync_reports d 9 (by decide) (by decide), fun hy => ?_⟩
    · rw [(resync_drops d 9).1] at hx
      cases hx
    · exact absurd (hs.symm.trans hy) (by decide)
  · rw [sealFault_other d n hs]
    refine ⟨fun x hx => ?_, fun hy => absurd hy hs, fun hy => ⟨hy, ?_⟩⟩
    · simpa using (List.mem_filter.mp hx).2
    · exact fun hx => by simpa using (List.mem_filter.mp hx).2

/-! ### The dispatch hash at its deadline (R187) -/

/-- The hashes of an instant go. -/
def Chip.dropHash (c : Chip) (d : Instant) : Chip :=
  c.modPair (fun p => { p with ownHash := p.ownHash.filter (fun x => x.1 != d), partnerHash := p.partnerHash.filter (fun x => x.1 != d) })

/-- What the deadline of the own hash h of instant d comes to. -/
def Chip.hashDue (c : Chip) (d h : Nat) : Chip :=
  match c.pair.partnerHash.find? (fun x => x.1 == d) with
  | some x => if x.2 = h then (c.hashMatch d).dropHash d else c.hashMismatch d
  | none => if c.linkUp = true ∧ (c.partnerReady = true ∨ c.pairState = psStandbyReady) then c.hashMismatch d else c.dropHash d

theorem gives_hashDeadline (s : State) (t : Instant) (d h : Nat)
    (hf : s.chip.pair.ownHash.find? (fun x => decide (x.1 + 2500 ≤ t)) = some (d, h)) :
    Gives s (.hashDeadline t) ((s.chip.at_ t).hashDue d h) := by
  show execHashDeadline t s = _
  simp only [execHashDeadline, State.onChip, hf]
  rfl

theorem cancelGrant_cases (c : Chip) : c.cancelGrant = c ∨ ∃ r, c.cancelGrant = c.modPair (fun p => { p with
    grant := none, asked := false, readySince := r }) := by
  unfold Chip.cancelGrant
  split
  · exact .inr ⟨_, rfl⟩
  · exact .inl rfl

/-- A mismatch is counted and its hashes and frames go. -/
def Chip.mismatched (c : Chip) (d : Instant) : Chip := (c.bump 0x2400 0x0E).cancelGrant.modPair (fun p => { p with
  ownHash := p.ownHash.filter (fun x => x.1 != d), partnerHash := p.partnerHash.filter (fun x => x.1 != d),
  heldFrames := p.heldFrames.filter (fun x => x.1.instant != d) })

theorem hashMismatch_eq (c : Chip) (d : Instant) : c.hashMismatch d =
    if (c.mismatched d).pairState = psActive then (c.mismatched d).event (Config.pairEventCode 1) sevMajor 9 0 []
    else (c.mismatched d).resync 8 := rfl

theorem mismatched_regs (c : Chip) (d : Instant) : (c.mismatched d).regs = (c.bump 0x2400 0x0E).regs := by
  rcases cancelGrant_cases (c.bump 0x2400 0x0E) with h | ⟨r, h⟩ <;> rw [Chip.mismatched, h] <;> rfl

theorem mismatched_ownHash (c : Chip) (d : Instant) : (c.mismatched d).pair.ownHash = c.pair.ownHash.filter (fun x => x.1 != d) := by
  rcases cancelGrant_cases (c.bump 0x2400 0x0E) with h | ⟨r, h⟩ <;> rw [Chip.mismatched, h] <;> rfl

theorem pairState_mismatched (c : Chip) (d : Instant) : (c.mismatched d).pairState = c.pairState :=
  (Chip.rd_congr (mismatched_regs c d) _ _).trans (Chip.rd_bump_other _ _ _ _ _ (by decide))

theorem rd_mismatched (c : Chip) (d : Instant) : (c.mismatched d).rd 0x2400 0x0E = (c.rd 0x2400 0x0E + 1) % 2 ^ 48 :=
  (Chip.rd_congr (mismatched_regs c d) _ _).trans (Chip.rd_bump_same ..)

/-- A mismatch of the dispatch hash is counted; the active goes on, and the standby synchronises again (R187). -/
theorem hashMismatch_counts (c : Chip) (d : Instant) : (c.hashMismatch d).rd 0x2400 0x0E = (c.rd 0x2400 0x0E + 1) % 2 ^ 48 ∧
    (c.pairState ≠ psActive → (c.hashMismatch d).pairState = psSynchronising ∧ (c.hashMismatch d).rd 0x2400 0x12 = 8) ∧
    (c.pairState = psActive → (c.hashMismatch d).pairState = psActive) := by
  have hs := pairState_mismatched c d
  have hr := rd_mismatched c d
  rw [hashMismatch_eq]
  by_cases ha : c.pairState = psActive
  · rw [if_pos (hs.trans ha)]
    refine ⟨(Chip.rd_event _ _ _ _ _ _ _ _ (by decide)).trans hr, fun h => absurd ha h, fun _ => ?_⟩
    exact (Chip.rd_event _ _ _ _ _ _ _ _ (by decide)).trans (hs.trans ha)
  · rw [if_neg (hs ▸ ha)]
    obtain ⟨hst, -, hcause⟩ := resync_reports (c.mismatched d) 8 (by decide) (by decide)
    have hkept : ((c.mismatched d).resync 8).reg (0x2400 * 256 + 0x0E) = (c.mismatched d).reg (0x2400 * 256 + 0x0E) :=
      (reg_setPair _ _ _ 0x0E (by decide) (by decide) (by decide) (by decide)).trans (Chip.reg_bump _ _ _ (by decide))
    exact ⟨(Chip.rd_of_reg hkept).trans hr, fun _ => ⟨hst, hcause⟩, fun h => absurd h ha⟩

theorem hashMismatch_drops (c : Chip) (d : Instant) : ∀ x ∈ (c.hashMismatch d).pair.ownHash, x.1 ≠ d := by
  intro x hx
  rw [hashMismatch_eq] at hx
  split at hx
  · rw [Chip.event_pair, mismatched_ownHash] at hx
    simpa using (List.mem_filter.mp hx).2
  · rw [(resync_drops (c.mismatched d) 8).2.2] at hx
    cases hx

theorem dropHash_drops (c : Chip) (d : Instant) : ∀ x ∈ (c.dropHash d).pair.ownHash, x.1 ≠ d := fun x hx => by
  simpa using (List.mem_filter.mp hx).2

/-- The own hash of d is gone after its deadline. -/
theorem hashDue_drops (c : Chip) (d h : Nat) : ∀ x ∈ (c.hashDue d h).pair.ownHash, x.1 ≠ d := by
  unfold Chip.hashDue
  split
  · split
    · exact dropHash_drops _ d
    · exact hashMismatch_drops c d
  · split
    · exact hashMismatch_drops c d
    · exact dropHash_drops _ d

/-- A hash of the partner that differs, or is absent where it was to come, is a mismatch. -/
theorem hashDue_differs (c : Chip) (d h : Nat) (hne : ∀ p, c.pair.partnerHash.find? (fun x => x.1 == d) = some p → p.2 ≠ h)
    (hex : (c.pair.partnerHash.find? (fun x => x.1 == d)).isSome = true ∨
      (c.linkUp = true ∧ (c.partnerReady = true ∨ c.pairState = psStandbyReady))) : c.hashDue d h = c.hashMismatch d := by
  unfold Chip.hashDue
  cases hp : c.pair.partnerHash.find? (fun x => x.1 == d) with
  | some p => exact if_neg (hne p hp)
  | none =>
    rw [hp] at hex
    exact if_pos (hex.resolve_left (by decide))

/-! ### A lasting difference of an input (R184) -/

/-- The difference of a source is counted and marked as reported. -/
def Chip.discrepancy (c : Chip) (k : Nat) : Chip :=
  ((c.modPair (fun p => { p with discr := NMem.set p.discr k 1 })).bump 0x2400 0x0F).event (Config.pairEventCode 2) sevMinor 9 0 []

theorem gives_inputDiscrepancy (s : State) (t : Instant) (src : ItemSrc) (hs : s.chip.pairState = psStandbyReady) (hk : discrKey src ≠ 0)
    (h2 : 2 ≤ NMem.get s.chip.pair.discr (discrKey src))
    (ht : NMem.get s.chip.pair.discr (discrKey src) - 2 + s.chip.rd 0x2400 0x08 * 1000000 ≤ t) :
    Gives s (.inputDiscrepancy t src) ((s.chip.at_ t).discrepancy (discrKey src)) :=
  gives_of_onChip (rfl : execInputDiscrepancy t src s = s.onChip _) (if_pos ⟨hs, hk, h2, ht⟩)

theorem discrepancy_counts (c : Chip) (k : Nat) : (c.discrepancy k).rd 0x2400 0x0F = (c.rd 0x2400 0x0F + 1) % 2 ^ 48 ∧
    NMem.get (c.discrepancy k).pair.discr k = 1 ∧ (c.discrepancy k).pairState = c.pairState := by
  refine ⟨(Chip.rd_event _ _ _ _ _ _ _ _ (by decide)).trans (Chip.rd_bump_same ..), ?_, ?_⟩
  · rw [Chip.discrepancy, Chip.event_pair]
    exact NMem.get_set_same c.pair.discr k 1
  · exact (Chip.rd_event _ _ _ _ _ _ _ _ (by decide)).trans (Chip.rd_bump_other _ _ _ _ _ (by decide))

/-! ### The release that a seal starts (R181, R201) -/

theorem putEdit_cls (c : Chip) (r typ v : Nat) (e : EditTarget) : (c.putEdit r typ v e).cls = c.cls := by
  cases e <;> rfl

theorem executedAt_cls (c : Chip) (m : Instant) (q : Queued) : (c.executedAt m q).cls = c.cls := by
  obtain ⟨regs, p, he, -⟩ := executed_eq (c.at_ m) (qOrig q) q.csn 0
  obtain ⟨d, hd⟩ := answerWaiting_eq (c.executedOn m (qOrig q) q.csn 0) (qOrig q) q.csn (resultBody 0)
  rw [Chip.executedAt, Chip.executedWith, hd, Chip.executedOn, he]
  rfl

theorem applyEdit_cls (c : Chip) (r : Nat) (m : Instant) (q : Queued) : (c.applyEdit r m q).cls = c.cls := by
  unfold Chip.applyEdit
  split
  · rfl
  · split
    · rfl
    · simp only [executedAt_cls, Chip.modRegion_cls, Chip.persist_cls, Chip.eventAs_cls, Chip.bump_cls, putEdit_cls]

theorem applySealed_cls (c : Chip) (e : SealEntry) : (c.applySealed e).cls = c.cls :=
  (foldl_keeps Chip.cls (fun d q _ => applyEdit_cls d _ _ q) _).trans rfl

/-- A class whose image is frozen keeps its configuration. -/
theorem freeze_cfg (c : Chip) (auth : Bool) (n : Nat) (m : Instant) (its : List Item) (g : ClsCfg) (hg : (c.cl n).cfg = some g) :
    ((c.freeze auth n m its).cl n).cfg = some g := by
  obtain ⟨⟨regs, can, hf⟩, -⟩ := freeze_changesCan c auth n m its g hg
  obtain ⟨img, imgQ, hdrs, hi⟩ := changesImage_frozenCls c auth n m its g
  rw [hf]
  refine (congrArg Cls.cfg (Chip.cl_modCl_same c n _)).trans ?_
  rw [hi]
  exact hg

/-- The comparison of inputs changes what the pair keeps of differences alone. -/
theorem compareInputs_eq (c : Chip) (n : Nat) (m : Instant) : ∃ p, c.compareInputs n m = { c with pair := p } := by
  unfold Chip.compareInputs
  split
  · exact ⟨c.pair, rfl⟩
  · split
    · refine foldl_invariant (A := fun d => ∃ p, d = { c with pair := p }) ?_ c ⟨c.pair, rfl⟩
      rintro d x - ⟨p, rfl⟩
      simp only
      split
      · exact ⟨p, rfl⟩
      · exact ⟨_, rfl⟩
    · exact ⟨c.pair, rfl⟩

/-- The chip on which a release stands frozen from the items and edits that its seal takes. -/
def Chip.sealFrozen (c : Chip) (n : Nat) (m : Instant) (e : SealEntry) : Chip :=
  let d := c.modPair (fun p => { p with seals := p.seals.filter (fun x => !(x.e.cls.val == n && x.e.m.instant == m)) })
  let d := (d.modPair (fun p => { p with fwdItems := p.fwdItems.filter (fun q => !fwdTaken n m q) })).applySealed e
  (d.bumpBy 0x2200 0x07
    ((d.region (clsRegion (d.cl n))).queue.filter (fun q => isEdit q && q.cls == n && before m q.stamp)).length).freeze false n m (c.fwdOf n m)

/-- A cycle takes the number that its seal gives it. -/
def sealNumbered (k : Nat) (x : Cls) : Cls := { x with cycle := x.cycle.map (fun cy => { cy with cy := k }) }
/-- Items that a muster has taken go. -/
def itemsTaken (m : Instant) (k : Cls) : Cls := { k with items := k.items.filter (fun i => !before m i.stamp) }

theorem shadowRelease_eq (c : Chip) (n : Nat) (m : Instant) (e : SealEntry) (h : e.ncm = 0) : c.shadowRelease n m e =
    (((((c.sealFrozen n m e).startCycle n m e.m).modCl n (sealNumbered e.cy)).wr (0x2210 + n) 0x09 e.cy).compareInputs n m).modCl n (itemsTaken m) := by
  have hn : ¬ 0 < e.ncm := by omega
  simp only [Chip.shadowRelease, if_neg hn]
  rfl

theorem sealFrozen_cfg (c : Chip) (n : Nat) (m : Instant) (e : SealEntry) (g : ClsCfg) (hg : (c.cl n).cfg = some g) :
    ((c.sealFrozen n m e).cl n).cfg = some g := by
  refine freeze_cfg _ _ _ _ _ g ?_
  simp only [Chip.cl, Chip.bumpBy_cls, applySealed_cls]
  exact hg

/-- The cycle that a seal starts is the seal's: its muster, its time pair and its number (R181). -/
theorem shadowRelease_starts (c : Chip) (n : Nat) (m : Instant) (e : SealEntry) (g : ClsCfg) (hg : (c.cl n).cfg = some g) (h : e.ncm = 0) :
    ((c.shadowRelease n m e).cl n).cycle = some { newCycle (c.sealFrozen n m e) n m e.m g with cy := e.cy } ∧
    (c.shadowRelease n m e).cy n = e.cy % 2 ^ 48 := by
  obtain ⟨hcl, -⟩ := startCycle_keeps (c.sealFrozen n m e) n m e.m g (sealFrozen_cfg c n m e g hg)
  rw [shadowRelease_eq c n m e h]
  generalize (c.sealFrozen n m e).startCycle n m e.m = d at hcl ⊢
  obtain ⟨p, hp⟩ := compareInputs_eq ((d.modCl n (sealNumbered e.cy)).wr (0x2210 + n) 0x09 e.cy) n m
  rw [hp]
  constructor
  · refine (congrArg Cls.cycle (Chip.cl_modCl_same _ n _)).trans ?_
    refine (congrArg Cls.cycle (Chip.cl_modCl_same _ n (sealNumbered e.cy))).trans ?_
    rw [hcl]
    rfl
  · exact Chip.rd_wr_same ..

/-- Settles O36: what is sent, then what a release, a held release, a hash and a difference come to at their instants. -/
theorem hotShadowRunsFromSealsAndChecksHashes : Obligations.HotShadowRunsFromSealsAndChecksHashes := by
  unfold Obligations.HotShadowRunsFromSealsAndChecksHashes
  intro s t
  refine ⟨gives_heartbeatTransmit s t, gives_accumTransmit s t, send_fits s.chip, fun cls => ?_, fun cls m hm ht => ?_, fun d h hf => ?_,
    fun src hs hk h2 ht => ?_, fun n m e g _ hg hn hcy => ?_⟩
  · intro m d its h3 ht hc
    refine ⟨fun hsh hl x hx => ?_, fun hsh hx he => ?_, fun ha hb hl hx => ?_⟩
    · have hg := gives_shadowStart s t cls h3 ht hc (by rw [hsh]; rfl)
      rwa [startShadow_sealed _ hl hx] at hg
    · have htook : s.chip.hasTakenOver cls.val (t - 3000) = false := by
        simp [Chip.hasTakenOver, pairState_of_shadows hsh]
      have hg := gives_shadowStart s t cls h3 ht hc (by rw [hsh]; rfl)
      rwa [startShadow_unsealed _ hx, htook, if_neg Bool.false_ne_true, if_pos he] at hg
    · have htook : s.chip.hasTakenOver cls.val (t - 3000) = true := by
        simpa [Chip.hasTakenOver, ha] using ⟨hb, hl⟩
      have hg := gives_shadowStart s t cls h3 ht hc (by rw [htook, Bool.or_true])
      rwa [startShadow_unsealed _ hx, htook, if_pos rfl] at hg
  · exact ⟨_, gives_sealFaultDeadline s t cls m hm ht, sealFault_of_held (s.chip.at_ t) cls.val⟩
  · refine ⟨_, gives_hashDeadline s t d h hf, hashDue_drops _ d h, fun hne hex => ?_⟩
    obtain ⟨hcount, hstandby, hactive⟩ := hashMismatch_counts (s.chip.at_ t) d
    rw [hashDue_differs (s.chip.at_ t) d h hne hex]
    exact ⟨hcount, fun h3 => hstandby (h3 ▸ by decide), hactive⟩
  · exact ⟨_, gives_inputDiscrepancy s t src hs hk h2 ht, discrepancy_counts (s.chip.at_ t) _⟩
  · obtain ⟨hcycle, hnum⟩ := shadowRelease_starts s.chip n m e g hg hn
    exact ⟨_, hcycle, rfl, rfl, rfl, hnum.trans (Nat.mod_eq_of_lt hcy)⟩

end Sys2Proof.Machine
end

section
namespace Sys2Proof.Machine

/-! ### Frames that arrive (R175-R177) -/

theorem frameType_mem (f : OnbexOut) : frameType f ∈ frameTypes := by
  cases f <;> simp [frameType, frameTypes]

theorem frameTypes_contains {rx : Rx} {f : OnbexOut} (h : rxCarries rx f = true) : frameTypes.contains rx.typ = true := by
  simp only [rxCarries, Bool.and_eq_true, beq_iff_eq] at h
  rw [h.1.1]
  exact List.contains_iff_mem.mpr (frameType_mem f)

/-- A frame that is heard has its effect on the chip that hears it. -/
theorem onFrame_of_hears {c d : Chip} {rx : Rx} {f : OnbexOut} (h : c.hears rx f = some d) (eff : Chip → Chip) : c.onFrame rx f eff = eff d := by
  simp only [Chip.hears] at h
  split at h
  next hc =>
    simp only [Bool.and_eq_true] at hc
    obtain ⟨⟨ho, hcrc⟩, hcar⟩ := hc
    rw [Chip.onFrame, if_pos ho]
    simp only [hcrc, Bool.true_eq_false, if_false, frameTypes_contains hcar, hcar, if_true]
    split at h
    next hl => cases h; rw [hl]
    next => cases h
  next => cases h

/-- A frame with a wrong CRC, or of a reserved type, is counted and discarded. -/
theorem onFrame_discards (c : Chip) (rx : Rx) (f : OnbexOut) (eff : Chip → Chip) (ho : c.onbexOpen = true) :
    (rx.crcOk = false → c.onFrame rx f eff = (c.at_ rx.t).bump 0x2400 0x10) ∧
    (rx.crcOk = true → rx.typ ∉ frameTypes → c.onFrame rx f eff = ((c.at_ rx.t).takeLsn rx.lsn).1.bump 0x2400 0x10) := by
  refine ⟨fun hc => ?_, fun hc ht => ?_⟩
  · rw [Chip.onFrame, if_pos ho]
    exact if_pos hc
  · have hn : frameTypes.contains rx.typ = false := by simpa using ht
    rw [Chip.onFrame, if_pos ho]
    exact (if_neg (by simp [hc])).trans (if_pos hn)

theorem discards_of_onFrame (s : State) (rx : Rx) {i : Instr} (h : ∃ f eff, exec i s = s.onChip (fun c => c.onFrame rx f eff))
    (ho : s.chip.onbexOpen = true) :
    (rx.crcOk = false → Gives s i ((s.chip.at_ rx.t).bump 0x2400 0x10)) ∧
    (rx.crcOk = true → rx.typ ∉ frameTypes → Gives s i (((s.chip.at_ rx.t).takeLsn rx.lsn).1.bump 0x2400 0x10)) := by
  obtain ⟨f, eff, he⟩ := h
  obtain ⟨hcrc, htyp⟩ := onFrame_discards s.chip rx f eff ho
  exact ⟨fun hc => gives_of_onChip he (hcrc hc), fun hc ht => gives_of_onChip he (htyp hc ht)⟩

/-- What the frame of a command has done on a chip that hears it. -/
theorem gives_of_hears {s : State} {rx : Rx} {i : Instr} {f : OnbexOut} {eff : Chip → Chip} {d : Chip}
    (he : exec i s = s.onChip (fun c => c.onFrame rx f eff)) (h : s.chip.hears rx f = some d) : Gives s i (eff d) :=
  gives_of_onChip he (onFrame_of_hears h eff)

/-- The next frame in number is taken, and nothing is missing by it (R177). -/
theorem hears_next (c : Chip) (rx : Rx) (f : OnbexOut) (l : Nat) (ho : c.onbexOpen = true) (hc : rx.crcOk = true) (hr : rxCarries rx f = true)
    (hl : c.pair.lsnIn = some l) (hlt : l < 2 ^ 32) (hn : rx.lsn = (l + 1) % 2 ^ 32) :
    c.hears rx f = some ((c.at_ rx.t).modPair (fun p => { p with lsnIn := some rx.lsn })) := by
  have hk : (rx.lsn + 2 ^ 32 - l) % 2 ^ 32 = 1 := by omega
  have ht : (c.at_ rx.t).takeLsn rx.lsn = ((c.at_ rx.t).modPair (fun p => { p with lsnIn := some rx.lsn }), true) := by
    simp only [Chip.takeLsn, Chip.at_pair, hl, hk, Nat.sub_self, List.range_zero, List.map_nil, List.append_nil]
    rfl
  simp only [Chip.hears, ho, hc, hr, Bool.and_self, if_true, ht]

/-! ### What a shadow keeps for the releases (R178-R182) -/

theorem SameRegs.trans {b c d : Chip} {l l' : List (Nat × Nat)} (h : SameRegs b c l) (h' : SameRegs c d l') : SameRegs b d (l ++ l') := by
  intro ix sub hi hs hn
  rw [List.mem_append, not_or] at hn
  exact (h' ix sub hi hs hn.2).trans (h ix sub hi hs hn.1)

/-- Forwarded items wait for the seals that take them; late ones and reserved quality codes are counted (R180, R10). -/
def Chip.itemsKept (c : Chip) (items : List (Fin 16 × Item)) : Chip :=
  ((c.bumpBy 0x2200 0x09 ((items.filter (fun p => p.2.late)).length)).bumpBy 0x2600 0x0A
    ((items.filter (fun p => decide (6 < p.2.qc))).length)).modPair (fun p => { p with fwdItems := p.fwdItems ++ items.map (fun q => (q.1.val, q.2)) })

theorem itemsKept_counts (c : Chip) (items : List (Fin 16 × Item)) : SameRegs c (c.itemsKept items) [(0x2200, 0x09), (0x2600, 0x0A)] ∧
    (c.itemsKept items).rd 0x2200 0x09 = (c.rd 0x2200 0x09 + (items.filter (fun p => p.2.late)).length) % 2 ^ 48 ∧
    (c.itemsKept items).rd 0x2600 0x0A = (c.rd 0x2600 0x0A + (items.filter (fun p => decide (6 < p.2.qc))).length) % 2 ^ 48 := by
  let b := c.bumpBy 0x2200 0x09 ((items.filter (fun p => p.2.late)).length)
  have hlate : SameRegs c b [(0x2200, 0x09)] := sameRegs_wr c b 0x2200 0x09 _ (by decide) (by decide) rfl
  have hcode : SameRegs b (c.itemsKept items) [(0x2600, 0x0A)] := sameRegs_wr b _ 0x2600 0x0A _ (by decide) (by decide) rfl
  refine ⟨hlate.trans hcode, ?_, ?_⟩
  · exact (Chip.rd_wr_other b _ _ _ _ _ (by decide)).trans (Chip.rd_bumpBy_same ..)
  · refine (Chip.rd_bumpBy_same b ..).trans ?_
    rw [Chip.rd_of_reg (Chip.reg_bumpBy c 0x2200 0x09 _ (by decide))]

/-- A queued edit or command joins the queue of its region. -/
def Chip.queuedKept (c : Chip) (q : Queued) : Chip := c.modRegion q.region (fun x => { x with queue := x.queue ++ [q] })

theorem queuedKept_keeps (c : Chip) (q : Queued) : ((c.queuedKept q).region q.region).queue = (c.region q.region).queue ++ [q] ∧
    (∀ k ≠ q.region, (c.queuedKept q).region k = c.region k) ∧ c.queuedKept q = { c with regions := (c.queuedKept q).regions } :=
  ⟨congrArg Region.queue (Chip.region_modRegion_same ..), fun _ hk => Chip.region_modRegion_other _ _ _ _ hk, rfl⟩

/-- Sets take the accumulators of an ACCUM frame, by their place. -/
def takeAccs (accs : List (List Int)) (sets : List MSet) : List MSet := (sets.zipIdx).map (fun p => match accs[p.2]? with
  | some l => { p.1 with acc := l }
  | none => p.1)

theorem takeAccs_acc (accs : List (List Int)) (sets : List MSet) (h : accs.length = sets.length) : (takeAccs accs sets).map (·.acc) = accs := by
  refine List.ext_getElem (by simp [takeAccs, h]) fun i hi hj => ?_
  simp [takeAccs, List.getElem?_eq_getElem hj]

/-! ### The words of a page (R179) -/

/-- Words put from a base on, those at the addresses that are held back apart. -/
def putWordsBut (hold : Nat → Bool) (base : Nat) (l : List (Word × Nat)) (m : WMem) : WMem :=
  l.foldl (fun m p => if hold (base + p.2) then m else WMem.set m (base + p.2) p.1) m

theorem get_putWordsBut (hold : Nat → Bool) (base a : Nat) (ws : List Word) (i : Nat) (m : WMem) :
    WMem.get (putWordsBut hold base (ws.zipIdx i) m) a =
      if base + i ≤ a ∧ a < base + i + ws.length ∧ hold a = false then nth 0 ws (a - (base + i)) else WMem.get m a := by
  induction ws generalizing i m with
  | nil => exact (if_neg (by simp only [List.length_nil]; omega)).symm
  | cons w ws ih =>
    have hstep : putWordsBut hold base ((w :: ws).zipIdx i) m =
        putWordsBut hold base (ws.zipIdx (i + 1)) (if hold (base + i) then m else WMem.set m (base + i) w) := rfl
    rw [hstep, ih]
    by_cases ha : a = base + i
    · subst ha
      rw [if_neg (by omega)]
      cases hh : hold (base + i) <;> simp [nth]
    · have hm : WMem.get (if hold (base + i) then m else WMem.set m (base + i) w) a = WMem.get m a := by
        split
        · rfl
        · exact WMem.get_set_other _ _ _ _ ha
      rw [hm, List.length_cons]
      by_cases hr : base + (i + 1) ≤ a ∧ a < base + (i + 1) + ws.length ∧ hold a = false
      · obtain ⟨k, hk⟩ : ∃ k, a - (base + i) = k + 1 := ⟨a - (base + i) - 1, by omega⟩
        rw [if_pos hr, if_pos ⟨by omega, by omega, hr.2.2⟩, hk, show a - (base + (i + 1)) = k by omega]
        rfl
      · rw [if_neg hr, if_neg fun h => hr ⟨by omega, by omega, h.2.2⟩]

theorem get_putWordsBut_page (hold : Nat → Bool) (base a : Nat) (ws : List Word) (m : WMem) :
    WMem.get (putWordsBut hold base ws.zipIdx m) a =
      if base ≤ a ∧ a < base + ws.length ∧ hold a = false then nth 0 ws (a - base) else WMem.get m a := get_putWordsBut hold base a ws 0 m

theorem takePage_dBank (c : Chip) (e : Fin 32) (page : Nat) (ws : List Word) (h : ws.length ≤ 682) :
    c.takePage (.dBank e) page ws = c.modDbank e.val (putWordsBut (fun _ => false) (page * 682) ws.zipIdx) := by
  simp only [Chip.takePage, pageWords, List.take_of_length_le h]
  rfl

theorem takePage_region (c : Chip) (r : Fin 4) (page : Nat) (ws : List Word) (h : ws.length ≤ 682) :
    c.takePage (.region r) page ws =
      c.modRegion r.val (fun x => { x with gmem := putWordsBut (c.shadowed r.val) (page * 682) ws.zipIdx x.gmem }) := by
  simp only [Chip.takePage, pageWords, List.take_of_length_le h]
  rfl

/-- A page in a copy is taken and noted. -/
def Chip.pageKept (c : Chip) (sp : PageSpace) (page : Nat) (ws : List Word) : Chip :=
  (c.takePage sp page ws).modPair (fun p => { p with pages := p.pages ++ [(sp, page)] })

theorem pageKept_dBank (c : Chip) (e : Fin 32) (page : Nat) (ws : List Word) (h : ws.length ≤ 682) :
    (c.pageKept (.dBank e) page ws).pair.pages = c.pair.pages ++ [(.dBank e, page)] ∧
    ∀ k a, (c.pageKept (.dBank e) page ws).dWord k a =
      if k = e.val ∧ page * 682 ≤ a ∧ a < page * 682 + ws.length then nth 0 ws (a - page * 682) else c.dWord k a := by
  rw [Chip.pageKept, takePage_dBank c e page ws h]
  refine ⟨rfl, fun k a => ?_⟩
  by_cases hk : k = e.val
  · subst hk
    refine (congrArg (WMem.get · a) (Chip.dbank_modDbank_same c e.val _)).trans ((get_putWordsBut_page ..).trans ?_)
    generalize page * 682 = base
    exact if_congr (by simp) rfl rfl
  · rw [if_neg fun h => hk h.1]
    exact congrArg (WMem.get · a) (Chip.dbank_modDbank_other c e.val k _ hk)

theorem pageKept_region (c : Chip) (r : Fin 4) (page : Nat) (ws : List Word) (h : ws.length ≤ 682) :
    (c.pageKept (.region r) page ws).pair.pages = c.pair.pages ++ [(.region r, page)] ∧
    (∀ a, WMem.get ((c.pageKept (.region r) page ws).region r.val).gmem a =
      if page * 682 ≤ a ∧ a < page * 682 + ws.length ∧ c.shadowed r.val a = false then nth 0 ws (a - page * 682)
      else WMem.get (c.region r.val).gmem a) ∧
    ∀ k ≠ r.val, (c.pageKept (.region r) page ws).region k = c.region k := by
  rw [Chip.pageKept, takePage_region c r page ws h]
  refine ⟨rfl, fun a => ?_, fun k hk => Chip.region_modRegion_other _ _ _ _ hk⟩
  refine (congrArg (fun x => WMem.get x.gmem a) (Chip.region_modRegion_same c r.val _)).trans ?_
  exact get_putWordsBut_page ..

/-! ### Seals that a shadow receives (R182) -/

theorem takeSeal_right (c : Chip) (t : Instant) (e : SealEntry) (hs : c.shadows e.cls.val = true) (ht : t ≤ e.m.instant + 3000)
    (hh : c.ownImageHash e = e.hash) : c.takeSeal t e = c.modPair (fun p => { p with seals := p.seals ++ [⟨e, t, true⟩] }) :=
  (if_pos hs).trans (if_pos ⟨ht, hh⟩)

theorem takeSeal_wrong (c : Chip) (t : Instant) (e : SealEntry) (hs : c.shadows e.cls.val = true)
    (h : e.m.instant + 3000 < t ∨ c.ownImageHash e ≠ e.hash) : c.takeSeal t e = c.sealFault e.cls.val :=
  (if_pos hs).trans (if_neg fun ⟨ht, hh⟩ => by
    rcases h with h | h
    · exact Nat.not_le.mpr h ht
    · exact h hh)

/-- A class in hot shadow that meets a seal fault: hot shadow ends for the chip, or for the class while the copy runs. -/
theorem sealFault_of_shadows (c : Chip) (n : Nat) (h : c.shadows n = true) : (c.sealFault n).pairState = psSynchronising ∧
    (c.sealFault n).pair.seals.length ≤ c.pair.seals.length ∧
    (c.pairState = psStandbyReady → (c.sealFault n).rd 0x2400 0x0D = (c.rd 0x2400 0x0D + 1) % 2 ^ 48 ∧ (c.sealFault n).rd 0x2400 0x12 = 9) ∧
    (c.pairState = psSynchronising → n ∉ (c.sealFault n).pair.synced) := by
  by_cases hs : c.pairState = psStandbyReady
  · rw [sealFault_standby c n hs]
    obtain ⟨hst, hcount, hcause⟩ := resync_reports c 9 (by decide) (by decide)
    refine ⟨hst, ?_, fun _ => ⟨hcount, hcause⟩, fun hy => absurd (hs.symm.trans hy) (by decide)⟩
    rw [(resync_drops c 9).2.1]
    exact Nat.zero_le _
  · rw [sealFault_other c n hs]
    have hy : c.pairState = psSynchronising := by
      simp only [Chip.shadows, Bool.or_eq_true, Bool.and_eq_true, beq_iff_eq] at h
      exact (h.resolve_left hs).1
    exact ⟨hy, Nat.le_refl _, fun h3 => absurd h3 hs, fun _ hx => by simpa using (List.mem_filter.mp hx).2⟩

/-! ### The partner's dispatch hash (R187) -/

/-- The partner's hash of an instant takes the place of an earlier one. -/
def Chip.hashHeard (c : Chip) (d : Instant) (h : Nat) : Chip :=
  c.modPair (fun x => { x with partnerHash := x.partnerHash.filter (fun y => y.1 != d) ++ [(d, h)] })

/-- What a HASH frame has done on a chip of a pair that executes, at t. -/
def Chip.takeHash (c : Chip) (t d : Instant) (h : Nat) : Chip :=
  match c.pair.ownHash.find? (fun x => x.1 == d) with
  | some x => if d ≤ t ∧ x.2 = h then (c.hashHeard d h).hashMatch d else c.hashHeard d h
  | none => c.hashHeard d h

theorem gives_hash (s : State) (rx : Rx) (h : Nat) (p : TimePair) (d : Chip) (hd : s.chip.hears rx (.hash h p) = some d)
    (hs : d.pairState = psActive ∨ d.pairState = psStandbyReady) : Gives s (.hash rx h p) (d.takeHash rx.t p.instant h) := by
  refine Eq.trans (gives_of_hears (i := .hash rx h p) (rfl : execHash rx h p s = s.onChip (fun c => c.onFrame rx _ _)) hd) ?_
  rw [if_pos hs]
  rfl

theorem takeHash_differs (c : Chip) (t d : Instant) (h : Nat)
    (hn : t < d ∨ ∀ y, c.pair.ownHash.find? (fun x => x.1 == d) = some y → y.2 ≠ h) : c.takeHash t d h = c.hashHeard d h := by
  unfold Chip.takeHash
  split
  next x hx =>
    refine if_neg fun ⟨ht, he⟩ => ?_
    rcases hn with hn | hn
    · exact Nat.not_le.mpr hn ht
    · exact hn x hx he
  next => rfl

theorem takeHash_equal (c : Chip) (t d : Instant) (h : Nat) (y : Instant × Nat) (hy : c.pair.ownHash.find? (fun x => x.1 == d) = some y)
    (ht : d ≤ t) (he : y.2 = h) : c.takeHash t d h = (c.hashHeard d h).hashMatch d := by
  simp only [Chip.takeHash, hy]
  exact if_pos ⟨ht, he⟩

/-! ### The commands that frames bring -/

/-- A forwarded write has its owner's effect by the instant of its acceptance, and its number is executed; one refused changes nothing (R180, R195). -/
def Chip.writeShadowed (c : Chip) (t : Instant) (ix sub : Nat) (data : List Byte) (org csn : Nat) : Chip :=
  match c.entryEffect (forwardedBy org csn) t ix sub data with
  | .ok x => x.executedOn t org csn 0
  | .error _ => c

section
variable {s : State} {rx : Rx} {d : Chip}

theorem gives_nak (first : Nat) (h : s.chip.hears rx (.nak first) = some d) : Gives s (.nak rx first)
    (d.modPair (fun p => { p with resent := (p.store.map (·.1)).filter (fun x => !lsnBefore x first) })) :=
  gives_of_hears (i := .nak rx first) (rfl : execNak rx first s = s.onChip (fun c => c.onFrame rx _ _)) h

section
variable (hs : d.pairState = psStandbyReady ∨ d.pairState = psSynchronising)
include hs

theorem gives_item (items : List (Fin 16 × Item)) (h : s.chip.hears rx (.item 0 default) = some d) :
    Gives s (.item rx items) (d.itemsKept items) := by
  refine Eq.trans (gives_of_hears (i := .item rx items) (rfl : execItem rx items s = s.onChip (fun c => c.onFrame rx _ _)) h) ?_
  rw [if_pos hs]
  rfl

theorem gives_edit (q : Queued) (h : s.chip.hears rx (.edit q) = some d) : Gives s (.edit rx q) (d.queuedKept q) := by
  refine Eq.trans (gives_of_hears (i := .edit rx q) (rfl : execEdit rx q s = s.onChip (fun c => c.onFrame rx _ _)) h) ?_
  rw [if_pos hs]
  rfl

theorem gives_cmd_queued (q : Queued) (h : s.chip.hears rx (.cmd (.queued q)) = some d) : Gives s (.cmd rx (.queued q)) (d.queuedKept q) := by
  refine Eq.trans (gives_of_hears (i := .cmd rx (.queued q)) (rfl : execCmd rx (.queued q) s = s.onChip (fun c => c.onFrame rx _ _)) h) ?_
  rw [if_pos hs]
  rfl

theorem gives_cmd_more (org csn : Nat) (data : List Byte) (h : s.chip.hears rx (.cmd (.more org csn data)) = some d) :
    Gives s (.cmd rx (.more org csn data)) (d.modPair (fun p => { p with cmdParts := p.cmdParts ++ [(org, csn, data)] })) := by
  refine Eq.trans (gives_of_hears (i := .cmd rx (.more org csn data))
    (rfl : execCmd rx (.more org csn data) s = s.onChip (fun c => c.onFrame rx _ _)) h) ?_
  rw [if_pos hs]

theorem gives_cmd_write (t : Instant) (ix sub : Nat) (data : List Byte) (org csn : Nat)
    (h : s.chip.hears rx (.cmd (.write t ix sub data org csn)) = some d) :
    let mine (q : Nat × Nat × List Byte) : Bool := q.1 == org && q.2.1 == csn;
    Gives s (.cmd rx (.write t ix sub data org csn)) ((d.modPair (fun p => { p with cmdParts := p.cmdParts.filter (fun q => !mine q) })).writeShadowed
      t ix sub ((d.pair.cmdParts.filter mine).flatMap (·.2.2) ++ data) org csn) := by
  intro mine
  refine Eq.trans (gives_of_hears (i := .cmd rx (.write t ix sub data org csn))
    (rfl : execCmd rx (.write t ix sub data org csn) s = s.onChip (fun c => c.onFrame rx _ _)) h) ?_
  rw [if_pos hs]
  rfl

theorem gives_accum (accs : List (List Int)) (h : s.chip.hears rx (.accum accs) = some d) :
    Gives s (.accum rx accs) (d.modMeas (fun m => { m with sets := takeAccs accs m.sets })) := by
  refine Eq.trans (gives_of_hears (i := .accum rx accs) (rfl : execAccum rx accs s = s.onChip (fun c => c.onFrame rx _ _)) h) ?_
  rw [if_pos hs]
  rfl

end

theorem gives_seal (e : SealEntry) (h : s.chip.hears rx (.seal [e]) = some d) : Gives s (.seal rx [e]) ((d.dispatchAll rx.t).takeSeal rx.t e) :=
  gives_of_hears (i := .seal rx [e]) (rfl : execSeal rx [e] s = s.onChip (fun c => c.onFrame rx _ _)) h

theorem gives_state (sp : PageSpace) (page : Nat) (ws : List Word) (hs : d.pairState = psSynchronising)
    (h : s.chip.hears rx (.state sp page ws) = some d) : Gives s (.state rx sp page ws) (d.pageKept sp page ws) := by
  refine Eq.trans (gives_of_hears (i := .state rx sp page ws) (rfl : execState rx sp page ws s = s.onChip (fun c => c.onFrame rx _ _)) h) ?_
  rw [if_pos hs]
  rfl

end

/-- The commands of the frame rows, HEARTBEAT apart, are receptions of their frames. -/
theorem frameRows_onFrame (s : State) (rx : Rx) (h cause page : Nat) (caps : Caps) (items : List (Fin 16 × Item)) (e : Queued) (f : FwdCmd)
    (es : List SealEntry) (accs : List (List Int)) (sp : PageSpace) (words : List Word) (cls : Option (Fin 16)) (g : Option Instant) (p : TimePair) :
    ∀ i ∈ [Instr.caps rx caps, .nak rx h, .item rx items, .edit rx e, .cmd rx f, .seal rx es, .accum rx accs,
      .hash rx h p, .state rx sp page words, .stateEnd rx cls, .abdicate rx cause, .role rx g, .fenceFrame rx cause],
      ∃ f eff, exec i s = s.onChip (fun c => c.onFrame rx f eff) := by
  simp only [List.forall_mem_cons, List.not_mem_nil, false_implies, implies_true, and_true]
  exact ⟨⟨_, _, (rfl : execCaps rx caps s = _)⟩, ⟨_, _, (rfl : execNak rx h s = _)⟩, ⟨_, _, (rfl : execItem rx items s = _)⟩,
    ⟨_, _, (rfl : execEdit rx e s = _)⟩, ⟨_, _, (rfl : execCmd rx f s = _)⟩, ⟨_, _, (rfl : execSeal rx es s = _)⟩,
    ⟨_, _, (rfl : execAccum rx accs s = _)⟩, ⟨_, _, (rfl : execHash rx h p s = _)⟩, ⟨_, _, (rfl : execState rx sp page words s = _)⟩,
    ⟨_, _, (rfl : execStateEnd rx cls s = _)⟩, ⟨_, _, (rfl : execAbdicate rx cause s = _)⟩, ⟨_, _, (rfl : execRole rx g s = _)⟩,
    ⟨_, _, (rfl : execFenceFrame rx cause s = _)⟩⟩

theorem gives_heartbeat_discarded (s : State) (rx : Rx) (st : Nat) (b : Bool) (p q : TimePair) (ho : s.chip.onbexOpen = true)
    (hc : rx.crcOk = false) : Gives s (.heartbeat rx st b p q) ((s.chip.at_ rx.t).bump 0x2400 0x10) :=
  gives_of_onChip (rfl : execHeartbeat rx st b p q s = s.onChip _) ((if_pos ho).trans (if_pos hc))

/-- Settles O35: frames discarded, the next frame taken, and row by row what a chip that hears a frame keeps of it. -/
theorem framesOfTheActiveAreTakenByTheShadow : Obligations.FramesOfTheActiveAreTakenByTheShadow := by
  unfold Obligations.FramesOfTheActiveAreTakenByTheShadow
  intro s rx
  refine ⟨fun ho h cause page caps items e f es accs sp words cls g p i hi => ?_, fun ho hc st b p q => gives_heartbeat_discarded s rx st b p q ho hc,
    fun l f ho hc hr hl hlt hn => hears_next s.chip rx f l ho hc hr hl hlt hn, fun d => ⟨fun first h => gives_nak first h, fun hs => ?_,
    fun hs page words hw => ⟨fun e h => ?_, fun r h => ?_⟩, fun hs h p hh => ⟨fun hn => ?_, fun y hy ht he => ?_⟩⟩⟩
  · exact discards_of_onFrame s rx (frameRows_onFrame s rx h cause page caps items e f es accs sp words cls g p i hi) ho
  · refine ⟨fun items h => ?_, fun q i hi => ?_, fun t ix sub data org csn h => ⟨fun x hx => ?_, fun k hk => ?_⟩,
      fun data org csn h => gives_cmd_more hs org csn data h, fun accs h hl => ?_, fun e h hsh => ⟨_, gives_seal e h, fun ht hh => ?_, fun hw => ?_⟩⟩
    · obtain ⟨hsame, hlate, hcode⟩ := itemsKept_counts d items
      exact ⟨_, gives_item hs items h, hsame, hlate, hcode, rfl⟩
    · refine ⟨d.queuedKept q, ?_, queuedKept_keeps d q⟩
      rcases List.mem_append.mp hi with hi | hi <;> split at hi
      · next h => rw [List.mem_singleton.mp hi]; exact gives_edit hs q h
      · cases hi
      · next h => rw [List.mem_singleton.mp hi]; exact gives_cmd_queued hs q h
      · cases hi
    · have hg := gives_cmd_write hs t ix sub data org csn h
      simp only [Chip.writeShadowed] at hg
      rwa [hx] at hg
    · have hg := gives_cmd_write hs t ix sub data org csn h
      simp only [Chip.writeShadowed] at hg
      rwa [hk] at hg
    · exact ⟨_, gives_accum hs accs h, takeAccs_acc accs d.meas.sets hl, rfl⟩
    · exact takeSeal_right _ rx.t e hsh ht hh
    · rw [takeSeal_wrong _ rx.t e hsh hw]
      exact sealFault_of_shadows _ _ hsh
  · exact ⟨_, gives_state (.dBank e) page words hs h, pageKept_dBank d e page words hw⟩
  · exact ⟨_, gives_state (.region r) page words hs h, pageKept_region d r page words hw⟩
  · have hg := gives_hash s rx h p d hh hs
    rwa [takeHash_differs d rx.t p.instant h hn] at hg
  · have hg := gives_hash s rx h p d hh hs
    rwa [takeHash_equal d rx.t p.instant h y hy ht he] at hg

end Sys2Proof.Machine
end

section
namespace Sys2Proof.Machine

/-! ### A held release of a class that the chip does not have -/

theorem chip_of_gives {s : State} {i : Instr} {c d : Chip} (h : Gives s i c) (h' : Gives s i d) : c = d := by
  simpa using h.symm.trans h'

/-- A class of period 1 with a member at engine position 0. -/
def strayCls : Cls := { Cls.reset with cfg := some { (default : ClsCfg) with members := 1, period := 1 } }

/-- A standby whose partner's baton toggles and whose heartbeat is lost, which holds a release of class 496 at tick 1. The registers of a class
stand at index 0x2210 and its number (Table 02-11), so that those of class 496 are the registers of the pair: its state in 0x2400.08 is 2, and
the time pair of its muster belongs to 0x2400.0C. -/
def strayStandby : Chip := { Chip.reset with
  regs := [(regKey 0x2400 0x03, psStandbyReady), (regKey 0x2400 0x08, csRunning), (regKey 0x2400 0x0A, 4)],
  cls := List.replicate 496 Cls.reset ++ [strayCls],
  power := { Power.reset with domains := 0xFFFF },
  pair := { Pair.reset with inForce := true, heldRel := [(496, tickNs)] } }

/-- What the end of the baton at 0 makes of it. -/
def strayTaken : Chip := ((strayStandby.at_ 0).setBit 0x2400 0x0A 2 false).takeOverAlone 3

theorem gives_batonStopped_stray : Gives ⟨[], strayStandby⟩ (.batonStopped 0) strayTaken := by
  have he : ((strayStandby.at_ 0).setBit 0x2400 0x0A 2 false).expireHeld 0 = (strayStandby.at_ 0).setBit 0x2400 0x0A 2 false := by
    have hl : ((strayStandby.at_ 0).setBit 0x2400 0x0A 2 false).pair.heldRel.find? (fun p => decide (p.2 + 6700 < 0)) = none := by
      decide +kernel
    simp only [Chip.expireHeld, hl]
  refine gives_of_onChip (rfl : execBatonStopped 0 ⟨[], strayStandby⟩ = State.onChip ⟨[], strayStandby⟩ _) ?_
  refine (if_pos ⟨by decide +kernel, by decide +kernel⟩).trans ?_
  simp only [he]
  exact (if_neg (by decide +kernel)).trans (if_pos ⟨by decide +kernel, by decide +kernel⟩)

/-- The takeover counts in 0x2400.0C, and the cycle of class 496 then writes its muster's second there. -/
theorem takeovers_strayTaken : strayTaken.rd 0x2400 0x0C = 0 := by decide +kernel

/-- Refutes O34: the takeover that follows the end of the baton is not counted where the chip holds a release of class 496, whose cycle
writes over the count. A chip keeps held releases of classes 0 to 15 alone, and the statement does not ask it of its state. -/
theorem not_thePairStateFollowsItsEvents : ¬ Obligations.ThePairStateFollowsItsEvents := by
  unfold Obligations.ThePairStateFollowsItsEvents
  intro h
  obtain ⟨hstopped, -⟩ := h ⟨[], strayStandby⟩ 0 (by decide +kernel)
  obtain ⟨c', hgives, -, -, htakes, -⟩ := hstopped (by decide +kernel)
  obtain ⟨-, -, hcount, -⟩ := htakes (by decide +kernel) (by decide +kernel) (by decide +kernel)
  rw [chip_of_gives hgives gives_batonStopped_stray, takeovers_strayTaken] at hcount
  exact absurd hcount (by decide +kernel)

end Sys2Proof.Machine
end
